-- ==== Sys2Proof/Word.lean ====
section
/-! DEFINITION. The word types of the model and their plainest arithmetic. -/

namespace Sys2Proof

/-- A byte (00 R13). -/
abbrev Byte := BitVec 8
/-- A 16-bit word. -/
abbrev W16 := BitVec 16
/-- A 32-bit word: a scratchpad word (02 R63), an FP32 pattern, a step-entry slot (02 R77). -/
abbrev W32 := BitVec 32
/-- A 64-bit word. -/
abbrev W64 := BitVec 64
/-- The payload of a mesh token (02 R70): 512 bits. -/
abbrev Payload := BitVec 512

/-- A string of bits, bit 0 first (03 R80): `len` bits, held in `val`. -/
structure Bits where
  len : Nat
  val : Nat
  deriving DecidableEq, Repr

/-- A mesh token: 512 bits of payload and the void flag (02 R70, 04 R119). Its parity is checked
by the link and is not part of what the tile sees. -/
structure Token where
  data : Payload
  void : Bool
  deriving DecidableEq, Repr

/-- The four sides of a tile (02 R70). -/
inductive Dir where
  | north | east | south | west
  deriving DecidableEq, Repr

end Sys2Proof
end

