-- ==== Sys2Proof/Config.lean ====
section
/-! DEFINITION. What an implementation fixes and the free values: constants without a body, so that
no proof can see what they are. -/

namespace Sys2Proof.Config

/-- The byte at an address of a memory that has lost its contents `epoch` times (02 R69, 06 R203,
13 R397): a free value. -/
opaque lostByte : Nat → Nat → Byte

/-- The 32-bit word at an address of a scratchpad that has lost its contents `epoch` times
(02 R69): a free value. -/
opaque lostWord : Nat → Nat → W32

/-- How far a transcendental vector result lies from the value nearest to the exact one, in units
in the last place (03 R93): operation code, operand. The model keeps it within the bound of Table FMT-4. -/
opaque ulpOffset : Nat → W32 → Int

/-- The firmware public key in the mask ROM (14 The Helm), an SLH-DSA-SHA2-192s key, which the spec does not print. -/
opaque romKey : List Byte

/-- The secret seeds of the Balori manufacturing key (14 R424): SK.seed, SK.prf, PK.seed. -/
opaque makerKey : Nat → List Byte

/-- The randomness with which a message is signed (FIPS 205): a free value, by the message. -/
opaque signRandom : List Byte → List Byte

/-- The 256-bit secret K that the PUF and its helper data give (14 R423). -/
opaque pufSecret : List Byte

/-- SHA-256 of the firmware image written at manufacture (14 R418), which the spec does not print. -/
opaque factoryDigest : List Byte

/-- The date of manufacture, in seconds of UTC since 1970 (14 R424). -/
opaque manufactureDate : W64

/-- The PCI Vendor ID assigned to Balori (11 Table HOST-1), which the spec does not print. -/
opaque vendorId : W16

/-- The 16-bit command set version that Get Vendor Defined Message Support names (12 R374, DSP0236),
which the spec does not print. -/
opaque vendorSet : W16

/-- The code, in the data of an event, of a choice that a chapter lists without numbers (10 Table LINK-12: the cause of
LINK_DOWN, the direction of LINK_DEGRADED). -/
opaque eventField : Nat → Nat → Byte

/-- KIND of a trace record, by what it reports (15 R456, which lists what is traced and gives no numbers). -/
opaque traceKind : Nat → Byte

/-- The 22 bytes of data of a trace record, by what it reports and of what (15 R456, which does not say what they hold). -/
opaque traceData : Nat → List Byte → Nat → Byte

/-- SEV of a Logbook record, by its event code: 14 Table HELM-3 lists the values and no rule assigns them. -/
opaque eventSev : Nat → Byte

/-- The copy of device time that a unit outside the Helm holds, by the unit and the Helm's count (14 R408): a free value that the
model keeps within 1 µs of that count. -/
opaque clockCopy : Nat → Nat → Nat

/-- The bound, in ns, of stage 1 of power-up while VIN lies in range: 16 Table PKG-8 gives none. -/
opaque vinCheckBound : Nat

/-- Whether the PUF gives the secret K at a Helm restart that activates or gives up firmware (14 R407, R423), by HELM_RESTARTS. -/
opaque pufGives : Nat → Bool

/-- A free value of 64 bits, by a counter of the state: a value the spec leaves undefined. -/
opaque freeValue : Nat → W64

end Sys2Proof.Config
end

