-- ==== Sys2Proof/Syntax.lean ====
section
/-! DEFINITION. The commands of the module: one constructor for each row of the opcode table, with
what the command carries. What the environment decides (an ECC event, a PCI Express error, a sensor
reading, a BIST finding) is an operand of the command whose step it bears on. -/

namespace Sys2Proof

/-- What the protection of a memory or a data path found in a step: nothing, an error it corrected
in place, or an error it cannot correct (02 R51, R68; 06 R184). -/
inductive Ecc where
  | ok | corrected | fatal
  deriving DecidableEq, Repr

/-- What the protection of a region store found in a step (06 R184): nothing; an error it corrects, or cannot
correct, in half `hi` of the line at `place` (16 × set + way); a parity error of that line's tag; an error it corrects, or
cannot correct, in the ways that the region's lent segment `seg` takes of its lender (06 R202). -/
inductive RsEvent where
  | ok
  | corrected (place : Nat) (hi : Bool)
  | fatal (place : Nat) (hi : Bool)
  | tag (place : Nat)
  | lentCorrected (seg : Nat)
  | lentFatal (seg place : Nat) (hi : Bool)
  deriving DecidableEq, Repr

/-- An error that the finish of a commit meets (07 R234) at an element of a unit's commit sequence: a PCI Express error of the
paging of its HOST block (06 R201), or an uncorrectable error of its stack (15 Table RCV-2). -/
structure FinishErr where
  unit : Nat
  elem : Nat
  host : Bool
  deriving DecidableEq, Repr

/-- What the trip comparators saw (13 Table PWR-4). -/
inductive TripCause where
  | thermal | vinLow | vinHigh | current | rail
  deriving DecidableEq, Repr

/-- A repair map entry (15 Table RCV-7). -/
structure RepairEntry where
  kind   : Nat
  cancel : Bool
  origin : Nat
  die    : Nat
  row    : Nat
  pcol   : Nat
  trow   : Nat
  tcol   : Nat
  data   : Nat
  deriving DecidableEq, Repr

/-- One round of the sensor hub (14 Table HELM-1): temperatures in 1/16 °C by physical region, by
stack and of the Helm die; voltages, current and power as FP32 patterns. -/
structure Sensors where
  regionT   : List (Nat × Int)
  stackT    : List (Nat × Int)
  helm      : Int
  vin       : W32
  standby   : W32
  current   : W32
  power     : W32
  deriving DecidableEq, Repr

/-- The header fields of a flit (10 Table LINK-4) and its 240-byte payload. The CRC follows from them and is checked on
receipt: a flit whose CRC does not match comes with FLIT_RECEIVE_ERROR. -/
structure Flit where
  type    : Nat
  vc      : Nat
  seq     : Nat
  ack     : Nat
  nak     : Bool
  cvc     : Nat
  cfree   : Nat
  gen     : Nat
  hops    : Nat
  ring    : Nat
  kind    : Nat
  round   : Nat
  origin  : Nat
  payload : List Byte
  deriving DecidableEq, Repr

/-- Which cap of the control loops is meant (13 R389): the power cap, or the thermal cap of a
physical region. -/
inductive CapKind where
  | power
  | thermal (region : Nat)
  deriving DecidableEq, Repr

/-- Why a received flit is not taken (10 R328): codewords that FEC could not correct, with how many it has met; a CRC, the one
received, that does not match. `corrected` is no error: codewords that FEC corrected (10 Table LINK-10). -/
inductive FlitError where
  | fec (codewords : Nat)
  | crc (received : Nat)
  | badType | residue | seqLate | seqDup
  | corrected (codewords : Nat)
  deriving DecidableEq, Repr

/-- Why a port leaves ACTIVE for RETRAIN (10 R331). -/
inductive RetrainCause where
  | naks | retries | lock
  deriving DecidableEq, Repr

/-- The kinds of reset domain (15 Table RCV-1). -/
inductive DomKind where
  | dataflow | tier | link | update | stack | die | module
  deriving DecidableEq, Repr

/-- What restarts the Helm, other than standby power and a firmware update (14 R407). -/
inductive RestartCause where
  | watchdog | memory
  deriving DecidableEq, Repr

/-- What the management store does with what a dictionary write stores in it: both writes succeed, the
counter of a signed write is not stored, the value is not stored (12 R366, R380; Table DICT-3 STORE_FAILED). -/
inductive Store where
  | ok | counter | value
  deriving DecidableEq, Repr

/-- The commands. Operands: `t` a presented tile (32 × presented region + 8 × tile row + tile
column), `r` a presented region (24 × die + 6 × row + column), `pr` a physical region (28 × die +
7 × row + column), `p` a link port, `q` a queue, `u` an update unit (2 × stack + unit), `seq` the
journal number of an accepted command; `fill` counts in the list of a region's fills in flight; `ue` the
device address at which a read of the command meets an error that the stack cannot correct (15 R433), or whether its one read
meets one. -/
inductive Instr where
  -- power and thermal (13, 16)
  /-- R399 -/ | vsbApplied (pufOk : Bool)
  /-- R470 -/ | vsbLoss
  /-- R470 -/ | vsbSag (helmRuns : Bool)
  /-- R400 -/ | pwrPermitAssert (held : Nat)
  /-- R400 -/ | powerupStageComplete (bist : Option (List RepairEntry))
  /-- R476 -/ | powerupFailed (mapBad : Bool)
  /-- R402 -/ | pwrPermitDeassert (held : Nat)
  /-- R402 -/ | shutdownProgress (bist : List RepairEntry)
  /-- R402 -/ | shutdownTimeout
  /-- R398 -/ | tripRestart
  /-- R397 -/ | moduleTrip (cause : TripCause) (seen : Sensors)
  /-- R404 -/ | powerCycle
  /-- R404 -/ | cycleOffExpiry
  /-- R387 -/ | sensorSample (v : Sensors)
  /-- R388 -/ | powerLoop
  /-- R388 -/ | thermalLoop
  /-- R389 -/ | capFloorAlarm (cap : CapKind)
  /-- R385 -/ | regulatorFault (pr : Nat)
  /-- R395 -/ | regionTrip (pr : Nat)
  /-- R392 -/ | shutterOpen (pr : Nat)
  /-- R396 -/ | ptAlarmClear (v : Nat)
  /-- R392 -/ | shutterEmpty (v : Nat) (st : Store)
  /-- R337 -/ | refclkLost
  /-- R337 -/ | refclkRestored
  -- host interface (11)
  /-- R344 -/ | sqBaseWrite (q : Nat) (cq : Bool) (v : W64)
  /-- R344 -/ | qCtrlWrite (q : Nat) (v : W32)
  /-- R345 -/ | sqTailDoorbell (q : Nat) (v : W32)
  /-- R348 -/ | cqHeadDoorbell (q : Nat) (v : W32)
  /-- R342 -/ | winBaseWrite (v : W64)
  /-- R341 -/ | intCauseClear (v : W64)
  /-- R342 -/ | winStatusClear (v : W64)
  /-- R341 -/ | bar0RegisterWrite (offset : Nat) (v : W64) (bytes : Nat)
  /-- R342 -/ | bar2Read (offset n : Nat) (ue : Bool)
  /-- R342 -/ | bar2Write (offset : Nat) (data : List Byte)
  /-- R340 -/ | functionLevelReset
  /-- R345 -/ | commandAccept (q : Nat) (pcieError ue : Bool)
  /-- R346 -/ | commandStart (seq : Nat)
  /-- R348 -/ | commandComplete (seq : Nat) (pcieError : Bool)
  -- commands (11)
  /-- R350 -/ | chartLoad (seq : Nat) (ue : Option Nat)
  /-- R350 -/ | chartUnload (seq : Nat) (err : Option FinishErr)
  /-- R351 -/ | bind (seq : Nat)
  /-- R352 -/ | run (seq : Nat) (ue : Option Nat)
  /-- R353 -/ | copy (seq : Nat) (pcieErrorAt ueAt : Option Nat)
  /-- R346 -/ | fence (seq : Nat)
  /-- R372 -/ | dictGet (seq : Nat) (pcieError : Bool)
  /-- R372 -/ | dictSet (seq : Nat) (pcieError : Bool) (st : Store)
  /-- R349 -/ | journalMark (seq : Nat)
  /-- R354 -/ | abortAtWaypoint (seq : Nat) (err : Option FinishErr)
  /-- R354 -/ | abortImmediate (seq : Nat) (err : Option FinishErr)
  -- dictionary over MCTP and by object (12)
  /-- R375 -/ | mctpGet (vdm : Bool) (src : Nat) (body : List Byte)
  /-- R375 -/ | mctpSet (vdm : Bool) (src : Nat) (body : List Byte) (st : Store)
  /-- R375 -/ | mctpSetSigned (vdm : Bool) (src : Nat) (body : List Byte) (st : Store)
  /-- R374 -/ | setEndpointId (vdm : Bool) (eid : Nat)
  /-- R374 -/ | getEndpointId (vdm : Bool)
  /-- R374 -/ | getMctpVersionSupport (vdm : Bool)
  /-- R374 -/ | getMessageTypeSupport (vdm : Bool)
  /-- R374 -/ | getVendorDefinedMsgSupport (vdm : Bool)
  /-- R367 -/ | dictWrite (index sub : Nat) (value : List Byte) (st : Store)
  /-- R378 -/ | opkey (slot : Nat) (value : List Byte) (st : Store)
  /-- R382 -/ | restoreDefaults (v : Nat)
  /-- R173 -/ | stallDump (addr : W64)
  /-- R172 -/ | stallClear (v : Nat)
  /-- R211 -/ | tierDump (addr : W64)
  /-- R210 -/ | tierClear (v : Nat)
  /-- R171 -/ | sextantEnable (v : Nat) (st : Store)
  /-- R313 -/ | torusLen (pos : Bool) (axis : Nat) (v : Nat) (st : Store)
  /-- R334 -/ | linkRetrain (v : Nat)
  /-- R454 -/ | returnToService (signedWrite : List Byte) (st : Store)
  /-- R460 -/ | repairOverride (signedWrite : List Byte) (st : Store)
  /-- R462 -/ | bistStart (v : Nat)
  /-- R461 -/ | bistDone (findings : List RepairEntry)
  /-- R451 -/ | engineResetRequest
  /-- R451 -/ | moduleResetRequest
  /-- R451 -/ | powerCycleRequest
  -- Helm, Logbook, firmware, attestation (14)
  /-- R416 -/ | logDump (addr : W64)
  /-- R416 -/ | logFlashDump (addr : W64)
  /-- R417 -/ | logClear (signedWrite : List Byte) (st : Store)
  /-- R420 -/ | fwStageOffset (v : Nat)
  /-- R420 -/ | fwStageData (data : List Byte)
  /-- R421 -/ | fwUpdate (signedWrite : List Byte) (st : Store)
  /-- R422 -/ | fwSelfTestComplete
  /-- R422 -/ | fwSelfTestTimeout (pufOk : Bool)
  /-- R426 -/ | attestNonce (nonce : List Byte)
  /-- R426 -/ | attestIssued
  /-- R407 -/ | helmRestart (cause : RestartCause) (pufOk : Bool)
  /-- R411 -/ | logRecordAppend (source : Nat)
  /-- R414 -/ | logSpill
  -- tile (02, 03, 04)
  /-- R153 -/ | passStart (t : Nat)
  /-- R35 -/ | firingComplete (t : Nat)
  /-- R40 -/ | null (t : Nat)
  /-- R41 -/ | mac (t : Nat) (e : Ecc)
  /-- R47 -/ | macz (t : Nat) (e : Ecc)
  /-- R48 -/ | drainR (t : Nat) (e : Ecc)
  /-- R48 -/ | drainC (t : Nat) (e : Ecc)
  /-- R47 -/ | zero (t : Nat)
  /-- R58 -/ | gemvMac (t : Nat) (e : Ecc)
  /-- R58 -/ | gemvMacz (t : Nat) (e : Ecc)
  /-- R59 -/ | store (t : Nat)
  /-- R59 -/ | ldx (t : Nat) (e : Ecc)
  /-- R477 -/ | ld (t : Nat) (e : Ecc)
  /-- R477 -/ | st (t : Nat)
  /-- R62 -/ | recv (t : Nat)
  /-- R62 -/ | send (t : Nat)
  /-- R62 -/ | senda (t : Nat)
  /-- R92 -/ | add (t : Nat)
  /-- R92 -/ | sub (t : Nat)
  /-- R92 -/ | mul (t : Nat)
  /-- R92 -/ | fma (t : Nat)
  /-- R92 -/ | max (t : Nat)
  /-- R92 -/ | min (t : Nat)
  /-- R92 -/ | amax (t : Nat)
  /-- R61 -/ | sel (t : Nat)
  /-- R61 -/ | bcast (t : Nat)
  /-- R92 -/ | cmpge (t : Nat)
  /-- R93 -/ | exp2 (t : Nat)
  /-- R93 -/ | log2 (t : Nat)
  /-- R93 -/ | rcp (t : Nat)
  /-- R93 -/ | rsqrt (t : Nat)
  /-- R93 -/ | tanh (t : Nat)
  /-- R92 -/ | rsum (t : Nat)
  /-- R61 -/ | rmax (t : Nat)
  /-- R61 -/ | ramax (t : Nat)
  /-- R110 -/ | cnt (t : Nat)
  /-- R42 -/ | rdA (t slot : Nat) (e : Ecc)
  /-- R42 -/ | rdB (t slot : Nat) (e : Ecc)
  /-- R43 -/ | rdSA (t slot : Nat) (e : Ecc)
  /-- R43 -/ | rdSB (t slot : Nat) (e : Ecc)
  /-- R101 -/ | rdSD (t slot : Nat) (e : Ecc)
  /-- R117 -/ | rdOut (t slot : Nat) (e : Ecc)
  /-- R71 -/ | wrIn (t slot : Nat)
  /-- R52 -/ | rdT (t slot : Nat) (e : Ecc)
  /-- R189 -/ | win (t slot : Nat)
  /-- R71 -/ | route (t : Nat)
  /-- R129 -/ | branch (t unit : Nat)
  /-- R129 -/ | merge (t unit : Nat)
  /-- R129 -/ | filter (t unit : Nat)
  /-- R130 -/ | loop (t unit : Nat)
  /-- R127 -/ | steerDataIntake (t unit : Nat)
  /-- R127 -/ | steerBearingIntake (t unit : Nat)
  /-- R119 -/ | meshTransfer (t : Nat) (d : Dir) (parityError : Bool)
  -- memory tiers and waypoints (06, 15)
  /-- R190 -/ | portAccess (t window : Nat) (e : Ecc) (ev : RsEvent)
  /-- R198 -/ | lineFetch (stream : Nat) (ev : RsEvent)
  /-- R178 -/ | lineFill (r fill : Nat) (ev : RsEvent) (hostError ue : Bool)
  /-- R191 -/ | portOutChunkTake (t : Nat) (ev : RsEvent)
  /-- R181 -/ | writeBack (r set way : Nat) (ev : RsEvent) (hostError : Bool)
  /-- R205 -/ | regionReady (r t : Nat) (e : Ecc) (ev : RsEvent) (hostError : Bool) (ue : Option Nat)
  /-- R438 -/ | waypointComplete (err : Option FinishErr) (ue : Option Nat)
  -- training state (07)
  /-- R222 -/ | stagingBucketReceive (u : Nat) (group bucket : Nat)
  /-- R225 -/ | commitStart (ue : Option Nat)
  /-- R227 -/ | commitElement (u : Nat) (ue : Bool)
  /-- R244 -/ | pageIn (u : Nat) (hostError : Bool) (ue : Option Nat)
  /-- R231 -/ | updateUnitReady (u : Nat)
  -- reduction (09)
  /-- R291 -/ | gradientScan (group bucket : Nat) (ue : Option Nat)
  /-- R308 -/ | machineBarrierComplete
  /-- R309 -/ | barrierTimeout (p : Nat)
  /-- R294 -/ | exponentAgreement (group : Nat) (ue : Option Nat)
  /-- R303 -/ | chainStart (group bucket half chunk : Nat) (ue : Option Nat)
  /-- R306 -/ | gatherStart (group bucket : Nat) (ue : Option Nat)
  -- link (10)
  /-- R320 -/ | portTrainStart (p : Nat)
  /-- R320 -/ | detect (p : Nat) (lanes : Nat) (reversed : Bool) (inverted : Nat)
  /-- R320 -/ | equalise (p precoded : Nat)
  /-- R320 -/ | align (p : Nat)
  /-- R320 -/ | fecLock (p : Nat)
  /-- R321 -/ | identify (p : Nat) (first ident : List Byte)
  /-- R320 -/ | trainStateTimeout (p : Nat)
  /-- R330 -/ | generationExchange (p : Nat)
  /-- R331 -/ | retrain (p : Nat) (cause : RetrainCause) (txHealthy rxHealthy : Nat)
  /-- R331 -/ | retrainComplete (p : Nat)
  /-- R331 -/ | linkDown (p : Nat)
  /-- R324 -/ | flitTransmit (p : Nat)
  /-- R328 -/ | flitReceiveError (p : Nat) (err : FlitError) (f : Flit)
  /-- R323 -/ | idle (p : Nat) (f : Flit)
  /-- R326 -/ | token (p : Nat) (f : Flit)
  /-- R277 -/ | kvtoken (p : Nat) (f : Flit)
  /-- R300 -/ | reduce (p : Nat) (f : Flit) (ue : Option Nat)
  /-- R294 -/ | agree (p : Nat) (f : Flit) (ue : Option Nat)
  /-- R306 -/ | weight (p : Nat) (f : Flit)
  /-- R308 -/ | barrier (p : Nat) (f : Flit)
  /-- R262 -/ | start (p : Nat) (f : Flit)
  /-- R262 -/ | startTimeout
  /-- R265 -/ | tapcount (p : Nat) (f : Flit)
  /-- R441 -/ | replay (p : Nat) (f : Flit)
  /-- R353 -/ | bulk (p : Nat) (f : Flit)
  /-- R330 -/ | gen (p : Nat) (f : Flit)
  /-- R319 -/ | tapSend (p vc : Nat)
  -- faults and recovery (15)
  /-- R437 -/ | stepWatchdog (r : Nat) (longFiring : Bool)
  /-- R437 -/ | regionQueryResult (r : Nat) (answered : Bool)
  /-- R430 -/ | resetComplete (k : DomKind) (i : Nat)
  /-- R449 -/ | resetOverrun (k : DomKind) (i : Nat)
  /-- R439 -/ | replayResume (ue : Option Nat)
  /-- R444 -/ | linkWaitTimeout
  /-- R339 -/ | pcieLinkSettle (speed width : Nat)
  /-- R417 -/ | flashRingErased
  deriving DecidableEq, Repr

end Sys2Proof
end

