-- ==== Sys2Proof/Machine/Bits.lean ====
section
/-! DEFINITION. Bit fields, sign extension, byte order (00 R13) and bit strings (03 R80). -/

namespace Sys2Proof.Machine

/-- Bits [hi:lo] of a number, MSB first as the field maps list them. -/
def bitsOf (w : Nat) (hi lo : Nat) : Nat := (w >>> lo) % 2 ^ (hi + 1 - lo)

/-- Bit i of a number, as a Bool. -/
def bitOf (w : Nat) (i : Nat) : Bool := w.testBit i

/-- A number read as a two's-complement value of `n` bits. -/
def signed (n w : Nat) : Int :=
  let v := w % 2 ^ n
  if 2 * v < 2 ^ n then (v : Int) else (v : Int) - (2 ^ n : Nat)

/-- The two's-complement pattern of an integer in `n` bits. -/
def unsigned (n : Nat) (v : Int) : Nat := (v % ((2 ^ n : Nat) : Int)).toNat

/-- The little-endian value of a list of bytes (00 R13). -/
def leVal : List Byte → Nat
  | [] => 0
  | b :: bs => b.toNat + 256 * leVal bs

/-- A number as `n` little-endian bytes (00 R13). -/
def leBytes : Nat → Nat → List Byte
  | 0, _ => []
  | n + 1, v => BitVec.ofNat 8 v :: leBytes n (v / 256)

/-- `n` zero bytes. -/
def zeros (n : Nat) : List Byte := List.replicate n 0

/-- The field of `n` bytes at offset `off` of a structure, as a number. -/
def fieldAt (bs : List Byte) (off n : Nat) : Nat := leVal ((bs.drop off).take n)

/-- The bytes [off, off+n) of a structure. -/
def bytesAt (bs : List Byte) (off n : Nat) : List Byte := (bs.drop off).take n

/-- Every byte of [off, off+n) is zero: a reserved field (00 R14). -/
def zeroAt (bs : List Byte) (off n : Nat) : Bool := (bytesAt bs off n).all (· == 0)

/-- A structure with the bytes at `off` replaced by `new`. -/
def patchAt (bs : List Byte) (off : Nat) (new : List Byte) : List Byte :=
  bs.take off ++ new ++ bs.drop (off + new.length)

/-- Count up by `k`, holding at the largest value of `n` bits (a saturating counter). -/
def satAdd (n v k : Nat) : Nat := min (v + k) (2 ^ n - 1)

/-- Ceiling division. -/
def ceilDiv (a b : Nat) : Nat := (a + b - 1) / b

/-- The empty bit string. -/
def bnil : Bits := ⟨0, 0⟩

/-- A bit string of `n` bits. -/
def bmk (n v : Nat) : Bits := ⟨n, v % 2 ^ n⟩

/-- Append `b` at the tail of `a` (02 R42). -/
def bapp (a b : Bits) : Bits := ⟨a.len + b.len, a.val + b.val * 2 ^ a.len⟩

/-- The first `n` bits. -/
def bhead (a : Bits) (n : Nat) : Bits := ⟨min n a.len, a.val % 2 ^ n⟩

/-- The string without its first `n` bits. -/
def brest (a : Bits) (n : Nat) : Bits := ⟨a.len - n, a.val >>> n⟩

/-- Element `i` of width `w` of a packed sequence (03 R80). -/
def elemOf (v w i : Nat) : Nat := (v >>> (w * i)) % 2 ^ w

/-- Pack elements of width `w` from bit 0 upward (03 R80). -/
def packElems (w : Nat) : List Nat → Nat
  | [] => 0
  | e :: es => e % 2 ^ w + 2 ^ w * packElems w es

/-- The words of a list as one number, the first lowest. -/
def wordsVal (ws : List W32) : Nat := packElems 32 (ws.map (·.toNat))

/-- The `n` words of a number, the lowest first. -/
def valWords (n v : Nat) : List W32 := (List.range n).map (fun i => BitVec.ofNat 32 (elemOf v 32 i))

/-- Replace element `i` of a list. -/
def setAt {α : Type} : List α → Nat → α → List α
  | [], _, _ => []
  | _ :: xs, 0, y => y :: xs
  | x :: xs, i + 1, y => x :: setAt xs i y

/-- The four sides in the order of the tables: N, E, S, W. -/
def dirs : List Dir := [.north, .east, .south, .west]

/-- The number of a side: 0 N, 1 E, 2 S, 3 W (02 Table TILE-21). -/
def dirIx : Dir → Nat
  | .north => 0 | .east => 1 | .south => 2 | .west => 3

/-- The side of a two-bit code (02 Table TILE-21). -/
def dirOf (n : Nat) : Dir :=
  match n % 4 with
  | 0 => .north | 1 => .east | 2 => .south | _ => .west

/-- The side of a three-bit source or destination code: 1 N, 2 E, 3 S, 4 W (02 Table TILE-17). -/
def dirCode (n : Nat) : Option Dir :=
  match n with
  | 1 => some .north | 2 => some .east | 3 => some .south | 4 => some .west
  | _ => none

/-- The side facing a side. -/
def dirOpp : Dir → Dir
  | .north => .south | .south => .north | .east => .west | .west => .east

end Sys2Proof.Machine
end

