-- ==== Sys2Proof/Machine/Tab.lean ====
section
/-! DEFINITION. Sparse tables: a list of (key, value) pairs with keys strictly rising and no entry
equal to the default, so that equal tables are equal data. -/

namespace Sys2Proof.Machine

/-- A sparse table from numbers to values. -/
abbrev Tab (α : Type) := List (Nat × α)

/-- The entry of key `k`, or the default `d`. -/
def tget {α : Type} (d : α) : Tab α → Nat → α
  | [], _ => d
  | (i, v) :: t, k => if i = k then v else tget d t k

/-- An entry put before the first larger key. -/
def tinsert {α : Type} : Tab α → Nat → α → Tab α
  | [], k, v => [(k, v)]
  | (i, x) :: t, k, v => if k < i then (k, v) :: (i, x) :: t else (i, x) :: tinsert t k v

/-- The table without key `k`. -/
def tdel {α : Type} (t : Tab α) (k : Nat) : Tab α := t.filter (fun e => decide (e.1 ≠ k))

/-- The table with key `k` set to `v`; a value equal to the default removes the entry. -/
def tset {α : Type} [DecidableEq α] (d : α) (t : Tab α) (k : Nat) (v : α) : Tab α :=
  if v = d then tdel t k else tinsert (tdel t k) k v

/-- The table with the value at `k` changed by `f`. -/
def tmod {α : Type} [DecidableEq α] (d : α) (t : Tab α) (k : Nat) (f : α → α) : Tab α :=
  tset d t k (f (tget d t k))

/-- Keys strictly rising from above `lo`, no value equal to the default. -/
def tabWfFrom {α : Type} [DecidableEq α] (d : α) : Option Nat → Tab α → Bool
  | _, [] => true
  | lo, (i, v) :: t =>
    (match lo with | none => true | some l => decide (l < i)) && decide (v ≠ d) &&
      tabWfFrom d (some i) t

/-- The canonical form of a table. -/
def tabWf {α : Type} [DecidableEq α] (d : α) (t : Tab α) : Bool := tabWfFrom d none t

/-- Write a list of values at consecutive keys. -/
def tsetMany {α : Type} [DecidableEq α] (d : α) : Tab α → Nat → List α → Tab α
  | t, _, [] => t
  | t, k, v :: vs => tsetMany d (tset d t k v) (k + 1) vs

/-- Read `n` consecutive keys. -/
def tgetMany {α : Type} (d : α) (t : Tab α) (k n : Nat) : List α :=
  (List.range n).map (fun i => tget d t (k + i))

end Sys2Proof.Machine
end

