-- ==== Sys2Proof/Machine/Types.lean ====
section
/-! DEFINITION. The structures that the state of the module is made of: what a loaded chart holds
(05, 06, 07, 08, 09) and the registers of a tile (02, 04). -/

namespace Sys2Proof.Machine

/-! ## What a loaded chart holds -/

/-- A step entry: eight 32-bit slots (02 Table TILE-15). -/
structure Entry where
  ctrl  : W32 := 0
  array : W32 := 0
  gemv  : W32 := 0
  vec   : W32 := 0
  mem0  : W32 := 0
  mem1  : W32 := 0
  route : W32 := 0
  mem2  : W32 := 0
  deriving DecidableEq, Repr

/-- A tile image (05 Tables CHRT-5, CHRT-6); descriptors are held as the bits the image gives. -/
structure TileImg where
  creg       : Nat := 0
  trow       : Nat := 0
  tcol       : Nat := 0
  mapping    : Nat := 0
  seed       : W64 := 0
  cset       : List Nat := []
  resid      : Nat := 0xFFFFFFFF
  checkFirst : Nat := 0
  checkCount : Nat := 0
  pldesc     : List Nat := []
  streams    : List W64 := []
  loops      : List Nat := []
  steer      : List (W64 × W64) := []
  wins       : List (List Byte) := []
  ptrs       : List Nat := []
  entries    : List Entry := []
  deriving DecidableEq, Repr

/-- A residency extent (05 Table CHRT-9). -/
structure Extent where
  live   : Bool
  waddr  : Nat
  words  : Nat
  source : Nat
  deriving DecidableEq, Repr

/-- A tensor record (05 Table CHRT-8). -/
structure Tensor where
  fmt    : Nat
  bound  : Bool
  scaled : Bool
  addr   : Nat
  bytes  : Nat
  scale  : Nat
  deriving DecidableEq, Repr

/-- A check record (05 Table CHRT-15). -/
structure CheckRec where
  tile  : Nat
  entry : Nat
  first : List Nat
  incr  : List Nat
  deriving DecidableEq, Repr

/-- A tile report record (05 Table CHRT-14): FIRES, NULLS, the counts of Table CHRT-11 from POP_N
on, STAGE. -/
structure TileRep where
  fires  : Nat
  nulls  : Nat
  counts : List Nat
  stage  : Nat
  deriving DecidableEq, Repr

/-- The report summary record (05 Table CHRT-13). -/
structure Summary where
  firesMax : Nat
  crit     : Nat
  tiles    : Nat
  checks   : Nat
  wpt      : Nat
  deriving DecidableEq, Repr

/-- A tier stream record (06 Table TIER-4). -/
structure TierStream where
  tile       : Nat := 0
  window     : Nat := 0
  kind       : Nat := 1
  space      : Nat := 0
  seg        : Nat := 0
  group      : Nat := 0
  lead       : Nat := 0
  zevery     : Nat := 0
  base       : Nat := 0
  alt        : Nat := 0
  rowBytes   : Nat := 64
  rows       : Nat := 1
  rowPitch   : Nat := 0
  planes     : Nat := 1
  planePitch : Nat := 0
  deriving DecidableEq, Repr

/-- A retained range (06 Table TIER-3). -/
structure Retain where
  base  : Nat
  bytes : Nat
  creg  : Nat
  deriving DecidableEq, Repr

/-- A lend record (06 Table TIER-6). -/
structure Lend where
  die  : Nat
  row  : Nat
  col  : Nat
  mib  : Nat
  creg : Nat
  seg  : Nat
  deriving DecidableEq, Repr

/-- A host segment record (06 Table TIER-5). -/
structure HSeg where
  bytes    : Nat
  slots    : Nat
  writable : Bool
  deriving DecidableEq, Repr

/-- A LIVE record (06 R204). -/
structure Live where
  tile   : Nat
  extent : Nat
  alt    : Nat
  deriving DecidableEq, Repr

/-- The TIER section (06 Table TIER-3). -/
structure Tier where
  save    : Nat := 0
  streams : List TierStream := []
  retains : List Retain := []
  lends   : List Lend := []
  hsegs   : List HSeg := []
  lives   : List Live := []
  deriving DecidableEq, Repr

/-- A unit record of the UPDATE section (07 Table UPD-4). -/
structure UnitRec where
  stack    : Nat := 0
  unit     : Nat := 0
  runFirst : Nat := 0
  runCount : Nat := 0
  blocks   : Nat := 0
  map      : Nat := 0
  mapLen   : Nat := 0
  poolSize : Nat := 0
  pool     : Nat := 0
  stage    : Nat := 0
  frames   : Nat := 0
  frameCnt : Nat := 0
  pageWpt  : Nat := 0
  deriving DecidableEq, Repr

/-- A run record (07 Table UPD-5). -/
structure RunRec where
  group  : Nat := 0
  first  : Nat := 0
  count  : Nat := 0
  gpos   : Nat := 0
  wimage : Nat := 0
  deriving DecidableEq, Repr

/-- A group record (07 Table UPD-6). -/
structure GroupRec where
  opt      : Nat := 1
  nesterov : Bool := false
  host     : Bool := false
  hseg     : Nat := 0
  lr       : W32 := 0
  b1       : W32 := 0
  b2       : W32 := 0
  eps      : W32 := 0
  wd       : W32 := 0
  gscale   : W32 := 0
  eps1     : W32 := 0
  lrs      : Nat := 0
  lrsLen   : Nat := 0
  rows     : Nat := 0
  cols     : Nat := 0
  frow     : Nat := 0
  fcol     : Nat := 0
  deriving DecidableEq, Repr

/-- The UPDATE section (07 Table UPD-3). -/
structure Upd where
  commit : Nat := 0
  cwpt   : Nat := 0
  save   : Nat := 0
  units  : List UnitRec := []
  groups : List GroupRec := []
  runs   : List RunRec := []
  deriving DecidableEq, Repr

/-- A tap record (08 Table MAP-3). -/
structure TapRec where
  port    : Nat
  use     : Nat
  side    : Nat
  tile    : Nat
  tokens  : Nat
  rtokens : Nat
  deriving DecidableEq, Repr

/-- A ring record (08 Table MAP-6). -/
structure RingRec where
  ring  : Nat
  send  : Nat
  recv  : Nat
  split : Nat
  kvTok : Nat
  dkvTok : Nat
  deriving DecidableEq, Repr

/-- The dispatch record (08 Table MAP-8). -/
structure DispRec where
  topk   : Nat
  rowTok : Nat
  cap    : Nat
  tally  : Nat
  deriving DecidableEq, Repr

/-- The MAP section (08 Table MAP-2). -/
structure MapSec where
  len      : List Nat := [1, 1, 1, 1]
  pos      : List Nat := [0, 0, 0, 0]
  machine  : Nat := 0
  micro    : Nat := 1
  vchunk   : Nat := 1
  layers   : Nat := 1
  layersH  : Nat := 1
  heads    : Nat := 0
  headsH   : Nat := 0
  experts  : Nat := 0
  expertsH : Nat := 0
  dmode    : Nat := 0
  taps     : List TapRec := []
  rings    : List RingRec := []
  disps    : List DispRec := []
  deriving DecidableEq, Repr

/-- A reduction group record (09 Table REDN-2). -/
structure RGroup where
  ugroup   : Nat := 0
  axes     : Nat := 1
  vc       : Nat := 3
  buckets  : Nat := 0
  grad0    : Nat := 0
  grad1    : Nat := 0
  wimage   : Nat := 0
  agree    : Nat := 0
  gstream  : Nat := 0
  dshift   : Nat := 0
  headroom : Nat := 0
  deriving DecidableEq, Repr

/-- The REDUCE section (09 Table REDN-1). -/
structure RedSec where
  thin     : Nat := 1
  arec     : Nat := 0
  groups   : List RGroup := []
  gtensors : List Nat := []
  deriving DecidableEq, Repr

/-- A loaded chart: what its image holds (05 R145, R146) and what BIND has supplied (11 R351). -/
structure Chart where
  image    : Nat := 0
  size     : Nat := 0
  id       : Nat := 0
  digest   : List Byte := []
  wps      : Nat := 1
  place    : List (Nat × Nat × Nat) := []
  tiles    : List TileImg := []
  resid    : List (List Extent) := []
  tensors  : List Tensor := []
  tally    : Nat := 0
  wptArea  : Nat := 0
  summary  : Summary := ⟨0, 0, 0, 0, 0⟩
  reports  : List TileRep := []
  checks   : List CheckRec := []
  tier     : Option Tier := none
  upd      : Option Upd := none
  map      : Option MapSec := none
  red      : Option RedSec := none
  tensorAt : Tab Nat := []
  hsegAt   : Tab Nat := []
  hasTier  : Bool := false
  deriving DecidableEq, Repr

/-! ## The registers of a tile -/

/-- The states of a tile (04 Table FLOW-1). -/
inductive TileSt where
  | idle | fetch | wait | fire | hold | done | stopped
  deriving DecidableEq, Repr

/-- A stream's pointer state (02 R75, 05 R157). -/
structure Stream where
  base  : Nat := 0
  ptr   : Nat := 0
  idx   : Nat := 0
  plpos : Nat := 0
  deriving DecidableEq, Repr

/-- An accumulator entry: its pattern, the sticky saturation flag (03 R89), and whether it holds an
INT32 value. -/
structure Acc where
  val : W32 := 0
  sat : Bool := false
  int : Bool := false
  deriving DecidableEq, Repr

/-- An accumulator plane (02 R47, R48): its 16 × 64 entries keyed 64 × row + presented column, the
format of its last MAC or MACZ, and its drain position. -/
structure Plane where
  acc   : Tab Acc := []
  fmt   : Nat := 2
  drain : Nat := 0
  deriving DecidableEq, Repr

/-- Current and next scale record of an operand (02 R43). -/
structure ScaleRec where
  cur  : Bits := ⟨0, 0⟩
  next : Bits := ⟨0, 0⟩
  deriving DecidableEq, Repr

/-- A vector register: 32 lanes (absent lanes are +0) and its void mark (02 R61, 04 R131). -/
structure VReg where
  lanes : Tab W32 := []
  void  : Bool := false
  deriving DecidableEq, Repr

/-- A bearing in a bearing queue; `first` marks the first bearing of its token (05 Table CHRT-11). -/
structure Bearing where
  val   : Bool
  first : Bool
  deriving DecidableEq, Repr

/-- A steering unit (04 R126-R130). -/
structure Steer where
  dataq  : List Token := []
  bearq  : List Bearing := []
  pat    : Nat := 0
  firing : Nat := 0
  hold   : Token := ⟨0, false⟩
  active : Bool := false
  deriving DecidableEq, Repr

/-- A window of a tile (06 R188, R190): open in a span, firings counted in the span, pointer, and
whether the present wait has been charged (06 R208). -/
structure Win where
  isOpen  : Bool := false
  firings : Nat := 0
  ptr     : Nat := 0
  served  : Bool := false
  charged : Bool := false
  deriving DecidableEq, Repr

/-- A counter set (03 Table FMT-8). -/
structure CSet where
  conv   : Nat := 0
  zero   : Nat := 0
  sat    : Nat := 0
  nonfin : Nat := 0
  amax   : W32 := 0
  deriving DecidableEq, Repr

/-- Where the result of a pipelined path lands (02 R34, Table TILE-12). -/
inductive Land where
  | opA (b : Bits)
  | opB (b : Bits)
  | scaleA (b : Bits)
  | scaleB (b : Bits)
  | drainScale (w : W32)
  | outq (d : Dir) (tok : Token)
  | vreg (v : Nat) (lanes : List (Nat × W32)) (void : Bool)
  | xreg (i : Nat) (vals : List W16)
  | yout (i : Nat) (a : Acc)
  | spad (str : Nat) (words : List W32)
  deriving DecidableEq, Repr

/-- A result in flight: firings still to complete before it lands, and where. -/
structure InFlight where
  left : Nat
  land : Land
  deriving DecidableEq, Repr

/-- A firing in progress (04 R117): the units of the entry that have finished, the heads steering units
take, and the tokens, vector-queue entries and operand bits they give when it completes. -/
structure Firing where
  done : List Nat := []
  pops : List Dir := []
  out  : List (Dir × Token) := []
  viq  : List Payload := []
  opA  : List Bits := []
  deriving DecidableEq, Repr

/-- A Sextant capture register (05 Table CHRT-16). -/
structure SxCap where
  index    : Nat
  record   : Nat
  occ      : Nat
  expected : Nat
  seen     : Nat
  deriving DecidableEq, Repr

/-- A scratchpad (02 R63): its words, and how many times it has lost its contents. -/
structure Spad where
  cells : Tab W32 := []
  epoch : Nat := 0
  deriving DecidableEq, Repr

/-- A tile. `wpts` and `passes` count the WPT entries it has completed since CHART_LOAD and the passes it has
started in the RUN, `since` is when its firing started (15 R437). -/
structure Tile where
  st         : TileSt := .idle
  entry      : Nat := 0
  fired      : Nat := 0
  lc         : Tab Nat := []
  firing     : Option Firing := none
  flight     : List InFlight := []
  spad       : Spad := {}
  streams    : Tab Stream := []
  plane0     : Plane := {}
  plane1     : Plane := {}
  blk        : Nat := 0
  scaleA     : ScaleRec := {}
  scaleB     : ScaleRec := {}
  drainScale : W32 := 0x3F800000
  opA        : Bits := ⟨0, 0⟩
  opB        : Bits := ⟨0, 0⟩
  viq        : List Payload := []
  x          : Tab W16 := []
  y          : Tab Acc := []
  yout       : Tab Acc := []
  vregs      : Tab VReg := []
  inq        : Tab (List Token) := []
  outq       : Tab (List Token) := []
  steer      : Tab Steer := []
  wins       : Tab Win := []
  portIn     : List (Nat × Payload) := []
  portOut    : List (Nat × Payload) := []
  rng        : W64 := 0
  csets      : Tab CSet := []
  stall      : Tab Nat := []
  sx         : Tab Nat := []
  occ        : Tab Nat := []
  sxcap      : Option SxCap := none
  wpts       : Nat := 0
  passes     : Nat := 0
  since      : Nat := 0
  colFail    : Nat := 0
  narrow     : Bool := false
  unusable   : Bool := false
  deriving DecidableEq, Repr

end Sys2Proof.Machine
end

