-- ==== Sys2Proof/Machine/Fp.lean ====
section
/-! DEFINITION. The scalar formats of 03 Table FMT-1 and the arithmetic on them: exact values,
one rounding at the end (03 R78-R95, R98, R99; 07 R235). -/

namespace Sys2Proof.Machine

/-- A decoded value: NaN, an infinity, or (−1)^neg × m × 2^e exactly. -/
inductive FVal where
  | nan
  | inf (neg : Bool)
  | fin (neg : Bool) (m : Nat) (e : Int)
  deriving DecidableEq, Repr

/-- How a format encodes its specials (03 Table FMT-1): IEEE infinities and NaNs, E4M3's single
NaN, or none. -/
inductive Specials where
  | ieee | e4m3 | none
  deriving DecidableEq, Repr

/-- A binary format: exponent and mantissa widths, bias, specials (03 Table FMT-1). -/
structure Fmt where
  ebits : Nat
  mbits : Nat
  bias  : Nat
  spec  : Specials
  deriving DecidableEq, Repr

def fp32 : Fmt := ⟨8, 23, 127, .ieee⟩
def bf16 : Fmt := ⟨8, 7, 127, .ieee⟩
def fp16 : Fmt := ⟨5, 10, 15, .ieee⟩
def e4m3 : Fmt := ⟨4, 3, 7, .e4m3⟩
def e5m2 : Fmt := ⟨5, 2, 15, .ieee⟩
def e3m2 : Fmt := ⟨3, 2, 3, .none⟩
def e2m3 : Fmt := ⟨2, 3, 1, .none⟩
def e2m1 : Fmt := ⟨2, 1, 1, .none⟩

/-- Width of a format in bits. -/
def fmtBits (f : Fmt) : Nat := 1 + f.ebits + f.mbits

/-- Exponent of the smallest normal: 1 − bias. -/
def fmtEmin (f : Fmt) : Int := 1 - (f.bias : Int)

/-- The magnitude code of the largest finite value (03 Table FMT-1). -/
def fmtMax (f : Fmt) : Nat :=
  match f.spec with
  | .ieee => (2 ^ f.ebits - 1) * 2 ^ f.mbits - 1
  | .e4m3 => 2 ^ (f.ebits + f.mbits) - 2
  | .none => 2 ^ (f.ebits + f.mbits) - 1

/-- The exact value m × 2^e of a magnitude code (03 R78). -/
def magVal (f : Fmt) (c : Nat) : Nat × Int :=
  let E := c / 2 ^ f.mbits
  let M := c % 2 ^ f.mbits
  if E = 0 then (M, fmtEmin f - f.mbits) else (2 ^ f.mbits + M, (E : Int) - f.bias - f.mbits)

/-- The value of a pattern (03 R78, R79): negative zero keeps its sign. -/
def decodeF (f : Fmt) (w : Nat) : FVal :=
  let w := w % 2 ^ fmtBits f
  let neg := w.testBit (f.ebits + f.mbits)
  let c := w % 2 ^ (f.ebits + f.mbits)
  if c ≤ fmtMax f then
    let (m, e) := magVal f c
    .fin neg m e
  else if f.spec = .ieee ∧ c % 2 ^ f.mbits = 0 then .inf neg else .nan

/-- 2^k scaling of an exact value. -/
def scaleV (v : FVal) (k : Int) : FVal :=
  match v with
  | .fin s m e => .fin s m (e + k)
  | v => v

def negV : FVal → FVal
  | .nan => .nan
  | .inf s => .inf (!s)
  | .fin s m e => .fin (!s) m e

def absV : FVal → FVal
  | .nan => .nan
  | .inf _ => .inf false
  | .fin _ m e => .fin false m e

def isNan : FVal → Bool
  | .nan => true
  | _ => false

def isFin : FVal → Bool
  | .fin _ _ _ => true
  | _ => false

def isZero : FVal → Bool
  | .fin _ 0 _ => true
  | _ => false

def zeroV : FVal := .fin false 0 0
def oneV : FVal := .fin false 1 0

/-- Exact product (03 R86, R91): zero times infinity is NaN. -/
def mulV : FVal → FVal → FVal
  | .nan, _ => .nan
  | _, .nan => .nan
  | .inf s, .inf t => .inf (s != t)
  | .inf s, .fin t m _ => if m = 0 then .nan else .inf (s != t)
  | .fin s m _, .inf t => if m = 0 then .nan else .inf (s != t)
  | .fin s m e, .fin t n d => .fin (s != t) (m * n) (e + d)

/-- The signed integer of a value at exponent `lo`. -/
def atExp (s : Bool) (m : Nat) (e lo : Int) : Int :=
  let v : Int := (m * 2 ^ (e - lo).toNat : Nat)
  if s then -v else v

/-- Exact sum (03 R91, R92): opposite infinities give NaN, an exact zero from opposite signs is +0. -/
def addV : FVal → FVal → FVal
  | .nan, _ => .nan
  | _, .nan => .nan
  | .inf s, .inf t => if s = t then .inf s else .nan
  | .inf s, .fin _ _ _ => .inf s
  | .fin _ _ _, .inf t => .inf t
  | .fin s m e, .fin t n d =>
    let lo := min e d
    let v := atExp s m e lo + atExp t n d lo
    if v = 0 then .fin (s && t) 0 0 else .fin (decide (v < 0)) v.natAbs lo

/-- The sum an FP32 accumulator takes (03 R91): an infinity gives way to the opposite infinity alone. -/
def accSum (v p : FVal) : FVal :=
  match v, p with
  | .inf s, .inf t => if s = t then .inf s else .nan
  | .inf s, _ => .inf s
  | v, p => addV v p

/-- Comparison of two values that are not NaN: a < b. -/
def ltV : FVal → FVal → Bool
  | .nan, _ => false
  | _, .nan => false
  | .inf s, .inf t => s && !t
  | .inf s, .fin _ _ _ => s
  | .fin _ _ _, .inf t => !t
  | .fin s m e, .fin t n d =>
    let lo := min e d
    decide (atExp s m e lo < atExp t n d lo)

/-- floor(log2(num ÷ den)) for positive num and den. -/
def log2Rat (num den : Nat) : Int :=
  let k : Int := (Nat.log2 num : Int) - Nat.log2 den
  let ok := if 0 ≤ k then decide (den * 2 ^ k.toNat ≤ num) else decide (den ≤ num * 2 ^ (-k).toNat)
  if ok then k else k - 1

/-- How a conversion rounds: to nearest even, or stochastically with a 16-bit draw (03 R95, R98). -/
inductive Rnd where
  | nearest
  | stoch (r : Nat)
  deriving DecidableEq, Repr

/-- Round the non-negative rational N ÷ D to an integer (03 R95, R98). -/
def roundRat (rnd : Rnd) (N D : Nat) : Nat :=
  let t := N / D
  let rem := N % D
  match rnd with
  | .nearest => if 2 * rem < D then t else if D < 2 * rem then t + 1 else if t % 2 = 0 then t else t + 1
  | .stoch r => if 65536 ≤ rem * 65536 / D + r then t + 1 else t

/-- N ÷ D for the value m × 2^e ÷ den measured in units of 2^q. -/
def inUnits (m : Nat) (e : Int) (den : Nat) (q : Int) : Nat × Nat :=
  if q ≤ e then (m * 2 ^ (e - q).toNat, den) else (m, den * 2 ^ (q - e).toNat)

/-- The magnitude code of r × 2^q, where q is the grid exponent of R95: a carry moves to the next
exponent, and codes rise with the value, past the largest finite one too. -/
def codeOf (f : Fmt) (r : Nat) (q : Int) : Nat :=
  if r < 2 ^ f.mbits then r
  else (q - (fmtEmin f - f.mbits)).toNat * 2 ^ f.mbits + r

/-- The magnitude code, possibly beyond the largest finite one, that the finite positive value
m × 2^e ÷ den rounds to (03 R95, R98). -/
def roundMag (f : Fmt) (rnd : Rnd) (m : Nat) (e : Int) (den : Nat) : Nat :=
  let ex := log2Rat m den + e
  let q := max ex (fmtEmin f) - f.mbits
  let (N, D) := inUnits m e den q
  codeOf f (roundRat rnd N D) q

/-- A sign bit placed above a magnitude code. -/
def withSign (f : Fmt) (neg : Bool) (c : Nat) : Nat := (if neg then 2 ^ (f.ebits + f.mbits) else 0) + c

/-- The infinity code of an IEEE format. -/
def infCode (f : Fmt) : Nat := (2 ^ f.ebits - 1) * 2 ^ f.mbits

/-- The canonical NaN (03 R79): 0x7FC0_0000, 0x7FC0, 0x7E00, 0x7F, 0x7E. A format without a NaN
has no code for one and gives 0 (a block or line holds it in its scale, R96, R97). -/
def nanCode (f : Fmt) : Nat :=
  match f.spec with
  | .ieee => infCode f + 2 ^ (f.mbits - 1)
  | .e4m3 => 0x7F
  | .none => 0

/-- The result of a finite input whose rounded magnitude exceeds the largest finite value (03 Table
FMT-5): the IEEE formats of 16 bits and more give an infinity, the narrow ones saturate. -/
def overCode (f : Fmt) : Nat :=
  if f.spec = .ieee ∧ 16 ≤ fmtBits f then infCode f else fmtMax f

/-- Conversion of v ÷ den to a scalar format (03 R94, R95, R98, Table FMT-5). -/
def convF (f : Fmt) (rnd : Rnd) (v : FVal) (den : Nat) : Nat :=
  match v with
  | .nan => nanCode f
  | .inf s =>
    match f.spec with
    | .ieee => withSign f s (infCode f)
    | .e4m3 => 0x7F
    | .none => 0
  | .fin s m e =>
    if m = 0 then withSign f s 0
    else
      let c := roundMag f rnd m e den
      withSign f s (if c ≤ fmtMax f then c else overCode f)

/-- The FP32 pattern a value rounds to, to nearest even. -/
def toF32 (v : FVal) : W32 := BitVec.ofNat 32 (convF fp32 .nearest v 1)

/-- The value of an FP32 pattern. -/
def ofF32 (w : W32) : FVal := decodeF fp32 w.toNat

/-- The value of a BF16 pattern. -/
def ofBf16 (w : Nat) : FVal := decodeF bf16 w

/-! ## FP32 arithmetic, each operation rounded once (03 R92, 07 R235) -/

def f32Zero : W32 := 0
def f32One : W32 := 0x3F800000
def f32Nan : W32 := 0x7FC00000

def f32Add (a b : W32) : W32 := toF32 (addV (ofF32 a) (ofF32 b))
def f32Sub (a b : W32) : W32 := toF32 (addV (ofF32 a) (negV (ofF32 b)))
def f32Mul (a b : W32) : W32 := toF32 (mulV (ofF32 a) (ofF32 b))
def f32Fma (a b c : W32) : W32 := toF32 (addV (mulV (ofF32 a) (ofF32 b)) (ofF32 c))
def f32Neg (a : W32) : W32 := toF32 (negV (ofF32 a))
def f32Abs (a : W32) : W32 := toF32 (absV (ofF32 a))

/-- Division, correctly rounded: 0 ÷ 0 and ∞ ÷ ∞ are NaN, x ÷ 0 an infinity. -/
def f32Div (a b : W32) : W32 :=
  match ofF32 a, ofF32 b with
  | .nan, _ => f32Nan
  | _, .nan => f32Nan
  | .inf _, .inf _ => f32Nan
  | .inf s, .fin t _ _ => toF32 (.inf (s != t))
  | .fin s _ _, .inf t => toF32 (.fin (s != t) 0 0)
  | .fin s m e, .fin t n d =>
    if n = 0 then (if m = 0 then f32Nan else toF32 (.inf (s != t)))
    else BitVec.ofNat 32 (convF fp32 .nearest (.fin (s != t) m (e - d)) n)

/-- Integer square root by bits: the largest r built on `acc` with r² ≤ n, using bits below `k`. -/
def isqrtBits (n : Nat) : Nat → Nat → Nat
  | 0, acc => acc
  | k + 1, acc =>
    let c := acc + 2 ^ k
    isqrtBits n k (if c * c ≤ n then c else acc)

/-- Integer square root. -/
def isqrt (n : Nat) : Nat := isqrtBits n (Nat.log2 n / 2 + 1) 0

/-- A value between whose neighbours at 2^-64 relative precision √(m × 2^e) lies: twice the root
plus a sticky bit, so that rounding it to 24 bits rounds the exact root. -/
def sqrtV (m : Nat) (e : Int) : FVal :=
  let e2 := if e % 2 = 0 then e else e - 1
  let m2 := if e % 2 = 0 then m else 2 * m
  let n := m2 * 2 ^ 128
  let r := isqrt n
  .fin false (2 * r + (if r * r = n then 0 else 1)) (e2 / 2 - 65)

/-- Square root, correctly rounded: √−0 is −0, of another negative NaN. -/
def f32Sqrt (a : W32) : W32 :=
  match ofF32 a with
  | .nan => f32Nan
  | .inf s => if s then f32Nan else toF32 (.inf false)
  | .fin s m e => if m = 0 then toF32 (.fin s 0 0) else if s then f32Nan else toF32 (sqrtV m e)

/-- MAX (03 R92): the canonical NaN when either input is NaN; +0 is greater than −0. -/
def f32Max (a b : W32) : W32 :=
  let x := ofF32 a
  let y := ofF32 b
  if isNan x || isNan y then f32Nan
  else if isZero x && isZero y then (if a = 0 ∨ b = 0 then 0 else 0x80000000)
  else if ltV x y then b else a

/-- MIN (03 R92). -/
def f32Min (a b : W32) : W32 :=
  let x := ofF32 a
  let y := ofF32 b
  if isNan x || isNan y then f32Nan
  else if isZero x && isZero y then (if a = 0x80000000 ∨ b = 0x80000000 then 0x80000000 else 0)
  else if ltV y x then b else a

/-- a ≥ b, false when either is NaN (03 R92 CMPGE). -/
def f32Ge (a b : W32) : Bool :=
  let x := ofF32 a
  let y := ofF32 b
  !isNan x && !isNan y && !ltV x y

/-- a > b, false when either is NaN. -/
def f32Gt (a b : W32) : Bool := ltV (ofF32 b) (ofF32 a)

/-- 2^k as an FP32 pattern. -/
def f32Pow2 (k : Int) : W32 := toF32 (.fin false 1 k)

/-- A natural number rounded to FP32. -/
def f32OfNat (n : Nat) : W32 := toF32 (.fin false n 0)

/-- An integer rounded to FP32. -/
def f32OfInt (i : Int) : W32 := toF32 (.fin (decide (i < 0)) i.natAbs 0)

/-! ## INT8 and INT32 (03 R89, R90, Table FMT-5) -/

/-- The integer nearest to v ÷ 2^-k, ties to even, exact before the rounding. -/
def roundInt (rnd : Rnd) (v : FVal) : Int :=
  match v with
  | .fin s m e =>
    let (N, D) := inUnits m e 1 0
    let r : Int := roundRat rnd N D
    if s then -r else r
  | _ => 0

/-- Conversion to INT8 (03 R95, Table FMT-5): the limits on overflow and for infinities, 0 for NaN. -/
def convInt8 (rnd : Rnd) (v : FVal) : Nat :=
  match v with
  | .nan => 0
  | .inf s => if s then 0x80 else 0x7F
  | v =>
    let r := roundInt rnd v
    if 127 < r then 0x7F else if r < -128 then 0x80 else unsigned 8 r

/-- INT32 accumulation with saturation and the sticky flag (03 R89). -/
def satAcc (a : Acc) (p : Int) : Acc :=
  let s := signed 32 a.val.toNat + p
  if s < -(2 ^ 31) then ⟨0x80000000, true, true⟩
  else if 2 ^ 31 - 1 < s then ⟨0x7FFFFFFF, true, true⟩
  else ⟨BitVec.ofNat 32 (unsigned 32 s), a.sat, true⟩

/-- An INT8 or INT32 pattern as an exact value. -/
def intV (n w : Nat) : FVal :=
  let i := signed n w
  .fin (decide (i < 0)) i.natAbs 0

/-- The value of an accumulator entry. -/
def accVal (a : Acc) : FVal := if a.int then intV 32 a.val.toNat else ofF32 a.val

/-! ## The stochastic rounding generator (03 R99) -/

/-- State of the generator loaded from a seed at waypoint number w. -/
def rngLoad (seed : W64) (w : Nat) : W64 :=
  let z := seed + BitVec.ofNat 64 (w + 1) * 0x9E3779B97F4A7C15
  let z := (z ^^^ (z >>> 30)) * 0xBF58476D1CE4E5B9
  let z := (z ^^^ (z >>> 27)) * 0x94D049BB133111EB
  let z := z ^^^ (z >>> 31)
  if z = 0 then 1 else z

/-- One draw: the new state, whose bits [63:48] are the draw. -/
def rngStep (s : W64) : W64 :=
  let s := s ^^^ (s <<< 13)
  let s := s ^^^ (s >>> 7)
  s ^^^ (s <<< 17)

/-- The 16-bit draw of a generator state. -/
def rngDraw (s : W64) : Nat := (s >>> 48).toNat

/-- `n` draws in order and the state after them. -/
def rngDraws : Nat → W64 → List Nat × W64
  | 0, s => ([], s)
  | n + 1, s =>
    let s1 := rngStep s
    let (ds, s2) := rngDraws n s1
    (rngDraw s1 :: ds, s2)

end Sys2Proof.Machine
end

