-- ==== Sys2Proof/Machine/Blocks.lean ====
section
/-! DEFINITION. The format codes of 02 Table TILE-18, block-scaled formats (03 R82-R85) and
conversions to them (03 R94-R98), each element with what the counters ask of it (03 R111). -/

namespace Sys2Proof.Machine

/-- Width of an element of a format code in bits (02 Table TILE-18, 03 Table FMT-1). -/
def elemBits (c : Nat) : Nat :=
  match c with
  | 0 => 16 | 1 => 16 | 2 => 8 | 3 => 8 | 4 => 8 | 5 => 8 | 6 => 6 | 7 => 6 | 8 => 4 | 9 => 4
  | 10 => 8 | 11 => 32 | _ => 0

/-- The element format of a format code; INT8 has none. -/
def elemFmt (c : Nat) : Fmt :=
  match c with
  | 0 => bf16 | 1 => fp16 | 2 => e4m3 | 3 => e5m2 | 4 => e4m3 | 5 => e5m2 | 6 => e3m2 | 7 => e2m3
  | 8 => e2m1 | 9 => e2m1 | _ => fp32

/-- The MX formats (03 R82). -/
def isMx (c : Nat) : Bool := decide (4 ≤ c ∧ c ≤ 8)
/-- HX4 (03 R83). -/
def isHx (c : Nat) : Bool := decide (c = 9)
/-- The block-scaled formats. -/
def isBlock (c : Nat) : Bool := isMx c || isHx c
/-- INT8. -/
def isInt (c : Nat) : Bool := decide (c = 10)
/-- BF16 and FP16, whose array shape is 16 × 32 (02 Table TILE-3). -/
def isHalf (c : Nat) : Bool := decide (c ≤ 1)

/-- The exact value of an element's bits, without its block scale. -/
def decodeElem (c w : Nat) : FVal := if isInt c then intV 8 w else decodeF (elemFmt c) w

/-- The other FP8 encoding, which MIX selects for B (02 R41). -/
def mixCode (c : Nat) : Nat :=
  match c with
  | 2 => 3 | 3 => 2 | 4 => 5 | 5 => 4 | c => c

/-- shat(k) of 03 R83: 2^(−k/2), or 2^(−(k+1)/2) × 181/128. -/
def shat (k : Nat) : FVal :=
  if k % 2 = 0 then .fin false 1 (-(k / 2 : Nat)) else .fin false 181 (-(7 + (k + 1) / 2 : Nat))

/-- The value of an E8M0 scale byte (03 R78, R82). -/
def e8m0 (x : Nat) : FVal := if x = 0xFF then .nan else .fin false 1 ((x : Int) - 127)

/-- The scale of an HX4 base and offset (03 R83). -/
def hxScale (base k : Nat) : FVal := if base = 0xFF then .nan else mulV (e8m0 base) (shat k)

/-- A converted element: its bits, and what the counter set adds for it (03 R111). -/
structure Conv where
  bits   : Nat
  zero   : Bool
  sat    : Bool
  nonfin : Bool
  mag    : FVal
  deriving DecidableEq, Repr

/-- The scaled value v ÷ den lies outside the finite range of the target (03 R111). -/
def outside (c : Nat) (v : FVal) (den : Nat) : Bool :=
  match v with
  | .fin s m e =>
    if isInt c then
      ltV (.fin false 127 0) (.fin s m e) || ltV (.fin s m e) (.fin true 128 0)
    else
      let (mm, me) := magVal (elemFmt c) (fmtMax (elemFmt c))
      ltV (.fin false (mm * den) me) (.fin false m e)
  | .inf _ => true
  | .nan => false

/-- A result pattern is an infinity or a NaN of the target. -/
def resNonfin (c w : Nat) : Bool := !isInt c && !isFin (decodeF (elemFmt c) w)

/-- A result pattern is a zero of the target. -/
def resZero (c w : Nat) : Bool := isZero (decodeElem c w)

/-- Convert `v ÷ den`, the scaled form of the input `x`, to format code `c` (03 R94), with `flag` an
accumulator's sticky saturation flag (03 R89). -/
def convElem (c : Nat) (rnd : Rnd) (x v : FVal) (den : Nat) (flag : Bool) : Conv :=
  let w := if isInt c then convInt8 rnd v else convF (elemFmt c) rnd v den
  let nf := !isFin x || resNonfin c w
  ⟨w, resZero c w && !nf, (isFin x && outside c v den) || flag, nf, if isFin x then absV x else zeroV⟩

/-- An element of a block or line whose scale or base is 0xFF (03 R96, R97, R111). -/
def nanElem (x : FVal) (flag : Bool) : Conv :=
  ⟨0, false, flag, true, if isFin x then absV x else zeroV⟩

/-- The largest magnitude of a list of finite values. -/
def maxMag (xs : List FVal) : FVal :=
  xs.foldl (fun a x => if ltV a (absV x) then absV x else a) zeroV

/-- floor(log2 a) of a positive finite value. -/
def floorLog2 (a : FVal) : Int :=
  match a with
  | .fin _ m e => log2Rat m 1 + e
  | _ => 0

/-- emax of 03 R96. -/
def mxEmax (c : Nat) : Int :=
  match c with
  | 4 => 8 | 5 => 15 | 6 => 4 | _ => 2

/-- The rounding of element i: its draw, when the operation draws. -/
def rndAt (draws : Option (List Nat)) (i : Nat) : Rnd :=
  match draws with
  | none => .nearest
  | some ds => .stoch (ds.getD i 0)

/-- Convert one MX block (03 R96): the scale byte and the elements. `k` is the index of the block's
first element among the draws. -/
def convMx (c : Nat) (draws : Option (List Nat)) (k : Nat) (xs : List (FVal × Bool)) : Nat × List Conv :=
  if xs.all (fun x => isFin x.1) then
    let a := maxMag (xs.map (·.1))
    let s : Int := if isZero a then -127 else max (-127) (min 127 (floorLog2 a - mxEmax c))
    ((s + 127).toNat,
      xs.zipIdx.map (fun (x, i) => convElem c (rndAt draws (k + i)) x.1 (scaleV x.1 (-s)) 1 x.2))
  else (0xFF, xs.map (fun x => nanElem x.1 x.2))

/-- The smallest base in 0..254 with 6 × 2^(base − 127) ≥ a, searched upward (03 R97). -/
def hxBaseFrom (a : FVal) : Nat → Nat → Nat
  | 0, b => b
  | n + 1, b => if ltV (.fin false 6 ((b : Int) - 127)) a then hxBaseFrom a n (b + 1) else b

/-- The base of a line with largest magnitude a. -/
def hxBase (a : FVal) : Nat := hxBaseFrom a 254 0

/-- The largest offset k in 0..15 with ab ≤ 6 × 2^(base − 127) × shat(k) (03 R97). -/
def hxOffset (base : Nat) (ab : FVal) : Nat :=
  (List.range 16).foldl
    (fun best k => if ltV (mulV (.fin false 6 ((base : Int) - 127)) (shat k)) ab then best else k) 0

/-- x ÷ (2^(base − 127) × shat(k)) as a value and a denominator. -/
def hxQuot (base k : Nat) (x : FVal) : FVal × Nat :=
  if k % 2 = 0 then (scaleV x (127 - (base : Int) + (k / 2 : Nat)), 1)
  else (scaleV x (127 - (base : Int) + (7 + (k + 1) / 2 : Nat)), 181)

/-- Convert one HX4 line of blocks of 16 (03 R97): base, offsets, elements. -/
def convHx (draws : Option (List Nat)) (xs : List (FVal × Bool)) : Nat × List Nat × List Conv :=
  let nb := xs.length / 16
  if xs.all (fun x => isFin x.1) then
    let a := maxMag (xs.map (·.1))
    if isZero a then
      (0, List.replicate nb 0,
        xs.map (fun x => convElem 9 .nearest x.1 x.1 1 x.2))
    else
      let base := hxBase a
      let ks := (List.range nb).map (fun b => hxOffset base (maxMag (((xs.drop (16 * b)).take 16).map (·.1))))
      (base, ks,
        xs.zipIdx.map (fun (x, i) =>
          let (v, den) := hxQuot base (ks.getD (i / 16) 0) x.1
          convElem 9 (rndAt draws i) x.1 v den x.2))
  else (0xFF, List.replicate nb 0, xs.map (fun x => nanElem x.1 x.2))

/-- The packed bits of a list of converted elements (03 R80). -/
def packConv (c : Nat) (es : List Conv) : Nat := packElems (elemBits c) (es.map (·.bits))

/-- Convert a row to a block-scaled format: elements and the row's scale word (03 R84, Table FMT-3). -/
def convRow (c : Nat) (draws : Option (List Nat)) (xs : List (FVal × Bool)) : List Conv × Nat :=
  if isHx c then
    let (base, ks, es) := convHx draws xs
    (es, base + 256 * packElems 4 ks)
  else
    let (s0, e0) := convMx c draws 0 (xs.take 32)
    if xs.length ≤ 32 then (e0, s0)
    else
      let (s1, e1) := convMx c draws 32 (xs.drop 32)
      (e0 ++ e1, s0 + 256 * s1)

end Sys2Proof.Machine
end

