-- ==== Sys2Proof/Machine/Flags.lean ====
section
/-! DEFINITION. Every counter and flag computation: the conversion counters (03 R110-R112), the
saturating counters of 32 bits, and the sticky bits of a word. -/

namespace Sys2Proof.Machine

/-- Raise AMAX to a magnitude (03 R111): exact order, so no NaN arises; a magnitude that FP32 does not hold is
rounded to nearest even (log 91). -/
def raiseAmax (a : W32) (m : FVal) : W32 := if ltV (ofF32 a) m then toF32 m else a

/-- Add one converted element to a counter set (03 R111, R112). -/
def csetAdd (s : CSet) (c : Conv) : CSet :=
  { conv := satAdd 32 s.conv 1
    zero := satAdd 32 s.zero (if c.zero then 1 else 0)
    sat := satAdd 32 s.sat (if c.sat then 1 else 0)
    nonfin := satAdd 32 s.nonfin (if c.nonfin then 1 else 0)
    amax := raiseAmax s.amax c.mag }

/-- Add a list of converted elements. -/
def csetAddAll (s : CSet) (cs : List Conv) : CSet := cs.foldl csetAdd s

/-- Set bit i of a word. -/
def setBit64 (w : W64) (i : Nat) : W64 := w ||| (1#64 <<< i)

/-- A write to a W1C word: bits written 1 clear (00 Table SCOPE-5). -/
def w1c (w v : W64) : W64 := w &&& ~~~v

/-- Set a sticky bit of a number. -/
def setBitN (w i : Nat) : Nat := w ||| 2 ^ i

/-- Clear the bits of `m` in `w`. -/
def clearBitsN (w m : Nat) : Nat := w - (w &&& m)

end Sys2Proof.Machine
end

