-- ==== Sys2Proof/Machine/Crypto.lean ====
section
/-! DEFINITION. The hash functions of FIPS 180-4 (00 Table SCOPE-2 names the standard; PRESUMED from
it, log 75), CRC-32C (10 R318) and CRC-16/CCITT-FALSE (14 R410). SHA-256 and SHA-512 are one algorithm
over words of `w` = 32 or 64 bits; its constants are computed as the standard defines them. -/

namespace Sys2Proof.Machine

/-- The big-endian bytes of a number. -/
def beBytes (n v : Nat) : List Byte := (leBytes n v).reverse

/-- The number a byte string spells, first byte most significant. -/
def beVal (bs : List Byte) : Nat := leVal bs.reverse

/-- The primes below `n`, rising; a divisor is looked for below 21, which serves up to 440. -/
def primesBelow (n : Nat) : List Nat :=
  (List.range n).filter (fun p => decide (2 ≤ p) && (List.range 21).all (fun d => decide (d < 2 ∨ p ≤ d) || p % d != 0))

/-- The floor of the `k`-th root of `n`, from a lower bound `r`, by `b` binary digits. -/
def rootFloor (k n : Nat) : Nat → Nat → Nat
  | 0, r => r
  | b + 1, r => rootFloor k n b (if (r + 2 ^ b) ^ k ≤ n then r + 2 ^ b else r)

/-- The first `w` bits of the fraction of the `k`-th root of `p`. -/
def rootFrac (w k p : Nat) : BitVec w := BitVec.ofNat w (rootFloor k (p * 2 ^ (k * w)) (w + 5) 0)

/-- What distinguishes the two hash functions: the rounds, and the distances by which the four mixing
functions rotate (the third of a schedule function is a shift). -/
structure ShaAlg where
  rounds : Nat
  stateA : List Nat
  stateE : List Nat
  older  : List Nat × Nat
  newer  : List Nat × Nat

/-- SHA-256. -/
def shaAlg256 : ShaAlg := ⟨64, [2, 13, 22], [6, 11, 25], ([7, 18], 3), ([17, 19], 10)⟩

/-- SHA-512. -/
def shaAlg512 : ShaAlg := ⟨80, [28, 34, 39], [14, 18, 41], ([1, 8], 7), ([19, 61], 6)⟩

/-- A word rotated right by several distances, combined. -/
def spins {w : Nat} (x : BitVec w) (rs : List Nat) : BitVec w := (rs.map x.rotateRight).foldl (· ^^^ ·) 0

/-- A function of the message schedule. -/
def spinsShift {w : Nat} (x : BitVec w) (r : List Nat × Nat) : BitVec w := spins x r.1 ^^^ (x >>> r.2)

/-- The next word of the message schedule, from the last sixteen, oldest first. -/
def ShaAlg.grow (g : ShaAlg) {w : Nat} (ws : List (BitVec w)) : BitVec w :=
  ws.headD 0 + spinsShift (ws.getD 1 0) g.older + ws.getD 9 0 + spinsShift (ws.getD 14 0) g.newer

/-- One round: eight state words, with the sum of the round's constant and its schedule word. -/
def ShaAlg.turn (g : ShaAlg) {w : Nat} (v : List (BitVec w)) (x : BitVec w) : List (BitVec w) :=
  match v with
  | [a, b, c, d, e, f, g', h] =>
    let add := h + spins e g.stateE + (g' ^^^ (e &&& (f ^^^ g'))) + x
    [add + spins a g.stateA + ((a &&& (b ||| c)) ||| (b &&& c)), a, b, c, d + add, e, f, g']
  | v => v

/-- The rounds of one block, over the round constants: state words and the last sixteen schedule words. -/
def ShaAlg.turns (g : ShaAlg) {w : Nat} : List (BitVec w) → List (BitVec w) → List (BitVec w) → List (BitVec w)
  | [], v, _ => v
  | k :: ks, v, ws => g.turns ks (g.turn v (k + ws.headD 0)) (ws.tail ++ [g.grow ws])

/-- A byte string as `n` words. -/
def wordsBE (w : Nat) : Nat → List Byte → List (BitVec w)
  | 0, _ => []
  | n + 1, bs => BitVec.ofNat w (beVal (bs.take (w / 8))) :: wordsBE w n (bs.drop (w / 8))

/-- Fold `n` blocks of 2 × `w` bytes into the state words. -/
def ShaAlg.absorb (g : ShaAlg) {w : Nat} (ks : List (BitVec w)) : Nat → List (BitVec w) → List Byte → List (BitVec w)
  | 0, v, _ => v
  | n + 1, v, bs =>
    g.absorb ks n (List.zipWith (· + ·) v (g.turns ks v (wordsBE w 16 (bs.take (2 * w))))) (bs.drop (2 * w))

/-- A message padded to whole blocks. -/
def shaPadded (w : Nat) (m : List Byte) : List Byte :=
  let used := m.length + 1 + w / 4
  m ++ 0x80 :: zeros ((2 * w - used % (2 * w)) % (2 * w)) ++ beBytes (w / 4) (8 * m.length)

/-- The round constants of a hash function: from the cube roots of the first primes. -/
def ShaAlg.consts (g : ShaAlg) (w : Nat) : List (BitVec w) := ((primesBelow 410).take g.rounds).map (rootFrac w 3)

/-- The initial state words: from the square roots of the first eight primes. -/
def shaStart (w : Nat) : List (BitVec w) := (primesBelow 20).map (rootFrac w 2)

/-- The digest of a byte string, from the constants and the initial state words. -/
def ShaAlg.digest (g : ShaAlg) {w : Nat} (ks v : List (BitVec w)) (m : List Byte) : List Byte :=
  let p := shaPadded w m
  (g.absorb ks (p.length / (2 * w)) v p).flatMap (fun x => beBytes (w / 8) x.toNat)

def sha256Consts : List W32 := shaAlg256.consts 32
def sha512Consts : List W64 := shaAlg512.consts 64
def sha256Start : List W32 := shaStart 32
def sha512Start : List W64 := shaStart 64

/-- SHA-256 of a byte string, 32 bytes. -/
def sha256 (m : List Byte) : List Byte := shaAlg256.digest sha256Consts sha256Start m

/-- SHA-512 of a byte string, 64 bytes. -/
def sha512 (m : List Byte) : List Byte := shaAlg512.digest sha512Consts sha512Start m

/-- One bit of a reflected CRC. -/
def crcBits : Nat → Nat → Nat → Nat
  | 0, _, c => c
  | n + 1, poly, c => crcBits n poly (if c % 2 = 1 then (c / 2) ^^^ poly else c / 2)

/-- CRC-32C: reflected polynomial 0x1EDC_6F41, initial value and final XOR all ones (10 R318). -/
def crc32c (bs : List Byte) : Nat :=
  (bs.foldl (fun c b => crcBits 8 0x82F63B78 (c ^^^ b.toNat)) 0xFFFFFFFF) ^^^ 0xFFFFFFFF

/-- Bits of a CRC sent most significant first, in 16 bits. -/
def crc16Bits : Nat → Nat → Nat
  | 0, c => c
  | n + 1, c => crc16Bits n (if 0x8000 ≤ c then (2 * c % 65536) ^^^ 0x1021 else 2 * c)

/-- CRC-16/CCITT-FALSE: polynomial 0x1021, initial value 0xFFFF, no final XOR (14 R410). -/
def crc16 (bs : List Byte) : Nat := bs.foldl (fun c b => crc16Bits 8 (c ^^^ (b.toNat * 256))) 0xFFFF

end Sys2Proof.Machine
end

