-- ==== Sys2Proof/Machine/Frame.lean ====
section
/-! DEFINITION. Flits and frames as they stand on the lanes (10 R316-R318): the 16-byte header, CRC-32C, the frame header, the
code RS(544,514) and the distribution of its symbols. -/

namespace Sys2Proof.Machine

/-! ## Flits (10 Table LINK-4) -/

/-- The header of a flit without its CRC, as a number of 128 bits. -/
def flitHeader (f : Flit) : Nat :=
  f.type % 2 ^ 8 * 2 ^ 120 + f.vc % 2 ^ 3 * 2 ^ 117 + f.seq % 2 ^ 12 * 2 ^ 105 + f.ack % 2 ^ 12 * 2 ^ 93 +
    (if f.nak then 2 ^ 92 else 0) + f.cvc % 2 ^ 3 * 2 ^ 89 + f.cfree % 2 ^ 12 * 2 ^ 77 + f.gen % 2 ^ 8 * 2 ^ 69 +
    f.hops % 2 ^ 5 * 2 ^ 64 + f.ring % 2 * 2 ^ 63 + f.kind % 2 * 2 ^ 62 + f.round % 2 ^ 5 * 2 ^ 57 + f.origin % 2 ^ 5 * 2 ^ 52

/-- The CRC of a flit: over header bits 127 to 32 and the payload, in byte order (R318). -/
def flitCrc (f : Flit) : Nat := crc32c ((leBytes 16 (flitHeader f)).drop 4 ++ f.payload)

/-- The 256 bytes of a flit. -/
def flitBytes (f : Flit) : List Byte := leBytes 16 (flitHeader f + flitCrc f) ++ (f.payload ++ zeros 240).take 240

/-! ## Frames (10 R317) -/

/-- The 80-bit frame header: FSYNC, the frame number and the mask of active lanes. -/
def frameHeader (number mask : Nat) : Nat := 0xA53C96 * 2 ^ 56 + number % 256 * 2 ^ 48 + mask % 16 * 2 ^ 44

/-- The message of a frame: its header and its ten flits, stored little-endian (00 R13). -/
def frameMessage (number mask : Nat) (fs : List Flit) : List Byte := leBytes 10 (frameHeader number mask) ++ fs.flatMap flitBytes

/-! ## RS(544,514) over GF(2^10) (10 R316, which refers to IEEE 802.3 Clause 91; PRESUMED from it, log 105) -/

/-- A field element times the generator of the field, whose polynomial is x^10 + x^3 + 1. -/
def gfTwice (a : Nat) : Nat := if a < 512 then 2 * a else (2 * a) ^^^ 0x409

/-- The product of two field elements, by the `n` low digits of `b`. -/
def gfMul (a : Nat) : Nat → Nat → Nat
  | 0, _ => 0
  | n + 1, b => (if b % 2 = 1 then a else 0) ^^^ gfTwice (gfMul a n (b / 2))

/-- A polynomial, highest coefficient first, times x + r. -/
def gfTimesRoot (p : List Nat) (r : Nat) : List Nat := List.zipWith (· ^^^ ·) (p ++ [0]) (0 :: p.map (fun c => gfMul c 10 r))

/-- The first `n` powers of the generator from `a` on. -/
def gfPowers : Nat → Nat → List Nat
  | 0, _ => []
  | n + 1, a => a :: gfPowers n (gfTwice a)

/-- The generator polynomial of the code, whose roots are the first 30 powers, without its leading 1. -/
def rsGenerator : List Nat := ((gfPowers 30 1).foldl gfTimesRoot [1]).tail

/-- The 30 check symbols of a message, first symbol first: the remainder of its division by `g`. -/
def rsCheck (g msg : List Nat) : List Nat :=
  msg.foldl (fun reg m => let k := m ^^^ reg.headD 0; List.zipWith (fun r c => r ^^^ gfMul c 10 k) (reg.tail ++ [0]) g) (List.replicate 30 0)

/-- The 10-bit symbols of a frame: four codewords of 514 message symbols and their check symbols. -/
def frameSymbols (msg : List Byte) : List Nat :=
  let v := leVal msg
  (List.range 4).flatMap (fun w =>
    let m := (List.range 514).map (fun i => v / 2 ^ (10 * (514 * w + i)) % 1024)
    m ++ rsCheck rsGenerator m)

/-! ## Lanes (10 Table LINK-2) -/

/-- The active lanes of a mask, rising. -/
def activeLanes (mask : Nat) : List Nat := (List.range 4).filter (fun i => mask.testBit i)

/-- The symbols that one of `n` active lanes carries: rotation, from the lowest active lane. -/
def laneSymbols (n k : Nat) (ss : List Nat) : List Nat := (ss.zipIdx.filter (fun x => decide (x.2 % n = k))).map (·.1)

/-- PAM4 with Gray coding as in IEEE 802.3: the level of a pair of bits, whose low bit is the first on the lane (log 105). -/
def grayLevel (b : Nat) : Nat := match b with | 0 => 0 | 1 => 3 | 2 => 1 | _ => 2

/-- The levels of a symbol, low bits first. -/
def symbolLevels (s : Nat) : List Nat := (List.range 5).map (fun i => grayLevel (s / 4 ^ i % 4))

/-- 1/(1+D) precoding of levels after the level `prev`. -/
def precode : Nat → List Nat → List Nat
  | _, [] => []
  | prev, x :: xs => (x + 4 - prev % 4) % 4 :: precode ((x + 4 - prev % 4) % 4) xs

end Sys2Proof.Machine
end

