-- ==== Sys2Proof/Machine/State.lean ====
section
/-! DEFINITION. The state of the module: plain data, holding every register, queue, counter, mode
and pin the spec gives it, and the queue of waiting commands. -/

namespace Sys2Proof.Machine

/-! ## Memories -/

/-- A byte-addressed memory: the bytes written since its contents were last lost, addresses rising,
and a number that names the loss (0: never lost). -/
structure Memory where
  cells : List Host.Cell := []
  epoch : Nat := 0
  deriving DecidableEq, Repr

/-! ## Power and thermal (13, 16) -/

/-- POWER_STATE (13 Table PWR-5). -/
inductive PwState where
  | standby | starting | on | stopping | tripped | cycling
  deriving DecidableEq, Repr

/-- A region's shutter (13 Table PWR-6 STATE). -/
inductive Shutter where
  | opened | empty | tripped | regulator
  deriving DecidableEq, Repr

/-- The power side of one physical region (13 R384-R395): set point in mV, thermal cap in µV, what
set the set point (0 REGION_VDD, 1 power loop, 2 thermal loop), shutter, regulator fault, sensor in
1/16 °C, and since when its thermal cap has been held at 0.55 V. -/
structure RegionPw where
  vset    : Nat := 0
  vth     : Nat := 0
  cap     : Nat := 0
  shutter : Shutter := .empty
  temp    : Int := 0
  floorAt : Option Nat := none
  deriving DecidableEq, Repr

/-- Power state of the module: standby present, Helm booted, device time, POWER_STATE, the power-up
stage in progress and when it began (16 R476), the shutdown step in progress and when the shutdown began, the PWR_PERMIT pin and
when it last changed, a qualifying edge after a trip, a power-up failure pending, PWR_PERMIT asserted
again during a shutdown, when the switch opened for CYCLE_OFF_TIME, input switch, rails and stacks up, a
cause latched without the Helm, THERM_TRIP#, the last sensor readings, the power cap in µV and since
when it has been held at 0.55 V. `hot` holds the
alarm conditions of the last sample (13 R396), by bit of PT_ALARMS. -/
structure Power where
  vsb        : Bool := false
  helmUp     : Bool := false
  time       : W64 := 0
  state      : PwState := .standby
  stage      : Nat := 0
  stageAt    : Nat := 0
  stopStep   : Nat := 0
  stopAt     : Nat := 0
  permit     : Bool := false
  permitAt   : Nat := 0
  armed      : Bool := false
  failPend   : Bool := false
  again      : Bool := false
  cycleAt    : Nat := 0
  inputOn    : Bool := false
  railsUp    : Bool := false
  stacksUp   : Bool := false
  latch      : Option TripCause := none
  thermTrip  : Bool := false
  vin        : W32 := 0
  standbyV   : W32 := 0
  current    : W32 := 0
  power      : W32 := 0
  regions    : Tab RegionPw := []
  stackT     : Tab Int := []
  stackMax   : Tab Int := []
  helmT      : Int := 0
  vpwr       : Nat := 0
  vpwrFloor  : Option Nat := none
  hot        : Nat := 0
  deriving DecidableEq, Repr

/-! ## Host interface (11) -/

/-- A queue pair (11 R341-R348). -/
structure Queue where
  sqBase : W64 := 0
  cqBase : W64 := 0
  irq    : Bool := false
  enable : Bool := false
  err    : Nat := 0
  sqHead : Nat := 0
  sqTail : Nat := 0
  cqHead : Nat := 0
  cqTail : Nat := 0
  phase  : Bool := true
  deriving DecidableEq, Repr

/-- An accepted command (11 R345-R359). `jstate` is the STATE of its journal entry; `ended` says that
its outcome (code, detail, result) is fixed and waits to be journalled and posted; `post` that its
queue still posts its completion (R340, R344); `acted` that an ABORT has done its work and waits for a commit (R234); `stopAt` and `stopBy` are the stop point asked of a RUN that has not begun its work (R354); `after` the DICT_SET of a reset that
ends it, which completes first (15 R451; 0: none). -/
structure Cmd where
  seq     : Nat := 0
  queue   : Nat := 0
  entry   : List Byte := []
  epoch   : Nat := 0
  jstate  : Nat := 1
  ended   : Bool := false
  code    : Nat := 0
  detail  : Nat := 0
  result  : Nat := 0
  replays : Nat := 0
  wpt     : Nat := 0
  steps   : Nat := 0
  context : Nat := 0
  tAccept : Nat := 0
  post    : Bool := true
  acted   : Bool := false
  stopAt  : Option Nat := none
  stopBy  : Nat := 0
  after   : Nat := 0
  deriving DecidableEq, Repr

/-- A write an MSI-X vector made: vector, address, data (11 R357). -/
structure Msi where
  vector : Nat
  addr   : Nat
  data   : Nat
  deriving DecidableEq, Repr

/-- Who has sent an access that waits at a stack's door: the Helm, the host, or a unit of a domain with a door of its own. -/
inductive Sender where
  | helm | host
  | unit (k : DomKind) (i : Nat)
  deriving DecidableEq, Repr

/-- An access that waits at a stack's door (15 R431): its sender, device address, length, the bytes of a write. -/
structure Held where
  by'  : Sender
  addr : Nat
  len  : Nat
  data : Option (List Byte)
  deriving DecidableEq, Repr

/-- The host interface. `reply` is what the last host read returned: none for Unsupported Request; `held` are accesses that wait
at a stack's door, oldest first. -/
structure HostIf where
  intCause  : W64 := 0
  intEnable : W64 := 0
  winBase   : W64 := 0
  winCode   : Nat := 0
  winAddr   : Nat := 0
  bar2Size  : Nat := 0x400000000
  jnext     : Nat := 1
  ready     : Bool := false
  jheld     : Bool := false
  queues    : Tab Queue := []
  msix      : Tab Byte := []
  pba       : W64 := 0
  sent      : List Msi := []
  cmds      : List Cmd := []
  reply     : Option (List Byte) := none
  pcieUp    : Bool := false
  held      : List Held := []
  deriving DecidableEq, Repr

/-! ## Object dictionary (12) -/

/-- The dictionary's own state: the register objects keyed 256 × index + sub, the operator keys
and their counters, the operator's repair entries and whether they await a die reset, the last FW_UPDATE
value, the status of the last access, the MCTP endpoint ID, the last MCTP response with those that one command gave before it, and the request whose
answer awaits the erasure of the flash ring with its source (R376, 14 R417), and those that wait behind it; the lengths of the
values last written to WO BLOBs (R364, R365); dumps of counters asked for while main power is off (object, address; R377). -/
structure Dict where
  objs      : Tab Nat := []
  opkeys    : Tab (List Byte) := []
  opctrs    : Tab Nat := []
  overrides : List RepairEntry := []
  ovPending : Bool := false
  update    : List Byte := []
  status    : Nat := 0
  eid       : Nat := 0
  response  : List Byte := []
  earlier   : List (List Byte) := []
  serving   : Option (Nat × List Byte) := none
  waiting   : List (Nat × List Byte × Store) := []
  woLen     : Tab Nat := []
  dumps     : List (Nat × Nat) := []
  deriving DecidableEq, Repr

/-! ## Helm, firmware, identity, attestation (14) -/

/-- The Helm. A firmware bank is a byte memory; `factory` names the bank that still holds the image
written at manufacture, which the spec does not print (log 9); `active` is FW_BANK, `running` the bank
the Helm booted from; `pending` the pending-activation flag; `staged` that staging into the inactive bank has
started and no image in it has been activated since (R420); `bootAt` when the firmware in self-test was
started; `writes` the write counter of the replay-protected partition (R409). -/
structure Helm where
  recovery   : Bool := false
  bankA      : Memory := {}
  bankB      : Memory := {}
  factory    : Option Nat := some 0
  staged     : Bool := false
  active     : Nat := 0
  running    : Nat := 0
  pending    : Bool := false
  rollback   : Nat := 0
  selfTest   : Bool := false
  bootAt     : Nat := 0
  pufOk      : Bool := false
  writes     : Nat := 0
  meas       : Tab (List Byte) := []
  mcount     : Tab Nat := []
  attestSt   : Nat := 0
  captured   : List Byte := []
  report     : List Byte := []
  deriving DecidableEq, Repr

/-! ## Logbook (14) -/

/-- A Logbook record before it has a SEQ (14 Table HELM-3). -/
structure LogRec where
  time : Nat
  code : Nat
  sev  : Byte
  src  : Nat
  data : List Byte
  deriving DecidableEq, Repr

/-- The Logbook: source queues, next SEQ, first-fill area, tail ring and flash ring as (SEQ, record)
oldest first with SEQ not yet reduced modulo 2^32, the SEQ below which every record has been spilled or
lost, records lost, and a clearing that waits for the flash ring: SEQ of LOG_CLEARED, and the DICT_SET
to complete (0 for an MCTP request); the sources served in the present round (R415). -/
structure Logbook where
  queues   : Tab (List LogRec) := []
  next     : Nat := 0
  first    : List (Nat × LogRec) := []
  tail     : List (Nat × LogRec) := []
  flash    : List (Nat × LogRec) := []
  spilled  : Nat := 0
  lost     : Nat := 0
  clearing : Option (Nat × Nat) := none
  round    : List Nat := []
  deriving DecidableEq, Repr

/-! ## Memory tiers (06) -/

/-- A region store line (06 R177): tag space (0 device memory, 1 + s host segment s), line number
(address div 128), valid and dirty flags of its two halves, data, and the moment of its last use. -/
structure Line where
  space   : Nat
  line    : Nat
  valid0  : Bool
  valid1  : Bool
  dirty0  : Bool
  dirty1  : Bool
  data    : List Byte
  used    : Nat
  deriving DecidableEq, Repr

/-- A line fill in flight (06 R178). -/
structure Fill where
  space   : Nat
  line    : Nat
  deriving DecidableEq, Repr

/-- A region's memory-tier state (06): store lines keyed 16 × set + way, fills in flight, tier
counters (Table TIER-8), contents of the segments lent to it, its readiness for the waypoint, and
the scratchpad errors corrected in its tiles (02 R68); when it last made progress (15 R437); replies to
requests of an earlier generation that are still on their way (15 R432). -/
structure Region where
  lines : Tab Line := []
  fills : List Fill := []
  clock : Nat := 0
  tw    : Tab Nat := []
  lent0 : Memory := {}
  lent1 : Memory := {}
  ready : Bool := false
  spadCorr : Nat := 0
  since : Nat := 0
  stale : Nat := 0
  deriving DecidableEq, Repr

/-- A tier stream's state (06 R196-R200): port accesses of each member since pass start (by tile of the
region), chunks its destination has accepted, next chunk to fetch, generation, whether it made an access in the interval, and
whether an ACCUM stream has asked for the line of its next chunk's old values. -/
structure TStream where
  taken    : Tab Nat := []
  given    : Nat := 0
  fetched  : Nat := 0
  gen      : Nat := 0
  accessed : Bool := false
  asked    : Bool := false
  deriving DecidableEq, Repr

/-! ## Training state (07) -/

/-- Group constants of a commit (07 R226). -/
structure GConst where
  b1pow : W32 := 0
  b2pow : W32 := 0
  c1    : W32 := 0
  c2    : W32 := 0
  lr    : W32 := 0
  gs    : W32 := 0
  omb1  : W32 := 0
  omb2  : W32 := 0
  deriving DecidableEq, Repr

/-- An update unit (07 R219-R231): its running record (K, HEAD, TAIL and the powers of each group) as last
saved or restored; of a commit in progress the element at hand, the pool counters, the group constants,
page frames filled, the HOST block at hand computed into its frame and written back, a wait for paging
charged; its readiness; buckets staged, and whether staging
accepts data (R224). -/
structure UpdUnit where
  k       : Nat := 0
  head    : Nat := 0
  tail    : Nat := 0
  b1pow   : Tab W32 := []
  b2pow   : Tab W32 := []
  active  : Bool := false
  pos     : Nat := 0
  whead   : Nat := 0
  wtail   : Nat := 0
  consts  : List GConst := []
  paged   : Nat := 0
  filled  : Bool := false
  backed  : Bool := false
  waited  : Bool := false
  ready   : Bool := false
  staged  : List (Nat × Nat) := []
  accept  : Bool := true
  deriving DecidableEq, Repr

/-- Training state of the module: its units, whether the commit of the training step has begun, whether a parameter of it
has been non-finite (07 R241), and whether its commit has been finished before the step end (R234: 1 as a commit, 2 as a
skip). -/
structure Update where
  units    : Tab UpdUnit := []
  started  : Bool := false
  nonfin   : Bool := false
  finished : Nat := 0
  deriving DecidableEq, Repr

/-! ## Reduction and barriers (09) -/

/-- The machine barrier for a waypoint (09 R308): the module has reported, axis in progress, combined
non-finite bit and that of flits for the waypoint after, flits heard (8 × waypoint mod 2 + 2 × axis, + 1
for those travelling toward −), complete, when the module reported, and its timeout in µs; what has been heard for a chart that is not
loaded yet, oldest first (waypoint, axis, direction, non-finite bit). -/
structure Barrier where
  reported : Bool := false
  axis     : Nat := 0
  nf       : Bool := false
  nfNext   : Bool := false
  heard    : Tab Nat := []
  complete : Bool := false
  since    : Nat := 0
  limit    : Nat := 0
  kept     : List (Nat × Nat × Nat × Bool) := []
  deriving DecidableEq, Repr

/-- The complete sums over the group's first `axis` axes that a module holds for a chunk of a bucket
half (09 R303, R304). -/
structure SumPart where
  group  : Nat
  bucket : Nat
  half   : Nat
  chunk  : Nat
  axis   : Nat
  sums   : List W32
  deriving DecidableEq, Repr

/-- The exponent agreement of a group (09 R294): axis in progress, and how often the flit of each first bucket has been received on it. -/
structure Agreeing where
  group : Nat
  axis  : Nat
  heard : Tab Nat
  deriving DecidableEq, Repr

/-- Reduction state of a commit step (09): barrier, agreed flag and whether its record is written, buckets
scanned and whether one was not finite, agreements in progress and done, sums held, chains done (axis,
group, bucket, 256 × half + chunk) and those begun here, buckets whose gather began, weight chunks received (group, bucket,
128 × half + chunk), whether phase 1 has run. -/
structure Redn where
  barrier  : Barrier := {}
  flag     : Bool := false
  flagSet  : Bool := false
  scanned  : List (Nat × Nat) := []
  scanBad  : Bool := false
  agreeing : List Agreeing := []
  agreed   : List Nat := []
  sums     : List SumPart := []
  chains   : List (Nat × Nat × Nat × Nat) := []
  begun    : List (Nat × Nat × Nat × Nat) := []
  gathered : List (Nat × Nat) := []
  weights  : List (Nat × Nat × Nat) := []
  ran      : Bool := false
  deriving DecidableEq, Repr

/-! ## Links (10) -/

/-- A port's state (10 Table LINK-7). -/
inductive PortSt where
  | down | detect | equalise | align | fecLock | identify | active | retrain
  deriving DecidableEq, Repr

/-- A tap of a port (08 R254-R277): received tokens that wait to enter the tile, each with whether it
is the last of its flit; tokens sent and received in the interval, in the interval before it, in the pass, and in the pass up to
the last waypoint; tokens received since the module reported ready for the waypoint, which belong to the interval after it; start record and
count record of the partner. -/
structure Tap where
  queue    : List (Token × Bool) := []
  sent     : Nat := 0
  recvd    : Nat := 0
  lastSent : Nat := 0
  lastRecvd : Nat := 0
  passSent : Nat := 0
  passRecv : Nat := 0
  baseSent : Nat := 0
  baseRecv : Nat := 0
  early    : Nat := 0
  startRec : Option (Nat × Nat × Nat × Nat) := none
  pcount   : Option (Nat × Nat × Nat) := none
  deriving DecidableEq, Repr

/-- A link port and its engine (10): state, since when, lane masks, lane order and inversion, earliest
next attempt; partner's IDENT; sequence numbers, retry buffer and what of it is to be sent again; flits
waiting to be sent and received flits held, by virtual channel; credits, receive slots freed, freed
count last reported, partner's last CFREE; NAK to send, SEQ last NAKed, NAKs in succession, times of
recent NAKs; last RETRAIN and whether it came within 1 s of the one before; partner's tag, exchange
open, GEN to send with its ECHO; rotations of the transmitter; the flit last put on the lanes; the number, the lane mask and the
flits so far of the frame being sent (R317), the level last sent on each lane (R316); flits that begin a chain and wait for two credits (09 R305), by virtual channel; the
SEQ of a flit whose residues differed (09 R300); the lane rate and the precoded lanes of its training; BULK copies (command,
flits not acknowledged, bytes confirmed; command 0: flits of a copy that has ended); taps. -/
structure Port where
  st        : PortSt := .down
  since     : Nat := 0
  txMask    : Nat := 0
  rxMask    : Nat := 0
  reversed  : Bool := false
  inverted  : Nat := 0
  retryAt   : Option Nat := none
  ident     : List Byte := []
  txSeq     : Nat := 0
  rxSeq     : Nat := 0
  retry     : List Flit := []
  resend    : List Flit := []
  sendq     : Tab (List Flit) := []
  rxbuf     : Tab (List Flit) := []
  credits   : Tab Nat := []
  freed     : Tab Nat := []
  reported  : Tab Nat := []
  seenFree  : Tab Nat := []
  nakPend   : Bool := false
  nakFor    : Option Nat := none
  nakRun    : Nat := 0
  nakTimes  : List Nat := []
  retrainAt : Option Nat := none
  again     : Bool := false
  partnerGen : Nat := 0
  genOpen   : Bool := false
  genSend   : Option Bool := none
  rotation  : Nat := 1
  slot16    : Nat := 0
  lastCvc   : Nat := 0
  lastTx    : Option Flit := none
  frameNo   : Nat := 0
  frameMask : Nat := 0
  frame     : List Flit := []
  levels    : Tab Nat := []
  startq    : Tab (List Flit) := []
  resFor    : Option Nat := none
  rate      : Nat := 0
  precoded  : Nat := 0
  copies    : List (Nat × Nat × Nat) := []
  taps      : Tab Tap := []
  deriving DecidableEq, Repr

/-- The links of the module: ports, torus lengths and positions in effect (R313), the reference, and a LINK_RETRAIN that waits for main
power (12 R377). -/
structure Link where
  ports    : Tab Port := []
  len      : List Nat := [1, 1, 1, 1]
  pos      : List Nat := [0, 0, 0, 0]
  refclk   : Bool := false
  retrain  : Option Nat := none
  deriving DecidableEq, Repr

/-! ## Faults and recovery (15) -/

/-- A fault record (15 Table RCV-3). -/
structure FaultRec where
  number   : Nat
  cause    : Nat
  cls      : Nat
  outcome  : Nat
  domain   : Nat
  time     : Nat
  chartId  : Nat
  wpt      : Nat
  tstep    : Nat
  step     : Nat
  entry    : Nat
  die      : Nat
  row      : Nat
  col      : Nat
  pcol     : Nat
  trow     : Nat
  tcol     : Nat
  unit     : Nat
  index    : Nat
  gen      : Nat
  replays  : Nat
  incident : Nat
  detail   : List Byte
  deriving DecidableEq, Repr

/-- A reset the Helm has issued and whose completion it awaits (15 R430): domain, number, when. -/
structure PendReset where
  kind : DomKind
  ix   : Nat
  at'  : Nat
  deriving DecidableEq, Repr

/-- Where the handling of a fault stands (15 R439): nothing in hand; resets issued for a replay;
resets issued, no replay (R445); module reset with replay (R450). -/
inductive RecPhase where
  | idle | replaying | resetOnly
  deriving DecidableEq, Repr

/-- Faults and recovery (15): generation tags, closed doors, resets issued, the newest 256 fault records,
the first record of the open incident, the phase, the resume waypoint, replays from one waypoint and
which, shifts to apply (presented region, 1 for a trip's), a replay held for the links, class R
stamps by region, escalation stamps, a cause that takes the module out of service when its event
completes, regions whose controllers are being queried, a power cycle issued, the DICT_SET that asked for it (0: none) and whether the power-up
in progress ends it, the stored repair map
and BIST runs, the rows' mappings, the effective map, the trace ring and the trace records shed (R457), engine domains cleared
by a die or module reset whose doors are open again, how long a replay held for the links waits, in ms (R444, R463), trace
records waiting at their sources (Table RCV-5), and REPLAY_DONE to record. -/
structure Recovery where
  tags      : Tab Nat := []
  closed    : List (DomKind × Nat) := []
  resets    : List PendReset := []
  faults    : List FaultRec := []
  incident  : Nat := 0
  phase     : RecPhase := .idle
  resumeWpt : W64 := BitVec.allOnes 64
  replays   : Nat := 0
  replayOf  : W64 := BitVec.allOnes 64
  shifts    : List (Nat × Nat) := []
  linkHold  : Bool := false
  linkSince : Nat := 0
  rStamps   : List (Nat × Nat) := []
  stamps    : List Nat := []
  oosPend   : Option Nat := none
  queries   : List (Nat × Bool) := []
  cycleDue  : Bool := false
  cycleBy   : Nat := 0
  cycleUp   : Bool := false
  map       : List RepairEntry := []
  bistRuns  : Nat := 0
  rowShift  : Tab Nat := []
  tripShift : Tab Nat := []
  effective : List RepairEntry := []
  trace     : List (List Byte) := []
  shed      : Nat := 0
  cleared   : List (DomKind × Nat) := []
  linkLimit : Nat := 0
  traceq    : Tab (List (List Byte)) := []
  doneDue   : Bool := false
  deriving DecidableEq, Repr

/-! ## Runs and waypoints (05, 11, 15) -/

/-- A RUN in progress (11 R352): `since` is when it began to wait for start records, `limit` how long it does in ms (08 R284),
`stopDue` that it stops at the last completed waypoint once a replay has resumed (07 R234). -/
structure Run where
  seq     : Nat := 0
  steps   : Nat := 1
  done    : Nat := 0
  waiting : Bool := false
  since   : Nat := 0
  limit   : Nat := 0
  stopAt  : Option Nat := none
  stopBy  : Nat := 0
  stopDue : Bool := false
  deriving DecidableEq, Repr

/-- Waypoints of the loaded chart (05 R153, 15 R438): the waypoint register, waypoints completed
since CHART_LOAD, training steps completed since CHART_LOAD, whether the last one is released, and the regions
that have added their counter sets for the next one (03 R113, R115). -/
structure Waypoints where
  reg      : W64 := BitVec.allOnes 64
  tallied  : List Nat := []
  count    : Nat := 0
  tsteps   : Nat := 0
  released : Bool := true
  deriving DecidableEq, Repr

/-! ## The whole state -/

/-- The state of the module. `mem` is device memory outside the journal reservation, `jmem` the
reservation (11 R358), `hostMem` host memory as the module reaches it; `transom` holds the tokens in Transom
crossings of empty regions (13 R393), keyed 4 × the tile they enter at + the side they move toward. -/
structure State where
  pending   : List Instr := []
  freeCount : Nat := 0
  variant   : Nat := 8
  serial    : W64 := 0
  pw        : Power := {}
  hi        : HostIf := {}
  dict      : Dict := {}
  helm      : Helm := {}
  log       : Logbook := {}
  chart     : Option Chart := none
  run       : Option Run := none
  wp        : Waypoints := {}
  tiles     : Tab Tile := []
  transom   : Tab (List Token) := []
  regions   : Tab Region := []
  streams   : Tab TStream := []
  upd       : Update := {}
  redn      : Redn := {}
  link      : Link := {}
  rcv       : Recovery := {}
  mem       : Memory := {}
  jmem      : Memory := {}
  hostMem   : Memory := {}
  deriving DecidableEq, Repr

/-- Why the module stops: never. The spec's faults (15 Table RCV-2) are state, and no command ends
in a stop of the model; the constructor only makes the type usable. Nobody raises it: safe. -/
inductive Fault where
  | neverRaised
  deriving DecidableEq, Repr

/-- Why a command has no meaning. -/
inductive Refusal where
  /-- A command whose meaning is not written: raised by its arm of `exec` alone; safe. -/
  | notModelled (mnemonic : String)
  deriving DecidableEq, Repr

/-- The module of a variant (0x08, 0x04 or 0x02 dies) before standby is applied, every register at
the default the spec gives (00 R15, 13 R399). -/
def State.resetFor (variant : Nat) : State := { variant := variant }

/-- The module right after reset: an S8 before standby is applied (DESIGN CHOICE, log 1). -/
def State.reset : State := State.resetFor 8

end Sys2Proof.Machine
end

