-- ==== Sys2Proof/Machine/Objects.lean ====
section
/-! DEFINITION. The object table of the dictionary (12 R363, R370): index, subindex, type, access,
persistence, largest length and default of every object the module presents. -/

namespace Sys2Proof.Machine

/-- The object types (12 Table DICT-1). -/
inductive OType where
  | bool | u8 | u16 | u32 | u64 | i32 | f32 | time | str | blob
  deriving DecidableEq, Repr

/-- The access classes (00 Table SCOPE-5). -/
inductive OAcc where
  | ro | rw | wo | rwa
  deriving DecidableEq, Repr

/-- A row of the object table. `max` is the largest length in bytes. -/
structure ObjRow where
  idx  : Nat
  sub  : Nat
  ty   : OType
  acc  : OAcc
  p    : Bool
  max  : Nat
  dflt : Nat
  deriving DecidableEq, Repr

/-- The type code of Table DICT-1. -/
def otCode : OType → Nat
  | .bool => 1 | .u8 => 2 | .u16 => 3 | .u32 => 4 | .u64 => 5 | .i32 => 6 | .f32 => 7 | .time => 8
  | .str => 9 | .blob => 10

/-- The size of a fixed-size type; 0 for STR and BLOB (12 R364). -/
def otSize : OType → Nat
  | .bool => 1 | .u8 => 1 | .u16 => 2 | .u32 => 4 | .u64 => 8 | .i32 => 4 | .f32 => 4 | .time => 8
  | .str => 0 | .blob => 0

/-- The type has a fixed size (BOOL to TIME). -/
def otFixed (t : OType) : Bool := decide (otSize t ≠ 0)

/-- A row of a fixed-size type. -/
def orow (idx sub : Nat) (ty : OType) (acc : OAcc) (p : Bool) (dflt : Nat) : ObjRow :=
  ⟨idx, sub, ty, acc, p, otSize ty, dflt⟩

/-- A row of a STR or BLOB object. -/
def oblob (idx sub : Nat) (ty : OType) (acc : OAcc) (p : Bool) (max : Nat) : ObjRow :=
  ⟨idx, sub, ty, acc, p, max, 0⟩

/-- Index range 0x1000 (12 Table DICT-8, 11 Table HOST-11, 14 Table HELM-9, 00 R2). The largest length of DIRECTORY itself is 8,192 bytes
(DESIGN CHOICE, log 134). -/
def objs1 (v : Nat) : List ObjRow := [
  orow 0x1000 1 .u8 .ro false v, orow 0x1000 2 .u8 .ro false 0xB1, orow 0x1000 3 .u64 .ro false 0,
  orow 0x1000 4 .u32 .ro false 0, oblob 0x1000 5 .str .ro false 255, oblob 0x1001 0 .blob .ro false 8192,
  orow 0x1002 0 .u16 .ro false 2, orow 0x1010 0 .bool .wo false 0, orow 0x1020 1 .u8 .rw true 0x2E,
  orow 0x1020 2 .u8 .rw true 3, orow 0x1020 3 .u8 .ro false 0, orow 0x1030 0 .time .ro false 0,
  orow 0x1040 0 .u32 .ro false 0, orow 0x1050 0 .f32 .ro false 0, orow 0x1100 1 .u8 .ro false 0,
  orow 0x1100 2 .u8 .ro false 0, orow 0x1101 0 .u64 .ro false 1, orow 0x1101 1 .u32 .ro true 0]

/-- POWER_LIMIT's default (12 Table DICT-8). -/
def powerLimitDflt (v : Nat) : Nat := if v = 8 then 5600 else if v = 4 then 2900 else 1500

/-- Index range 0x2000 (12 Table DICT-8, 13 Table PWR-5). -/
def objs2 (v : Nat) : List ObjRow := [
  orow 0x2000 1 .f32 .ro false 0, orow 0x2000 2 .f32 .ro false 0, orow 0x2000 3 .f32 .ro false 0,
  orow 0x2000 4 .f32 .ro false 0, orow 0x2001 0 .u32 .rw true (powerLimitDflt v),
  orow 0x2002 0 .f32 .rw true 0x3F333333, orow 0x2003 0 .u8 .ro false 0, orow 0x2010 1 .f32 .ro false 0,
  orow 0x2010 2 .f32 .rw true 0x42AA0000, orow 0x2010 3 .f32 .rw true 0x42AA0000,
  oblob 0x2011 0 .blob .ro false (192 * v), orow 0x2020 0 .bool .rw true 1, orow 0x2030 0 .bool .rw true 1,
  orow 0x2031 0 .u32 .rw true 10000, orow 0x2032 0 .u32 .rw true 2000, orow 0x2040 1 .u8 .ro false 0,
  orow 0x2040 2 .u32 .ro false 0, orow 0x2040 3 .u32 .ro false 0, orow 0x2040 4 .u32 .ro false 0,
  orow 0x2040 5 .u32 .ro false 0, orow 0x2040 6 .u32 .ro false 0, orow 0x2041 0 .u8 .wo false 0]

/-- Index range 0x3000 (06 R184, R210, R211; 12 Table DICT-8; 07 Table UPD-13). -/
def objs3 (v : Nat) : List ObjRow :=
  [orow 0x3010 0 .u64 .wo false 0, orow 0x3011 0 .bool .wo false 0, orow 0x3020 0 .u64 .ro false 0,
   orow 0x3021 0 .u32 .ro false 0] ++
  (List.range (4 * v)).flatMap (fun s =>
    [orow (0x3100 + s) 1 .f32 .ro false 0, orow (0x3100 + s) 2 .f32 .ro false 0]) ++
  [orow 0x3200 1 .u32 .ro false 0]

/-- Index range 0x4000 (12 Table DICT-8, 07 Table UPD-13, 08 Table MAP-10). -/
def objs4 : List ObjRow := [
  orow 0x4000 1 .u64 .ro false 0, orow 0x4000 2 .u8 .ro false 0, orow 0x4200 1 .i32 .ro false 0,
  orow 0x4200 2 .u32 .ro false 0, orow 0x4200 3 .u32 .ro false 0, orow 0x4202 0 .u32 .rw true 2000,
  orow 0x4203 1 .i32 .rw true 0, orow 0x4203 2 .i32 .rw true 24, orow 0x4300 1 .u64 .ro false 0,
  orow 0x4300 2 .u16 .ro false 0, orow 0x4300 3 .u8 .ro false 0, orow 0x4301 0 .u32 .rw true 10000]

/-- The objects of port p (10 Table LINK-10). -/
def objsPort (p : Nat) : List ObjRow := [
  orow (0x5020 + p) 1 .u8 .ro false 0, orow (0x5020 + p) 2 .u8 .ro false 0, orow (0x5020 + p) 3 .u64 .ro false 0,
  orow (0x5020 + p) 4 .u8 .ro false 0, orow (0x5020 + p) 5 .u64 .ro false 0, orow (0x5020 + p) 6 .u64 .ro false 0,
  orow (0x5020 + p) 7 .u64 .ro false 0, orow (0x5020 + p) 8 .u64 .ro false 0, orow (0x5020 + p) 9 .u32 .ro false 0,
  orow (0x5020 + p) 0xA .u32 .ro false 0, orow (0x5020 + p) 0xB .f32 .ro false 0]

/-- Index range 0x5000 (10 Table LINK-10, 09 Table REDN-11). -/
def objs5 (v : Nat) : List ObjRow :=
  [orow 0x5001 1 .u8 .rw true 1, orow 0x5001 2 .u8 .rw true 1, orow 0x5001 3 .u8 .rw true 1,
   orow 0x5001 4 .u8 .rw true 1, orow 0x5002 1 .u8 .rw true 0, orow 0x5002 2 .u8 .rw true 0,
   orow 0x5002 3 .u8 .rw true 0, orow 0x5002 4 .u8 .rw true 0, orow 0x5003 0 .u32 .ro false 0,
   orow 0x5004 0 .bool .ro false 0, orow 0x5010 0 .u16 .rw true 0xFFFF, orow 0x5011 0 .u8 .rw true 0] ++
  (List.range (2 * v)).flatMap objsPort ++
  [orow 0x5030 0 .u32 .rw true 64, orow 0x5031 0 .u8 .ro false 0, orow 0x5032 0 .u16 .wo false 0,
   orow 0x5100 1 .u16 .ro false 0, orow 0x5100 2 .u16 .ro false 0, orow 0x5100 3 .bool .ro false 0,
   orow 0x5101 0 .u32 .rw true 100000]

/-- Index range 0x6000 (12 Table DICT-8, 02 R56, 15 Table RCV-8). -/
def objs6 : List ObjRow := [
  orow 0x6000 0 .u8 .ro true 0, orow 0x6001 0 .bool .rwa false 0, orow 0x6002 0 .u8 .ro true 0,
  orow 0x6010 0 .u32 .ro false 0, orow 0x6011 0 .u32 .rw false 0, oblob 0x6012 0 .blob .ro false 4096,
  orow 0x6020 0 .u8 .wo false 0, orow 0x6021 0 .u8 .rw true 2, orow 0x6022 0 .u8 .rw true 8,
  orow 0x6023 0 .u32 .rw true 10000, orow 0x6024 0 .u32 .rw true 1000,
  orow 0x6030 0 .u64 .ro false 0xFFFFFFFFFFFFFFFF, orow 0x6031 0 .u64 .ro false 0, orow 0x6031 1 .u32 .ro false 0,
  oblob 0x6100 0 .blob .ro true 1048608, oblob 0x6101 0 .blob .rwa true 4096, orow 0x6230 0 .bool .rw true 1] ++ [
  orow 0x6300 0 .bool .wo false 0, orow 0x6300 1 .u8 .ro false 0, orow 0x6400 0 .u8 .ro false 0,
  orow 0x6401 1 .u32 .ro false 0, orow 0x6401 2 .u32 .ro false 0, orow 0x6401 3 .u32 .ro false 0,
  orow 0x6401 4 .u32 .ro false 0, orow 0x6402 0 .u64 .ro false 0, oblob 0x6403 0 .blob .ro false 128,
  orow 0x6404 0 .u32 .ro false 0, orow 0x6500 0 .bool .rw false 0, orow 0x6502 0 .u64 .ro false 0,
  oblob 0x6503 0 .blob .ro false 262144]

/-- Index ranges 0x7000 and 0x8000 (12 Table DICT-8, R378; 14 Table HELM-9). -/
def objs78 : List ObjRow := [
  orow 0x7000 1 .u32 .ro false 0, orow 0x7000 2 .u64 .ro false 0, orow 0x7000 3 .u32 .ro false 0,
  orow 0x7000 4 .u32 .ro false 0, orow 0x7000 5 .u32 .ro false 0, orow 0x7010 0 .u64 .wo false 0,
  orow 0x7011 0 .u32 .rw false 0, oblob 0x7012 0 .blob .ro false 4096, orow 0x7013 0 .u64 .wo false 0,
  orow 0x7020 0 .bool .rwa false 0, orow 0x8000 0 .u32 .ro true 0, orow 0x8001 0 .u8 .ro true 0,
  oblob 0x8002 0 .blob .rwa false 48, orow 0x8003 1 .u32 .rw false 0, oblob 0x8003 2 .blob .wo false 4096] ++ [
  oblob 0x8010 1 .blob .rwa true 32, orow 0x8010 2 .u64 .ro true 0, oblob 0x8011 1 .blob .rwa true 32,
  orow 0x8011 2 .u64 .ro true 0, oblob 0x8012 1 .blob .rwa true 32, orow 0x8012 2 .u64 .ro true 0,
  oblob 0x8013 1 .blob .rwa true 32, orow 0x8013 2 .u64 .ro true 0, oblob 0x8030 0 .blob .ro false 32,
  oblob 0x8031 0 .blob .wo false 32, oblob 0x8032 0 .blob .ro false 8112, oblob 0x8033 0 .blob .ro false 16280,
  orow 0x8034 0 .u8 .ro false 0, oblob 0x8035 1 .blob .ro false 32, oblob 0x8035 2 .blob .ro false 32,
  oblob 0x8035 3 .blob .ro false 32, oblob 0x8035 4 .blob .ro false 32, orow 0x8040 0 .u32 .ro false 0]

/-- Index range 0x9000 (05 R171-R173, 06 R211, 07 Table UPD-13, 08 Table MAP-10, 09 Table REDN-11,
11 Table HOST-11). -/
def objs9 : List ObjRow := [
  orow 0x9010 0 .u64 .wo false 0, orow 0x9011 0 .bool .wo false 0, orow 0x9020 1 .bool .rw true 1,
  orow 0x9020 2 .u32 .ro false 0, orow 0x9030 1 .u64 .ro false 0, orow 0x9030 2 .u64 .ro false 0,
  orow 0x9030 3 .u64 .ro false 0, orow 0x9030 4 .u64 .ro false 0, orow 0x9030 5 .u64 .ro false 0,
  orow 0x9030 6 .u64 .ro false 0, orow 0x9030 7 .u64 .ro false 0, orow 0x9030 8 .u64 .ro false 0,
  orow 0x9041 0 .u64 .ro false 0, orow 0x9041 1 .u64 .ro false 0, orow 0x9041 2 .u64 .ro false 0,
  orow 0x9041 3 .u64 .ro false 0, orow 0x9041 4 .u64 .ro false 0] ++ [
  orow 0x9050 1 .u64 .ro false 0, orow 0x9050 2 .u64 .ro false 0, orow 0x9050 3 .u64 .ro false 0,
  orow 0x9050 4 .u64 .ro false 0, orow 0x9060 1 .u64 .ro false 0, orow 0x9060 2 .u64 .ro false 0,
  orow 0x9060 3 .u64 .ro false 0, orow 0x9060 4 .u32 .ro false 0, orow 0x9060 5 .u32 .ro false 0,
  orow 0x9070 1 .u64 .ro false 0, orow 0x9070 2 .u64 .ro false 0, orow 0x9070 3 .u64 .ro false 0]

/-- The objects of a variant in ascending index and subindex (12 R370). -/
def objTable (v : Nat) : List ObjRow :=
  objs1 v ++ objs2 v ++ objs3 v ++ objs4 ++ objs5 v ++ objs6 ++ objs78 ++ objs9

/-- The row of an object, if the module presents it. -/
def objRow (v idx sub : Nat) : Option ObjRow :=
  (objTable v).find? (fun r => decide (r.idx = idx ∧ r.sub = sub))

/-- The key of an object's stored value. -/
def okey (idx sub : Nat) : Nat := 256 * idx + sub

/-- The default of an object's stored value. -/
def objDflt (v key : Nat) : Nat :=
  match objRow v (key / 256) (key % 256) with
  | some r => r.dflt
  | none => 0

/-- MAXLEN of a directory entry (12 Table DICT-2). -/
def maxLenUnits (r : ObjRow) : Nat := if otFixed r.ty then 1 else ceilDiv r.max 64

/-- The access code of Table DICT-2. -/
def accCode : OAcc → Nat
  | .ro => 0 | .rw => 1 | .wo => 2 | .rwa => 3

/-- A directory entry (12 Table DICT-2). -/
def dirEntry (r : ObjRow) : List Byte :=
  leBytes 2 r.idx ++ leBytes 1 r.sub ++ leBytes 1 (otCode r.ty) ++
    leBytes 1 (accCode r.acc + (if r.p then 4 else 0)) ++ zeros 1 ++ leBytes 2 (maxLenUnits r)

/-- DIRECTORY (12 R370). -/
def directory (v : Nat) : List Byte := (objTable v).flatMap dirEntry

end Sys2Proof.Machine
end

