-- ==== Sys2Proof/Machine/Ops.lean ====
section
/-! DEFINITION. The named operations over the state: memories, geometry of the module, accessors of
its units, dictionary values, Logbook events, interrupt causes and alarms, commands and journal. -/

namespace Sys2Proof.Machine

/-! ## Memories -/

/-- What an address that no entry lists reads as: 0 in a memory that has never lost its contents,
else a free value. -/
def Memory.blank (m : Memory) (a : Nat) : Byte := if m.epoch = 0 then 0 else Config.lostByte m.epoch a

/-- The byte at an address. -/
def Memory.read (m : Memory) (a : Nat) : Byte := tget (m.blank a) m.cells a

/-- A memory with one byte written. -/
def Memory.write (m : Memory) (a : Nat) (b : Byte) : Memory :=
  { m with cells := tset (m.blank a) m.cells a b }

/-- The `n` bytes from an address. -/
def Memory.readN (m : Memory) (a n : Nat) : List Byte := (List.range n).map (fun i => m.read (a + i))

/-- A memory with a list of bytes written from an address upward. -/
def Memory.writeN (m : Memory) : Nat → List Byte → Memory
  | _, [] => m
  | a, b :: bs => (m.write a b).writeN (a + 1) bs

/-- Addresses strictly rising from above `lo`, no entry equal to what an unlisted address reads as. -/
def Memory.wfFrom (m : Memory) : Option Nat → List Host.Cell → Bool
  | _, [] => true
  | lo, (a, b) :: t =>
    (match lo with | none => true | some l => decide (l < a)) && decide (b ≠ m.blank a) && m.wfFrom (some a) t

/-- The canonical form of a memory. -/
def Memory.wf (m : Memory) : Bool := m.wfFrom none m.cells

/-- A memory that has lost its contents; `n` names the loss. -/
def Memory.lost (n : Nat) : Memory := { cells := [], epoch := n + 1 }

/-- The next free number, and the state with it used. -/
def State.fresh (s : State) : Nat × State := (s.freeCount, { s with freeCount := s.freeCount + 1 })

/-! ## Device memory (01 R25, 11 R358) -/

/-- The first address above the variant's device memory. -/
def State.devTop (s : State) : Nat := s.variant * 4 * 2 ^ 36

/-- The journal reservation is [JOURNAL_BASE, JOURNAL_BASE + 64 MiB). -/
def journalBase : Nat := 0x000FFC000000
def journalBytes : Nat := 0x4000000

/-- An address lies in the journal reservation. -/
def inJournal (a : Nat) : Bool := decide (journalBase ≤ a ∧ a < journalBase + journalBytes)

/-- A byte of device memory. -/
def State.devByte (s : State) (a : Nat) : Byte := if inJournal a then s.jmem.read a else s.mem.read a

/-- A write of one byte of device memory. -/
def State.devPut (s : State) (a : Nat) (b : Byte) : State :=
  if inJournal a then { s with jmem := s.jmem.write a b } else { s with mem := s.mem.write a b }

/-- The `n` bytes from a device address. -/
def State.devRead (s : State) (a n : Nat) : List Byte := (List.range n).map (fun i => s.devByte (a + i))

/-- A write of a list of bytes from a device address upward. -/
def State.devWrite (s : State) : Nat → List Byte → State
  | _, [] => s
  | a, b :: bs => (s.devPut a b).devWrite (a + 1) bs

/-- The little-endian number of `n` bytes at a device address. -/
def State.devNat (s : State) (a n : Nat) : Nat := leVal (s.devRead a n)

/-- Device memory loses its contents (13 R397, 15 Table RCV-1). -/
def State.loseMemory (s : State) : State :=
  { s with mem := Memory.lost s.freeCount, jmem := Memory.lost s.freeCount, freeCount := s.freeCount + 1 }

/-! ## Geometry (00 R10, R11; 01 R19) -/

def dieRow (v d : Nat) : Nat := if v = 8 then d / 4 else if v = 4 then d / 2 else 0
def dieCol (v d : Nat) : Nat := if v = 8 then d % 4 else d % 2
def dieAt (v dr dc : Nat) : Nat := if v = 8 then 4 * dr + dc else 2 * dr + dc
def dieRows (v : Nat) : Nat := if v = 2 then 1 else 2
def dieCols (v : Nat) : Nat := if v = 8 then 4 else 2

/-- Rows and columns of the global grid. -/
def gridRows (v : Nat) : Nat := 16 * dieRows v
def gridCols (v : Nat) : Nat := 48 * dieCols v

def regionDie (r : Nat) : Nat := r / 24
def regionRow (r : Nat) : Nat := r % 24 / 6
def regionCol (r : Nat) : Nat := r % 6
def mkRegion (die row col : Nat) : Nat := 24 * die + 6 * row + col
def tileRegion (t : Nat) : Nat := t / 32
def tileRow (t : Nat) : Nat := t % 32 / 8
def tileCol (t : Nat) : Nat := t % 8

/-- Global row and column of a tile (01 R19). -/
def globalRow (v t : Nat) : Nat := 16 * dieRow v (regionDie (tileRegion t)) + 4 * regionRow (tileRegion t) + tileRow t
def globalCol (v t : Nat) : Nat := 48 * dieCol v (regionDie (tileRegion t)) + 8 * regionCol (tileRegion t) + tileCol t

/-- The tile at a global row and column. -/
def tileAt (v gr gc : Nat) : Nat :=
  32 * mkRegion (dieAt v (gr / 16) (gc / 48)) (gr % 16 / 4) (gc % 48 / 8) + 8 * (gr % 4) + gc % 8

/-- The neighbour of a tile on a side, if the grid has one (01 R20). -/
def neighbour (v t : Nat) (d : Dir) : Option Nat :=
  let gr := globalRow v t
  let gc := globalCol v t
  match d with
  | .north => if gr = 0 then none else some (tileAt v (gr - 1) gc)
  | .south => if gr + 1 < gridRows v then some (tileAt v (gr + 1) gc) else none
  | .west => if gc = 0 then none else some (tileAt v gr (gc - 1))
  | .east => if gc + 1 < gridCols v then some (tileAt v gr (gc + 1)) else none

/-- The 32 tiles of a region. -/
def regionTiles (r : Nat) : List Nat := (List.range 32).map (fun i => 32 * r + i)

/-- What a row's mapping holds (15 R447, R458): 0 no shift, 1 + f physical column f shifted out,
7 the spare failed. A trip's shift stands in its own table (R395). -/
def State.rowMap (s : State) (row : Nat) : Nat :=
  let m := tget 0 s.rcv.rowShift row
  if m = 0 then tget 0 s.rcv.tripShift row else m

/-- The physical column of presented column c under a mapping (15 R447). -/
def physColOf (m c : Nat) : Nat := if m = 0 ∨ m = 7 then c else if c + 1 < m then c else c + 1

/-- The physical region of a presented region. -/
def State.physOf (s : State) (r : Nat) : Nat :=
  28 * regionDie r + 7 * regionRow r + physColOf (s.rowMap (r / 6)) (regionCol r)

/-- The presented region a physical region serves, if any. -/
def State.presentedOf (s : State) (pr : Nat) : Option Nat :=
  (List.range 6).findSome? (fun c =>
    let r := mkRegion (pr / 28) (pr % 28 / 7) c
    if s.physOf r = pr then some r else none)

/-! ## Accessors -/

def State.tile (s : State) (t : Nat) : Tile := tget {} s.tiles t
def State.setTile (s : State) (t : Nat) (x : Tile) : State := { s with tiles := tset {} s.tiles t x }
def State.modTile (s : State) (t : Nat) (f : Tile → Tile) : State := s.setTile t (f (s.tile t))
def State.region (s : State) (r : Nat) : Region := tget {} s.regions r
def State.setRegion (s : State) (r : Nat) (x : Region) : State := { s with regions := tset {} s.regions r x }
def State.modRegion (s : State) (r : Nat) (f : Region → Region) : State := s.setRegion r (f (s.region r))
def State.tstream (s : State) (i : Nat) : TStream := tget {} s.streams i
def State.setTstream (s : State) (i : Nat) (x : TStream) : State := { s with streams := tset {} s.streams i x }
def State.rpw (s : State) (pr : Nat) : RegionPw := tget {} s.pw.regions pr
def State.setRpw (s : State) (pr : Nat) (x : RegionPw) : State :=
  { s with pw := { s.pw with regions := tset {} s.pw.regions pr x } }
def State.queue (s : State) (q : Nat) : Queue := tget {} s.hi.queues q
def State.setQueue (s : State) (q : Nat) (x : Queue) : State :=
  { s with hi := { s.hi with queues := tset {} s.hi.queues q x } }
def State.unit (s : State) (u : Nat) : UpdUnit := tget {} s.upd.units u
def State.setUnit (s : State) (u : Nat) (x : UpdUnit) : State :=
  { s with upd := { s.upd with units := tset {} s.upd.units u x } }
def State.port (s : State) (p : Nat) : Port := tget {} s.link.ports p
def State.setPort (s : State) (p : Nat) (x : Port) : State :=
  { s with link := { s.link with ports := tset {} s.link.ports p x } }
def State.modPort (s : State) (p : Nat) (f : Port → Port) : State := s.setPort p (f (s.port p))

/-- Device time in ns (00 R15). -/
def State.now (s : State) : Nat := s.pw.time.toNat

/-- Both end instants of a window of `w` ns that ends at `now` count (00 R16). -/
def inWindow (w now stamp : Nat) : Bool := decide (now ≤ stamp + w ∧ stamp ≤ now)

/-- The Helm runs: standby present and booted (14 R407). -/
def State.helmRuns (s : State) : Bool := s.pw.vsb && s.pw.helmUp

/-- A RUN is in progress. -/
def State.running (s : State) : Bool := s.run.isSome

/-! ## Dictionary values (12 R363, R366) -/

/-- The stored value of an object. -/
def State.obj (s : State) (idx sub : Nat) : Nat :=
  tget (objDflt s.variant (okey idx sub)) s.dict.objs (okey idx sub)

/-- A state with a stored value set. -/
def State.setObj (s : State) (idx sub v : Nat) : State :=
  { s with dict := { s.dict with objs := tset (objDflt s.variant (okey idx sub)) s.dict.objs (okey idx sub) v } }

/-- Advance a saturating counter of `bits` bits. -/
def State.bump (s : State) (idx sub bits k : Nat) : State :=
  s.setObj idx sub (satAdd bits (s.obj idx sub) k)

/-- The mark of a sensor that has not been sampled since standby was applied. -/
def noTemp : Int := -1048576

/-! ## Logbook events (14 R410, R415) -/

def srcHelm : Nat := 0x00
def srcDie (d : Nat) : Nat := 0x10 + d
def srcStack (d : Nat) : Nat := 0x20 + d
def srcLink (p : Nat) : Nat := 0x30 + p
def srcHost : Nat := 0x40

/-- SEV of a record is a free value of its code among INFO to TRIP (14 Table HELM-3 lists the values and no rule assigns them). -/
def logRec (time code src : Nat) (data : List Byte) : LogRec :=
  ⟨time, code, BitVec.ofNat 8 ((Config.eventSev code).toNat % 5), src, (data ++ zeros 14).take 14⟩

/-- A copy of device time within 1 µs of a count. -/
def clockNear (copy now : Nat) : Nat := now - min now 1000 + copy % (min now 1000 + 1001)

/-- Device time as a source stamps it (14 R408): a region controller, a stack base die and a link engine with their own copy. -/
def State.stampAt (s : State) (src : Nat) : Nat :=
  if src < 0x10 ∨ 0x40 ≤ src then s.now else clockNear (Config.clockCopy src s.now) s.now

/-- A source records an event: into its queue of 16, or lost and counted (14 R415). -/
def State.event (s : State) (src code : Nat) (data : List Byte) : State :=
  if s.pw.vsb then
    let q := tget [] s.log.queues src
    if q.length < 16 then
      { s with log := { s.log with queues := tset [] s.log.queues src (q ++ [logRec (s.stampAt src) code src data]) } }
    else { s with log := { s.log with lost := satAdd 64 s.log.lost 1 } }
  else s

/-- A trace record (15 R456): TIME, SRC, KIND, 22 bytes of data. KIND and the data are free values of what the record reports
(`kind`, `data`). It waits in its source's queue of 4 and is shed when that is full or a Logbook record waits there (R457). -/
def State.traceRec (s : State) (src kind : Nat) (data : List Byte) : State :=
  if s.pw.vsb && decide (s.obj 0x6500 0 = 1) then
    let q := tget [] s.rcv.traceq src
    if (tget [] s.log.queues src).isEmpty ∧ q.length < 4 then
      let r := leBytes 8 (s.stampAt src) ++ leBytes 1 src ++ [Config.traceKind kind] ++ (List.range 22).map (Config.traceData kind data)
      { s with rcv := { s.rcv with traceq := tset [] s.rcv.traceq src (q ++ [r]) } }
    else { s with rcv := { s.rcv with shed := satAdd 64 s.rcv.shed 1 } }
  else s

/-- What a trace record reports: the list of R456. The numbers stand for no KIND (log 25). -/
def trDoor : Nat := 1
def trReset : Nat := 2
def trShutter : Nat := 3
def trWaypoint : Nat := 4
def trReplay : Nat := 5

/-! ## Interrupts and alarms (11 R341, R357; 13 R396) -/

/-- A byte of the MSI-X table: each vector masked at reset (PCI Express; PRESUMED, log 8). -/
def msixDflt (i : Nat) : Byte := if i % 16 = 12 then 1 else 0

def State.msixByte (s : State) (i : Nat) : Byte := tget (msixDflt i) s.hi.msix i
def State.msixNat (s : State) (i n : Nat) : Nat := leVal ((List.range n).map (fun j => s.msixByte (i + j)))

/-- Raise an MSI-X vector: a masked one becomes pending, another sends its message. -/
def State.raiseVector (s : State) (v : Nat) : State :=
  if (s.msixByte (16 * v + 12)).getLsbD 0 then { s with hi := { s.hi with pba := setBit64 s.hi.pba v } }
  else { s with hi := { s.hi with sent := s.hi.sent ++ [⟨v, s.msixNat (16 * v) 8, s.msixNat (16 * v + 8) 4⟩] } }

/-- Set a cause bit; its vector is raised when the bit goes from 0 to 1 and is enabled (11 Table HOST-2). -/
def State.setCause (s : State) (v : Nat) : State :=
  if s.hi.intCause.getLsbD v then s
  else
    let s := { s with hi := { s.hi with intCause := setBit64 s.hi.intCause v } }
    if s.hi.intEnable.getLsbD v then s.raiseVector v else s

/-- Raise power and thermal alarm `b` of PT_ALARMS (13 R396): sticky bit, count, and INT_CAUSE 19 and
17 when the sticky bit goes to 1; only the count advances while it is set. -/
def State.alarm (s : State) (b : Nat) : State :=
  let was := s.obj 0x2040 1
  let s := (s.setObj 0x2040 1 (setBitN was b)).bump 0x2040 (2 + b) 32 1
  if was.testBit b then s else (s.setCause 17).setCause 19

/-- Raise an alarm that records an event (13 R396): while its sticky bit is set only the count advances. -/
def State.alarmEvent (s : State) (b code : Nat) : State :=
  if (s.obj 0x2040 1).testBit b then s.alarm b else (s.alarm b).event srcHelm code []

/-- MOD_ALERT# is driven low (16 R470). -/
def State.modAlert (s : State) : Bool :=
  s.pw.vsb && (decide (s.obj 0x2040 1 ≠ 0) || decide (s.pw.state = .tripped) || decide (s.obj 0x6000 0 = 1) || s.pw.failPend)

/-- THERM_TRIP# is driven low (16 R470). -/
def State.thermTripPin (s : State) : Bool := s.pw.vsb && s.pw.thermTrip

/-- MOD_STATE.OOS, which SERVICE_STATE holds (15 R453). -/
def State.oos (s : State) : Bool := decide (s.obj 0x6000 0 = 1)

/-! ## Stacks' doors (15 R431) -/

/-- A door is closed. -/
def State.doorClosed (s : State) (k : DomKind) (i : Nat) : Bool := s.rcv.closed.contains (k, i)

/-- A stack controller's door holds a request for some bytes of device memory (15 R431): the request waits. -/
def State.stackHeld (s : State) (space a n : Nat) : Bool :=
  decide (space = 0 ∧ 0 < n) && (List.range ((a + n - 1) / 2 ^ 36 + 1 - a / 2 ^ 36)).any (fun k => s.doorClosed .stack (a / 2 ^ 36 + k))

/-- A request waits at a stack's door (15 R431). -/
def State.hold (s : State) (by' : Sender) (a n : Nat) (data : Option (List Byte)) : State :=
  { s with hi := { s.hi with held := s.hi.held ++ [⟨by', a, n, data⟩] } }

/-- A write of device memory, or its wait at a stack's door. -/
def State.devSend (s : State) (by' : Sender) (a : Nat) (bs : List Byte) : State :=
  if s.stackHeld 0 a bs.length then s.hold by' a bs.length (some bs) else s.devWrite a bs

/-! ## Commands and their journal (11 R345-R361) -/

def State.cmd (s : State) (seq : Nat) : Option Cmd := s.hi.cmds.find? (fun c => decide (c.seq = seq))
def State.setCmds (s : State) (cs : List Cmd) : State := { s with hi := { s.hi with cmds := cs } }
def State.modCmd (s : State) (seq : Nat) (f : Cmd → Cmd) : State :=
  s.setCmds (s.hi.cmds.map (fun c => if c.seq = seq then f c else c))

/-- OPCODE, FLAGS and CID of an accepted entry (11 Table HOST-4). -/
def Cmd.opcode (c : Cmd) : Nat := fieldAt c.entry 0 1
def Cmd.flags (c : Cmd) : Nat := fieldAt c.entry 1 1
def Cmd.cid (c : Cmd) : Nat := fieldAt c.entry 2 2

/-- The device address of the journal entry of a sequence number (11 R358). -/
def journalSlot (seq : Nat) : Nat := journalBase + 64 * (seq % 1048576)

/-- A journal entry (11 Table HOST-10). -/
def journalEntry (c : Cmd) (now : Nat) : List Byte :=
  leBytes 8 c.seq ++ leBytes 4 c.epoch ++ leBytes 1 c.jstate ++ leBytes 1 c.queue ++ leBytes 1 c.opcode ++
    leBytes 1 (if c.replays = 0 then 0 else 1) ++ leBytes 2 c.cid ++
    leBytes 1 (if c.jstate = 4 ∨ c.jstate = 5 then c.code else 0) ++ zeros 1 ++ leBytes 4 c.replays ++
    leBytes 8 c.wpt ++ leBytes 8 (if c.opcode = 4 then c.steps else if c.jstate = 4 ∨ c.jstate = 5 then c.result else 0) ++
    leBytes 8 c.context ++ leBytes 8 c.tAccept ++ leBytes 8 now

/-- The door of the stack that holds the journal is closed for the entry of a sequence number (15 R431). -/
def State.journalHeld (s : State) (seq : Nat) : Bool := s.stackHeld 0 (journalSlot seq) 64

/-- Write a command's journal entry (11 R359); the write waits at the stack's door. -/
def State.journal (s : State) (c : Cmd) : State := s.devSend .helm (journalSlot c.seq) (journalEntry c s.now)

/-- Change a command and rewrite its journal entry. -/
def State.journalCmd (s : State) (seq : Nat) (f : Cmd → Cmd) : State :=
  let s := s.modCmd seq f
  match s.cmd seq with
  | some c => s.journal c
  | none => s

/-- Fix the outcome of a command (11 R356); the first outcome stands. -/
def State.endCmd (s : State) (seq code detail result : Nat) : State :=
  s.modCmd seq (fun c =>
    if c.ended then c else { c with ended := true, code := code, detail := detail, result := result })

/-- End the RUN in progress with a code (11 R352, R354): RESULT holds its training steps completed. -/
def State.endRun (s : State) (code detail : Nat) : State :=
  match s.run with
  | some r => { (s.endCmd r.seq code detail r.done) with run := none }
  | none => s

/-- The CHART_ID of the loaded chart, 0 for none. -/
def State.chartId (s : State) : Nat :=
  match s.chart with
  | some c => c.id
  | none => 0

/-! ## Lists of numbers as a device writes them -/

/-- The sum of a list. -/
def sumN (xs : List Nat) : Nat := xs.foldl (· + ·) 0

/-- The largest of a list, 0 for none. -/
def maxN (xs : List Nat) : Nat := xs.foldl max 0

/-- Apply a function for each element of a list, in order. -/
def forEach {α : Type} (xs : List α) (s : State) (f : State → α → State) : State := xs.foldl f s

end Sys2Proof.Machine
end

