-- ==== Sys2Proof/Machine/Measure.lean ====
section
/-! DEFINITION. The repair map as bytes and what it takes from the overrides (15 R458-R460), the operator key slots, and the
measurement registers (14 R425). -/

namespace Sys2Proof.Machine

/-! ## The repair map (15 R458-R460) -/

/-- A repair map entry as 16 bytes (15 Table RCV-7). -/
def repairBytes (e : RepairEntry) : List Byte :=
  leBytes 1 (e.kind + (if e.cancel then 128 else 0)) ++ leBytes 1 e.origin ++ leBytes 1 e.die ++ leBytes 1 e.row ++
    leBytes 1 e.pcol ++ leBytes 1 e.trow ++ leBytes 1 e.tcol ++ leBytes 9 e.data

/-- An entry read from 16 bytes. -/
def repairOf (b : List Byte) : RepairEntry :=
  ⟨fieldAt b 0 1 % 128, decide (128 ≤ fieldAt b 0 1), fieldAt b 1 1, fieldAt b 2 1, fieldAt b 3 1, fieldAt b 4 1,
    fieldAt b 5 1, fieldAt b 6 1, fieldAt b 7 9⟩

/-- Entries packed from offset 0. -/
def repairList : Nat → List Byte → List RepairEntry
  | 0, _ => []
  | n + 1, b => repairOf (b.take 16) :: repairList n (b.drop 16)

/-- REPAIR_MAP: header and entries (15 Table RCV-6). -/
def repairMapBytes (v runs : Nat) (es : List RepairEntry) : List Byte :=
  let h := leBytes 4 0x504D5052 ++ leBytes 2 1 ++ leBytes 1 v ++ zeros 1 ++ leBytes 4 es.length ++ leBytes 4 runs ++ zeros 12
  let b := es.flatMap repairBytes
  h ++ leBytes 4 (crc32c (h ++ b)) ++ b

/-- Two entries name the same failure: KIND and coordinates. -/
def sameFailure (a b : RepairEntry) : Bool :=
  decide (a.kind = b.kind ∧ a.die = b.die ∧ a.row = b.row ∧ a.pcol = b.pcol ∧ a.trow = b.trow ∧ a.tcol = b.tcol)

/-- The effective map: overrides with CANCEL remove, others add (15 R460). -/
def applyOverrides (map ov : List RepairEntry) : List RepairEntry :=
  (map.filter (fun e => !(ov.any (fun o => o.cancel && sameFailure o e)))) ++ ov.filter (fun o => !o.cancel)

/-! ## Measurement (14 R425) -/

def State.measReg (s : State) (i : Nat) : List Byte := tget (zeros 32) s.helm.meas i

/-- Extend a measurement register. -/
def State.extend (s : State) (i : Nat) (d : List Byte) : State :=
  let m := tset (zeros 32) s.helm.meas i (sha256 (s.measReg i ++ d))
  { s with helm := { s.helm with meas := m, mcount := tset 0 s.helm.mcount i (tget 0 s.helm.mcount i + 1) } }

/-- OPKEY of a slot (12 R378). -/
def State.opkey (s : State) (i : Nat) : List Byte := tget [] s.dict.opkeys i

/-- OPKEY or 32 zero bytes. -/
def State.opkeyOrZero (s : State) (i : Nat) : List Byte := if (s.opkey i).isEmpty then zeros 32 else s.opkey i

/-- Some key slot is installed. -/
def State.anyKey (s : State) : Bool := (List.range 4).any (fun i => !(s.opkey i).isEmpty)

/-- Extend MEAS[1] with the repair map and the key slots (14 Table HELM-7). -/
def State.measureKeys (s : State) : State :=
  let s := s.extend 1 (sha256 (repairMapBytes s.variant s.rcv.bistRuns s.rcv.effective))
  forEach (List.range 4) s (fun s i => s.extend 1 (sha256 (s.opkeyOrZero i)))

end Sys2Proof.Machine
end

