-- ==== Sys2Proof/Machine/Faults.lean ====
section
/-! DEFINITION. Raising a fault: class, fault record, doors, resets, the end of a RUN, replay and
going out of service (15 R428-R457), with the shutters (13 R391, R392) that these close. -/

namespace Sys2Proof.Machine

/-! ## What a chart uses -/

/-- The presented regions a chart places. -/
def Chart.placed (c : Chart) : List Nat := c.place.map (fun (d, r, k) => mkRegion d r k)

/-- The regions a chart names as lenders (06 R203). -/
def Chart.lenders (c : Chart) : List Nat :=
  match c.tier with
  | some t => t.lends.map (fun l => mkRegion l.die l.row l.col)
  | none => []

/-- The regions a chart keeps open for paging (06 R209): [dk:r,3] of each stack with a unit that has
a run of a HOST group. -/
def Chart.paging (c : Chart) : List Nat :=
  match c.upd with
  | some u =>
    (u.units.filter (fun x => ((u.runs.drop x.runFirst).take x.runCount).any
        (fun r => (u.groups.getD r.group {}).host))).map
      (fun x => mkRegion (x.stack / 4) (x.stack % 4) 3)
  | none => []

/-- The regions a chart uses (13 R391). -/
def Chart.used (c : Chart) : List Nat := c.placed ++ c.lenders ++ c.paging

/-- The tile a tile image names. -/
def Chart.tileOf (c : Chart) (x : TileImg) : Nat :=
  32 * (c.placed.getD x.creg 0) + 8 * x.trow + x.tcol

/-- The chart tiles, in chart tile index order. -/
def Chart.tileList (c : Chart) : List Nat := c.tiles.map c.tileOf

/-- The chart region index of a presented region, if the chart places it. -/
def Chart.cregOf (c : Chart) (r : Nat) : Option Nat := c.placed.findIdx? (fun x => decide (x = r))

/-- The chart tile index of a tile, if the chart places it. -/
def Chart.tileIdx (c : Chart) (t : Nat) : Option Nat := c.tileList.findIdx? (fun x => decide (x = t))

def State.placedRegions (s : State) : List Nat :=
  match s.chart with
  | some c => c.placed
  | none => []

/-- Every presented region, and the physical regions they lie on. -/
def State.allRegions (s : State) : List Nat := List.range (24 * s.variant)
def State.allPhys (s : State) : List Nat := List.range (28 * s.variant)

/-! ## What a core domain loses -/

/-- A tile whose dataflow engine has been reset or whose core domain has lost power (02 R61, R69; 03
R101, R115; 15 Table RCV-1); `n` names the loss of its scratchpad. The column repair registers stay. -/
def Tile.cleared (x : Tile) (n : Nat) : Tile :=
  { spad := { cells := [], epoch := n + 1 }, colFail := x.colFail, narrow := x.narrow, unusable := x.unusable }

/-- The borrowers of a region's ways: their regions and segment numbers (06 R202). -/
def State.borrowersOf (s : State) (r : Nat) : List (Nat × Nat) :=
  match s.chart with
  | some c => ((c.tier.getD {}).lends.filter (fun l => decide (mkRegion l.die l.row l.col = r))).map (fun l => (c.placed.getD l.creg 0, l.seg))
  | none => []

/-- What a borrower holds in a lent segment is lost; `n` names the loss. -/
def Region.lendLost (x : Region) (seg n : Nat) : Region :=
  if seg = 0 then { x with lent0 := Memory.lost n } else { x with lent1 := Memory.lost n }

/-- What a region's borrowers hold in its ways is lost (06 R203). -/
def State.lendsLost (s : State) (r n : Nat) : State :=
  forEach (s.borrowersOf r) s (fun s b => s.setRegion b.1 ((s.region b.1).lendLost b.2 n))

/-- The tiles, region store, fills, counters and lent segments of a region cleared, and what its borrowers hold in its ways
(06 R203, R206, R210). -/
def State.clearDataflow (s : State) (r : Nat) : State :=
  let s := forEach (regionTiles r) s (fun s t => s.setTile t ((s.tile t).cleared s.freeCount))
  let x := s.region r
  let s := s.setRegion r
    { x with lines := [], fills := [], tw := [], lent0 := Memory.lost s.freeCount, lent1 := Memory.lost s.freeCount, ready := false,
             stale := x.stale + x.fills.length }
  let s := s.lendsLost r s.freeCount
  { s with freeCount := s.freeCount + 1 }

/-! ## Shutters -/

/-- A shutter may be closed on a physical region now (13 R391), trips apart. -/
def State.shutterAllowed (s : State) (pr : Nat) : Bool :=
  match s.presentedOf pr with
  | none => true
  | some r =>
    s.oos ||
    (decide (s.obj 0x2020 0 = 1) &&
      (match s.chart with
       | none => true
       | some c => !(c.used.contains r)))

/-- The stall and tier counters of a region stay as they stood (05 R173; 06 R210, R211): a shutter is no reset. -/
def State.keepCounts (u s : State) (r : Nat) : State :=
  forEach (regionTiles r) (u.modRegion r (fun x => { x with tw := (s.region r).tw }))
    (fun u t => u.setTile t { u.tile t with stall := (s.tile t).stall })

/-- Close a shutter: the core domain loses its contents (13 R392) and the set point reads 0. -/
def State.closeShutter (s : State) (pr : Nat) (why : Shutter) : State :=
  let x := s.rpw pr
  let s := s.setRpw pr { x with vset := 0, shutter := why, floorAt := none }
  let s := s.traceRec (srcDie (pr / 28)) trShutter (leBytes 1 pr)
  match s.presentedOf pr with
  | some r => (s.clearDataflow r).keepCounts s r
  | none => s

/-- REGION_VDD in µV, the nearest one to its FP32 value (log 10). -/
def microV (w : W32) : Nat :=
  match ofF32 w with
  | .fin false m e => let (n, d) := inUnits (m * 1000000) e 1 0; roundRat .nearest n d
  | _ => 0

def State.regionVdd (s : State) : Nat := microV (BitVec.ofNat 32 (s.obj 0x2002 0))

/-- A voltage in µV rounded down to a step of 5 mV, in mV (13 R388). -/
def vStep (uv : Nat) : Nat := uv / 5000 * 5

/-- The set point of a region with thermal cap `vth`, and what sets it (13 R388, Table PWR-6). -/
def State.setPoint (s : State) (vth : Nat) : Nat × Nat :=
  let v := min s.regionVdd (min s.pw.vpwr vth)
  (vStep v, if v = s.regionVdd then 0 else if v = s.pw.vpwr then 1 else 2)

/-- Open a shutter: the region's thermal cap starts at REGION_VDD (13 R388). -/
def State.openShutter (s : State) (pr : Nat) : State :=
  let x := s.rpw pr
  if x.shutter = .opened then s
  else
    let sp := s.setPoint s.regionVdd
    let s := s.traceRec (srcDie (pr / 28)) trShutter (leBytes 1 pr ++ [1])
    s.setRpw pr { x with vset := sp.1, cap := sp.2, vth := s.regionVdd, shutter := .opened, floorAt := none }

/-- A moment at which the Helm sets shutters (13 R392): it closes every shutter R391 allows. -/
def State.closeAllowed (s : State) : State :=
  forEach s.allPhys s (fun s pr =>
    if s.shutterAllowed pr ∧ (s.rpw pr).shutter = .opened then s.closeShutter pr .empty else s)

/-- Open the shutter of every untripped presented region that R391 does not keep closed. -/
def State.openRequired (s : State) : State :=
  forEach s.allPhys s (fun s pr =>
    if ¬ s.shutterAllowed pr ∧ (s.rpw pr).shutter = .empty then s.openShutter pr else s)

/-! ## Domains, doors and tags (15 R428-R432) -/

/-- The number a domain's tag stands under. -/
def domKey : DomKind → Nat → Nat
  | .dataflow, i => i
  | .tier, i => 1000 + i
  | .link, i => 2000 + i
  | .update, i => 3000 + i
  | .stack, i => 4000 + i
  | .die, i => 5000 + i
  | .module, _ => 6000

/-- The number of the Power domain's tag. -/
def powerKey : Nat := 7000

/-- The number of instances of a domain kind. -/
def domCount (v : Nat) : DomKind → Nat
  | .dataflow => 28 * v
  | .tier => 28 * v
  | .link => 2 * v
  | .update => 8 * v
  | .stack => 4 * v
  | .die => v
  | .module => 1

/-- Instances lo ≤ i < lo + n of a kind. -/
def domRange (k : DomKind) (lo n : Nat) : List (DomKind × Nat) := (List.range n).map (fun i => (k, lo + i))

/-- The engine domains of a die. -/
def dieEngines (d : Nat) : List (DomKind × Nat) :=
  domRange .dataflow (28 * d) 28 ++ domRange .tier (28 * d) 28 ++ domRange .link (2 * d) 2 ++
    domRange .update (8 * d) 8 ++ domRange .stack (4 * d) 4

/-- A domain and every domain it encloses (15 Table RCV-1). -/
def domAll (v : Nat) : DomKind → Nat → List (DomKind × Nat)
  | .die, d => (.die, d) :: dieEngines d
  | .module, _ => (.module, 0) :: (List.range v).flatMap (fun d => (.die, d) :: dieEngines d)
  | k, i => [(k, i)]

/-- A domain's generation tag (15 R432). -/
def State.tag (s : State) (k : DomKind) (i : Nat) : Nat := tget 0 s.rcv.tags (domKey k i)

/-- Advance the tags of a domain and of every domain it encloses, modulo 256 (15 R430). -/
def State.advanceTags (s : State) (k : DomKind) (i : Nat) : State :=
  let tags := (domAll s.variant k i).foldl
    (fun t (k', j) => tset 0 t (domKey k' j) ((tget 0 t (domKey k' j) + 1) % 256)) s.rcv.tags
  { s with rcv := { s.rcv with tags := tags } }

/-- The source that records a domain's door and reset traces. -/
def domSrc : DomKind → Nat → Nat
  | .link, p => srcLink p
  | .dataflow, i => srcDie (i / 28)
  | .tier, i => srcDie (i / 28)
  | .update, u => srcStack (u / 8)
  | .stack, i => srcStack (i / 4)
  | .die, d => srcDie d
  | .module, _ => srcHelm

/-- A mesh queue of a stopped tile, which holds free values (04 Table FLOW-1): `n` names the stop, `q` the queue. -/
def freeQueue (n q : Nat) : List Token :=
  let w := fun (i : Nat) => Config.lostWord n (131072 + 1024 * q + i)
  (List.range ((w 0).toNat % 17)).map (fun k =>
    ⟨BitVec.ofNat 512 (wordsVal ((List.range 16).map (fun i => w (1 + 17 * k + i)))), (w (17 + 17 * k)).getLsbD 0⟩)

/-- A tile that stops (04 Table FLOW-1): its queues and its scratchpad are undefined until its region is reset. -/
def Tile.stopped (x : Tile) (n : Nat) : Tile :=
  let w := fun (i : Nat) => Config.lostWord n (262144 + i)
  { x with
    st := .stopped, firing := none, flight := [], spad := { cells := [], epoch := n }
    inq := (List.range 4).map (fun q => (q, freeQueue n q)), outq := (List.range 4).map (fun q => (q, freeQueue n (4 + q)))
    viq := ((freeQueue n 8).take 4).map (·.data)
    opA := ⟨(w 0).toNat % 2049, (w 1).toNat % 2 ^ ((w 0).toNat % 2049)⟩
    opB := ⟨(w 2).toNat % 4097, (w 3).toNat % 2 ^ ((w 2).toNat % 4097)⟩
    steer := x.steer.map (fun u => (u.1, { u.2 with
      dataq := (freeQueue n (9 + u.1)).take 4, bearq := (freeQueue n (13 + u.1)).map (fun k => ⟨k.void, k.void⟩) })) }

/-- The tiles of a physical region whose door closes stop (04 Table FLOW-1). -/
def State.stopTiles (s : State) (d : DomKind × Nat) : State :=
  match d with
  | (.dataflow, pr) =>
    match s.presentedOf pr with
    | some r =>
      let t := forEach (regionTiles r) s (fun s t => s.setTile t ((s.tile t).stopped (s.freeCount + 1)))
      { t with freeCount := s.freeCount + 1 }
    | none => s
  | _ => s

/-- A domain's door closes: what its unit has waiting at another domain's door is abandoned (15 R431). -/
def State.abandon (s : State) (d : DomKind × Nat) : State :=
  { s with hi := { s.hi with held := s.hi.held.filter (fun h => decide (h.by' ≠ .unit d.1 d.2)) } }

/-- Close doors. -/
def State.closeDoors (s : State) (ds : List (DomKind × Nat)) : State :=
  forEach ds s (fun s d =>
    if s.rcv.closed.contains d then s
    else ((let s := (s.stopTiles d).abandon d; { s with rcv := { s.rcv with closed := s.rcv.closed ++ [d] } } : State)).traceRec (domSrc d.1 d.2) trDoor (leBytes 2 (domKey d.1 d.2)))

/-- The accesses that wait at stacks' doors are served, oldest first, where the doors are open again (15 R431). -/
def State.serveHeld (s : State) : State :=
  if s.hi.held.isEmpty then s
  else
    let wait := s.hi.held.filter (fun h => s.stackHeld 0 h.addr h.len)
    let go := s.hi.held.filter (fun h => !s.stackHeld 0 h.addr h.len)
    forEach go ({ s with hi := { s.hi with held := wait } } : State) (fun s h =>
      match h.data with
      | some d => s.devWrite h.addr d
      | none => { s with hi := { s.hi with reply := some (s.devRead h.addr h.len) } })

/-- Open doors. -/
def State.openDoors (s : State) (ds : List (DomKind × Nat)) : State :=
  State.serveHeld <| forEach (ds.filter (fun d => s.rcv.closed.contains d)) s (fun s d =>
    (({ s with rcv := { s.rcv with closed := s.rcv.closed.filter (fun x => decide (x ≠ d)) } } : State)).traceRec
      (domSrc d.1 d.2) trDoor (leBytes 2 (domKey d.1 d.2) ++ [1]))

/-- DOMAIN of a fault record (15 Table RCV-3). -/
def domLevel : DomKind → Nat
  | .die => 2
  | .module => 3
  | _ => 1

/-- The Helm issues resets (15 R430, R449): events, counters, doors closed, completion awaited. -/
def State.issueResets (s : State) (ds : List (DomKind × Nat)) : State :=
  forEach ds s (fun s d =>
    if s.rcv.resets.any (fun x => decide (x.kind = d.1 ∧ x.ix = d.2)) then s
    else
      let lvl := domLevel d.1
      let s := s.traceRec srcHelm trReset (leBytes 2 (domKey d.1 d.2))
      let s := (s.bump 0x6401 lvl 32 1).event srcHelm (0x6A03 + lvl) []
      let s := s.closeDoors (domAll s.variant d.1 d.2)
      { s with rcv := { s.rcv with resets := s.rcv.resets ++ [⟨d.1, d.2, s.now⟩] } })

/-- The number of the next waypoint: the w-th since CHART_LOAD, from 1 (11, worked example of the journal). -/
def State.nextWpt (s : State) : Nat := s.wp.count + 1

/-- Waypoints of the training step in progress that have completed. -/
def State.wptIx (s : State) : Nat :=
  match s.chart with
  | some c => s.wp.count % c.wps
  | none => 0

/-- The next waypoint ends the training step. -/
def State.stepEndNext (s : State) : Bool :=
  match s.chart with
  | some c => decide (s.wptIx + 1 = c.wps)
  | none => false

/-- The commit waypoint of the training step has completed and its step-end waypoint has not. -/
def State.commitPassed (s : State) : Bool :=
  match s.chart with
  | some c =>
    (match c.upd with
     | some u => decide (u.cwpt < s.wp.count % c.wps)
     | none => false)
  | none => false

/-- The commit waypoint of the training step has been released and its step-end waypoint has not
completed (07 R232). -/
def State.commitOpen (s : State) : Bool :=
  match s.chart with
  | some c =>
    (match c.upd with
     | some u => decide (u.cwpt < s.wp.count % c.wps) && (s.wp.released || decide (u.cwpt + 1 < s.wp.count % c.wps))
     | none => false)
  | none => false

/-- Every region dataflow engine, tier engine and link engine, and after the commit waypoint every update unit (15 R439 step 2). -/
def State.replayDomains (s : State) : List (DomKind × Nat) :=
  domRange .dataflow 0 (28 * s.variant) ++ domRange .tier 0 (28 * s.variant) ++ domRange .link 0 (2 * s.variant) ++
    (if s.commitOpen then domRange .update 0 (8 * s.variant) else [])

/-- Every engine domain (15 R451). -/
def State.engineDomains (s : State) : List (DomKind × Nat) := (List.range s.variant).flatMap dieEngines

/-! ## Links: control flits that any unit may queue (10 R318, Table LINK-6) -/

/-- A flit of a type on a virtual channel with a payload; the transmitter fills the rest. -/
def mkFlit (type vc : Nat) (payload : List Byte) : Flit :=
  ⟨type, vc, 0, 0, false, 0, 0, 0, 0, 0, 0, 0, 0, (payload ++ zeros 240).take 240⟩

/-- Queue a flit for sending on a port. -/
def State.queueFlit (s : State) (p : Nat) (f : Flit) : State :=
  s.modPort p (fun x => { x with sendq := tmod [] x.sendq f.vc (· ++ [f]) })

/-- The length of an axis in effect (10 R313). -/
def State.axisLen (s : State) (a : Nat) : Nat := s.link.len.getD a 1

/-- The MAP section of the loaded chart; a chart without one runs as a machine of one module, with every length 1 (08 R257). -/
def State.machMap (s : State) : MapSec := match s.chart with | some c => c.map.getD {} | none => {}

/-- The length of an axis of the machine that the chart runs on, and the module's position on it (08 R257, Table MAP-2). -/
def State.runLen (s : State) (a : Nat) : Nat := s.machMap.len.getD a 1
def State.runPos (s : State) (a : Nat) : Nat := s.machMap.pos.getD a 0

/-- A machine of more than one module (08 R264). -/
def State.multi (s : State) : Bool := s.machMap.len.any (fun l => decide (2 ≤ l))

/-- The pair-index-0 ports of an axis, + then − (10 R311). -/
def axisPorts (a : Nat) : List Nat := [2 * a, 2 * a + 1]

/-- The axis a port serves (10 Table LINK-1). -/
def portAxis (p : Nat) : Nat := p / 2 % 4

/-- Send REPLAY with a resume waypoint along every axis (15 R441). -/
def State.sendReplay (s : State) (w : W64) : State :=
  forEach (List.range 4) s (fun s a =>
    if 2 ≤ s.runLen a then
      forEach (axisPorts a) s (fun s p => s.queueFlit p (mkFlit 9 0 (leBytes 8 w.toNat)))
    else s)

/-! ## Fault records (15 R433-R436) -/

/-- The classes (15 R433). -/
def clsR : Nat := 0
def clsD : Nat := 1
def clsS : Nat := 2
def clsE : Nat := 3
def clsO : Nat := 4

/-- The class a cause fixes (15 Table RCV-2); REGION_SILENT is classed by its query (R437). -/
def causeClass (c : Nat) : Nat :=
  match c with
  | 0x02 => clsD | 0x03 => clsD | 0x11 => clsD | 0x12 => clsD
  | 0x30 => clsS | 0x31 => clsS | 0x44 => clsS
  | 0x50 => clsE | 0x52 => clsE | 0x53 => clsO
  | _ => clsR

/-- The causes of a tile or a region (15 R434). -/
def regionCause (c : Nat) : Bool := decide ((1 ≤ c ∧ c ≤ 6) ∨ (0x10 ≤ c ∧ c ≤ 0x12))

/-- A detected fault: cause, class its rule gives, the domain of the faulting unit, presented region
and tile where they apply, UNIT, INDEX and DETAIL. -/
structure FaultIn where
  cause  : Nat
  cls    : Nat
  dom    : DomKind × Nat
  region : Option Nat
  tile   : Option Nat
  unit   : Nat
  index  : Option Nat
  detail : List Byte
  deriving DecidableEq, Repr

/-- All ones in `n` bytes: a field that does not apply (15 R435). -/
def ones (n : Nat) : Nat := 2 ^ (8 * n) - 1

/-- A fault record as 128 bytes (15 Table RCV-3). -/
def faultBytes (r : FaultRec) : List Byte :=
  leBytes 4 r.number ++ leBytes 1 r.cause ++ leBytes 1 r.cls ++ leBytes 1 r.outcome ++ leBytes 1 r.domain ++
    leBytes 8 r.time ++ leBytes 8 r.chartId ++ leBytes 8 r.wpt ++ leBytes 8 r.tstep ++ leBytes 4 r.step ++
    leBytes 2 r.entry ++ zeros 2 ++ leBytes 1 r.die ++ leBytes 1 r.row ++ leBytes 1 r.col ++ leBytes 1 r.pcol ++
    leBytes 1 r.trow ++ leBytes 1 r.tcol ++ leBytes 1 r.unit ++ leBytes 1 r.index ++ leBytes 1 r.gen ++ zeros 1 ++
    leBytes 2 r.replays ++ leBytes 4 r.incident ++ (r.detail ++ zeros 48).take 48 ++ zeros 16

/-- Replays from the waypoint register so far (15 R442, Table RCV-3). -/
def State.replaysSoFar (s : State) : Nat := if s.rcv.replayOf = s.wp.reg then s.rcv.replays else 0

/-- One replay more exceeds REPLAY_LIMIT (15 R442). -/
def State.limitHit (s : State) : Bool := decide (s.obj 0x6022 0 < s.replaysSoFar + 1)

/-- Write a fault record (15 R435, R436): number, incident, the newest 256 kept, vector 16, event; `more` is 1 for a fault
that causes a replay, which REPLAYS includes. -/
def State.recordFault (s : State) (f : FaultIn) (cls outcome domain : Nat) (more : Nat := 0) : State :=
  let num := satAdd 32 (s.obj 0x6010 0) 1
  let inc := if s.rcv.incident = 0 then num else s.rcv.incident
  let die := match f.region with | some r => regionDie r | none => ones 1
  let row := match f.region with | some r => regionRow r | none => ones 1
  let col := match f.region with | some r => regionCol r | none => ones 1
  let pcol := match f.region with | some r => s.physOf r % 7 | none => ones 1
  let r : FaultRec :=
    { number := num, cause := f.cause, cls := cls, outcome := outcome, domain := domain, time := s.stampAt (if f.unit = 8 then srcHelm else domSrc f.dom.1 f.dom.2),
      chartId := s.chartId, wpt := s.wp.reg.toNat, tstep := (if s.chart.isSome then s.wp.tsteps else ones 8),
      step := (match f.tile with | some t => tget 0 (s.tile t).stall 15 | none => ones 4),
      entry := (match f.tile with | some t => (s.tile t).entry | none => ones 2),
      die := die, row := row, col := col, pcol := pcol,
      trow := (match f.tile with | some t => tileRow t | none => ones 1),
      tcol := (match f.tile with | some t => tileCol t | none => ones 1),
      unit := f.unit, index := (match f.index with | some i => i | none => ones 1),
      gen := s.tag f.dom.1 f.dom.2, replays := s.replaysSoFar + more, incident := inc, detail := f.detail }
  let kept := s.rcv.faults ++ [r]
  let s := if 256 < kept.length then s.bump 0x6404 0 32 1 else s
  let s := { s with rcv := { s.rcv with faults := kept.drop (kept.length - 256), incident := inc } }
  let s := (s.setObj 0x6010 0 num).setCause 16
  s.event srcHelm 0x6A01 (leBytes 4 num ++ leBytes 1 f.cause ++ leBytes 1 cls ++
    (match f.region with
     | some _ => leBytes 1 die ++ leBytes 1 row ++ leBytes 1 col
     | none => leBytes 1 (match f.index with | some i => i | none => ones 1)))

/-! ## Out of service (15 R453) -/

/-- Complete every command in progress but the RUN with a code. -/
def State.endOthers (s : State) (code : Nat) : State :=
  s.setCmds (s.hi.cmds.map (fun c =>
    if c.ended then c else { c with ended := true, code := code, detail := 0, result := 0 }))

/-- Every COPY to a partner has ended: its flits that wait are not sent, and those on their way count for no later copy. -/
def State.forgetCopies (s : State) : State :=
  forEach (List.range (2 * s.variant)) s (fun s p =>
    s.modPort p (fun x =>
      let k := (x.retry.filter (fun f => decide (f.type = 0x0A))).length
      { x with copies := (if k = 0 then [] else [(0, k, 0)]), sendq := tset [] x.sendq 7 [] }))

/-- Discard the loaded chart without write-back, its protection with it; the waypoint register keeps its value (15 R438), and what has been
heard for a chart still to come stays (09 R308). -/
def State.dropChart (s : State) : State :=
  { s with
    chart := none, wp := { reg := s.wp.reg }, upd := {}, redn := { barrier := { kept := s.redn.barrier.kept } }, streams := []
    rcv := { s.rcv with replays := 0, replayOf := BitVec.allOnes 64, cleared := [] } }

/-- The doors open of every domain that no reset has in hand (15 R430): no chart is left whose replay would open them. -/
def State.openIdleDoors (s : State) : State :=
  let busy := s.rcv.resets.flatMap (fun x => domAll s.variant x.kind x.ix)
  s.openDoors (s.rcv.closed.filter (fun d => !busy.contains d))

/-- Go out of service for a cause: the RUN ends with FAULT naming record `num`, every other command
with OUT_OF_SERVICE, every shutter closes. -/
def State.outOfService (s : State) (cause num : Nat) : State :=
  let s := (s.setObj 0x6000 0 1).setObj 0x6002 0 cause
  let s := s.event srcHelm 0x6A09 []
  let s := ((s.endRun 0x0D num).endOthers 0x0E).forgetCopies
  let s := s.dropChart
  let s := { s with rcv := { s.rcv with phase := (if s.rcv.resets.isEmpty then .idle else .resetOnly), incident := 0, shifts := [], oosPend := none, linkHold := false } }
  let s := s.openIdleDoors
  forEach s.allPhys s (fun s pr => if (s.rpw pr).shutter = .opened then s.closeShutter pr .empty else s)

/-! ## The escalation window -/

/-- 900 s in ns. -/
def window900 : Nat := 900000000000

/-- The stamps that count at a moment (15 R452). -/
def State.windowStamps (s : State) : List Nat := s.rcv.stamps.filter (fun t => inWindow window900 s.now t)

/-- A module reset or a Helm-driven power cycle is issued: its stamp enters the window, and a count of 3
takes the module out of service when the event completes. -/
def State.enterWindow (s : State) (cause : Nat) : State :=
  let st := s.windowStamps ++ [s.now]
  { s with rcv := { s.rcv with stamps := st, oosPend := (if 3 ≤ st.length ∧ ¬ s.oos then some cause else s.rcv.oosPend) } }

/-- A module reset is issued: counted in the window, one already issued apart (15 R452); READY is 0 until it completes (log 27). -/
def State.issueModule (s : State) (cause : Nat) : State :=
  let s := if s.rcv.resets.any (fun x => decide (x.kind = DomKind.module)) then s else s.enterWindow cause
  let s := s.issueResets [(.module, 0)]
  { s with hi := { s.hi with ready := false } }

/-! ## Row shifts (15 R447, R448) -/

/-- The row of a presented region can take no further shift: it has one, its spare has failed or is itself tripped (13 R395;
DEDUCED, log 78), or a shift waits to be applied. -/
def State.rowExhausted (s : State) (r : Nat) : Bool :=
  let spare := (s.rpw (7 * (r / 6) + 6)).shutter
  decide (s.rowMap (r / 6) ≠ 0) || decide (spare = .tripped ∨ spare = .regulator) || s.rcv.shifts.any (fun x => decide (x.1 / 6 = r / 6))

/-! ## Raising a fault -/

/-- The class of a fault with the rule of R434: a second class R fault of one presented region within
900 s is treated as class D. -/
def State.effClass (s : State) (f : FaultIn) : Nat :=
  if f.cls = clsR ∧ regionCause f.cause then
    (match f.region with
     | some r =>
       if s.rcv.rStamps.any (fun x => decide (x.1 = r) && inWindow 900000000000 s.now x.2) then clsD else clsR
     | none => clsR)
  else f.cls

/-- Remember a class R fault of a region. -/
def State.stampR (s : State) (f : FaultIn) : State :=
  match f.region with
  | some r =>
    if f.cls = clsR ∧ regionCause f.cause then
      let l := s.rcv.rStamps.filter (fun x => inWindow 900000000000 s.now x.2)
      { s with rcv := { s.rcv with rStamps := l ++ [(r, s.now)] } }
    else s
  | none => s

/-- An in-service region entry enters the repair map, which is measured again (15 R447, R448; 14 Table HELM-7). -/
def State.addRegionEntry (s : State) (pr : Nat) : State :=
  let e : RepairEntry := ⟨1, false, 2, pr / 28, pr % 28 / 7, pr % 7, 0xFF, 0xFF, 0⟩
  if s.rcv.map.contains e then s
  else ({ s with rcv := { s.rcv with map := s.rcv.map ++ [e], effective := s.rcv.effective ++ [e] } } : State).measureKeys

/-- REPAIR_EXHAUSTED (15 R448): the region enters the repair map unless a trip closed it (13 R395; log 102), a RUN ends as for class S with the engines of a replay
reset (R445), the record of going out of service is written; a module that is out of service already stays so. -/
def State.repairExhausted (s : State) (f : FaultIn) (r : Nat) : State :=
  let s := if f.cause = 0x12 then s else s.addRegionEntry (s.physOf r)
  let s := s.event srcHelm 0x6B02 []
  let s := s.recordFault { f with cause := 0x53, cls := clsO, unit := 8, detail := [] } clsO 5 1
  let num := s.obj 0x6010 0
  let s := s.issueResets (if s.running then s.replayDomains else [f.dom])
  if s.oos then { s with rcv := { s.rcv with phase := .resetOnly, incident := 0 } } else s.outOfService 0x53 num

/-- Wait to shift a region out; a trip's shift is not written to the repair map (15 R447). -/
def State.addShift (s : State) (r : Nat) (trip : Bool) : State :=
  { s with rcv := { s.rcv with shifts := s.rcv.shifts ++ [(r, if trip then 1 else 0)] } }

/-- A step of R439 as the trace reports it (15 R456). -/
def State.traceStep (s : State) (n : Nat) : State := s.traceRec srcHelm trReplay (leBytes 1 n ++ leBytes 8 s.wp.count)

/-- Steps 2 and 3 of R439, after the record of step 1: the doors close, REPLAY goes out; the replay is counted. -/
def State.haltForReplay (s : State) : State :=
  let s := s.traceStep 1
  let s := { s with rcv := { s.rcv with phase := .replaying, resumeWpt := s.wp.reg, replays := s.replaysSoFar + 1, replayOf := s.wp.reg } }
  let s := (s.closeDoors s.replayDomains).traceStep 2
  if s.multi then (s.sendReplay s.wp.reg).traceStep 3 else s

/-- OUTCOME of a record: 6 for a later fault of an incident (15 R455). -/
def State.outcomeOr (s : State) (o : Nat) : Nat := if s.rcv.incident = 0 then o else 6

/-- Steps 2-4 of R439, from a fault or a REPLAY flit; past REPLAY_LIMIT the Helm raises REPLAY_LIMIT and a module reset takes
the place of the engines' (R442, R450). -/
def State.startReplay (s : State) (own : DomKind × Nat) : State :=
  let ds := s.replayDomains
  if s.limitHit then
    (s.haltForReplay.recordFault ⟨0x52, clsE, (.module, 0), none, none, 8, none, []⟩ clsE (s.outcomeOr 4) 3).traceStep 4 |>.issueModule 0x52
  else (s.haltForReplay.traceStep 4).issueResets (if ds.contains own then ds else ds ++ [own])

/-- The fault of a class S or an exhausted row ends the RUN: the engines of step 2 are reset, no
replay follows (15 R445). -/
def State.stopRun (s : State) (code detail : Nat) : State :=
  let ds := s.replayDomains
  let s := (s.closeDoors ds).issueResets ds
  let s := s.endRun code detail
  { s with rcv := { s.rcv with phase := .resetOnly, incident := 0, linkHold := false } }

/-- A replay waits for the ports (15 R444), for the LINK_WAIT of this fault (R463). -/
def State.holdForLinks (s : State) (f : FaultIn) : State :=
  if f.cause = 0x43 then { s with rcv := { s.rcv with linkHold := true, linkSince := s.now, linkLimit := s.obj 0x6023 0 } } else s

/-- A fault joins the incident that is open (15 R446, R455): OUTCOME 6 and no further reset; class D shifts its region, class S
ends the RUN, LINK_DOWN holds the replay. -/
def State.joinIncident (s : State) (f : FaultIn) (cls : Nat) : State :=
  let trip := decide (f.cause = 0x12)
  let s := s.recordFault f cls 6 (if cls = clsS ∧ s.running then 1 else 0)
  if cls = clsS then (if s.running then s.stopRun 0x0D (s.obj 0x6010 0) else s)
  else if cls = clsD then
    match f.region with
    | some r =>
      if s.rcv.shifts.any (fun x => decide (x.1 = r)) then s
      else if s.rowExhausted r then s.repairExhausted f r
      else s.addShift r trip
    | none => s
  else if s.rcv.phase = .replaying then s.holdForLinks f
  else s

/-- A fault opens an incident during a RUN (15 R439, R445). -/
def State.openInRun (s : State) (f : FaultIn) (cls : Nat) : State :=
  let trip := decide (f.cause = 0x12)
  let out := fun (o : Nat) => if s.limitHit then 4 else o
  let dom := if s.limitHit then 3 else 1
  if cls = clsS then
    let s := s.recordFault f cls 2 1
    s.stopRun 0x0D (s.obj 0x6010 0)
  else if cls = clsD then
    match f.region with
    | some r =>
      if s.rowExhausted r then (s.recordFault f cls 5 1).repairExhausted f r
      else ((s.recordFault f cls (out 1) dom 1).addShift r trip).startReplay f.dom
    | none => (s.recordFault f cls (out 0) dom 1).startReplay f.dom
  else ((s.recordFault f cls (out 0) dom 1).startReplay f.dom).holdForLinks f

/-- A fault opens an incident without a RUN (15 R445): an engine reset of the faulting unit's domain, the shift of class D; the
incident ends with the reset (log 24). -/
def State.openIdle (s : State) (f : FaultIn) (cls : Nat) : State :=
  match (if cls = clsD then f.region else none) with
  | some r =>
    if s.rowExhausted r then (s.recordFault f cls 5 1).repairExhausted f r
    else
      let s := ((s.recordFault f cls 3 1).addShift r (decide (f.cause = 0x12))).issueResets [f.dom]
      { s with rcv := { s.rcv with phase := .resetOnly } }
  | none =>
    let s := (s.recordFault f cls 3 1).issueResets [f.dom]
    { s with rcv := { s.rcv with phase := .resetOnly } }

/-- Handle a fault with the class its rules give (15 R433-R448, R455). -/
def State.raiseAs (s : State) (f : FaultIn) (cls : Nat) : State :=
  let s := s.stampR { f with cls := cls }
  if s.rcv.phase = .replaying ∨ (s.rcv.phase = .resetOnly ∧ s.rcv.incident ≠ 0) then s.joinIncident f cls
  else if s.running then s.openInRun f cls
  else s.openIdle f cls

/-- Handle a detected fault. -/
def State.raiseFault (s : State) (f : FaultIn) : State := s.raiseAs f (s.effClass f)

/-- A tile fault: UNIT 1 (15 Table RCV-2). -/
def State.tileFault (s : State) (t cause : Nat) (detail : List Byte) : State :=
  let r := tileRegion t
  let pr := s.physOf r
  let s := s.closeDoors [(.dataflow, pr)]
  s.raiseFault ⟨cause, causeClass cause, (.dataflow, pr), some r, some t, 1, none, detail⟩

/-- A fault of a region controller (UNIT 2), region store (3) or tier engine (4). -/
def regionIn (s : State) (r cause cls unit : Nat) (detail : List Byte) : FaultIn :=
  ⟨cause, cls, (if unit = 4 then .tier else .dataflow, s.physOf r), some r, none, unit, none, detail⟩

/-- It closes the region's doors. -/
def State.regionDoors (s : State) (r : Nat) : State := s.closeDoors [(.dataflow, s.physOf r), (.tier, s.physOf r)]

def State.regionFault (s : State) (r cause cls unit : Nat) (detail : List Byte) : State :=
  (s.regionDoors r).raiseFault (regionIn s r cause cls unit detail)

/-- A link engine fault: UNIT 7, INDEX the port. -/
def State.linkFault (s : State) (p cause : Nat) (detail : List Byte) : State :=
  s.raiseFault ⟨cause, causeClass cause, (.link, p), none, none, 7, some p, detail⟩

/-- An update-unit fault: UNIT 5, INDEX 2 × stack + unit. -/
def State.unitFault (s : State) (u cause : Nat) (detail : List Byte) : State :=
  s.raiseFault ⟨cause, causeClass cause, (.update, u), none, none, 5, some u, detail⟩

/-- A stack controller fault: UNIT 6, INDEX the stack. -/
def State.stackFault (s : State) (st cause : Nat) (detail : List Byte) : State :=
  s.raiseFault ⟨cause, causeClass cause, (.stack, st), none, none, 6, some st, detail⟩

/-- STACK_UE: a read of device memory at `a` meets an error that the stack cannot correct (15 Tables RCV-2, RCV-4). -/
def State.stackUe (s : State) (a : Nat) : State := s.stackFault (a / 2 ^ 36) 0x31 (leBytes 8 a)

/-- The address at which one of the reads, each an address and a length in device memory, meets an uncorrectable error. -/
def ueIn (ue : Option Nat) (reads : List (Nat × Nat)) : Option Nat :=
  ue.filter (fun a => reads.any (fun r => decide (r.1 ≤ a ∧ a < r.1 + r.2)))

/-- A command whose read at `a` meets STACK_UE ends with FAULT, DETAIL the record, RESULT `n` (log 122). -/
def State.endUe (s : State) (seq a n : Nat) : State :=
  let s := s.stackUe a
  s.endCmd seq 0x0D (s.obj 0x6010 0) n

end Sys2Proof.Machine
end

