-- ==== Sys2Proof/Machine/Signature.lean ====
section
/-! DEFINITION. The signatures of the module (00 Table SCOPE-2): SLH-DSA-SHA2-128s for operators, identity
and attestation, SLH-DSA-SHA2-192s for firmware and the identity certificate. FIPS 205 defines them and
the spec does not print it (PRESUMED from that standard, log 75). -/

namespace Sys2Proof.Machine

/-- A parameter set: bytes of a hash, layers of the hypertree, height of a FORS tree and number of
FORS trees; `wide` where the set uses SHA-512. A layer is 9 high and a WOTS+ digit has 4 bits in both. -/
structure Slh where
  n    : Nat
  d    : Nat
  a    : Nat
  k    : Nat
  wide : Bool
  deriving DecidableEq, Repr

def slh128s : Slh := ⟨16, 7, 12, 14, false⟩
def slh192s : Slh := ⟨24, 7, 14, 17, true⟩

/-- Where in the structure a hash is made: layer, tree, kind, key pair, and the two words whose meaning
the kind decides. -/
structure SlhAt where
  layer : Nat := 0
  tree  : Nat := 0
  kind  : Nat := 0
  pair  : Nat := 0
  mid   : Nat := 0
  low   : Nat := 0
  deriving DecidableEq, Repr

/-- The compressed address, 22 bytes. -/
def SlhAt.bytes (p : SlhAt) : List Byte :=
  beBytes 1 p.layer ++ beBytes 8 p.tree ++ beBytes 1 p.kind ++ beBytes 4 p.pair ++ beBytes 4 p.mid ++ beBytes 4 p.low

/-- Another kind of hash of the same key pair. -/
def SlhAt.of (p : SlhAt) (kind : Nat) : SlhAt := { p with kind := kind, mid := 0, low := 0 }

/-! ## Hashes -/

/-- The hash of one block of `n` bytes: F, and PRF over a secret seed. -/
def Slh.hash1 (P : Slh) (seed : List Byte) (p : SlhAt) (m : List Byte) : List Byte :=
  (sha256 (seed ++ zeros (64 - P.n) ++ p.bytes ++ m)).take P.n

/-- The hash of several blocks: H and T. -/
def Slh.hashN (P : Slh) (seed : List Byte) (p : SlhAt) (m : List Byte) : List Byte :=
  if P.wide then (sha512 (seed ++ zeros (128 - P.n) ++ p.bytes ++ m)).take P.n else P.hash1 seed p m

/-- The hash that messages are digested with. -/
def Slh.wideHash (P : Slh) (m : List Byte) : List Byte := if P.wide then sha512 m else sha256 m

/-- HMAC with that hash, for a key no longer than its block. -/
def Slh.mac (P : Slh) (key m : List Byte) : List Byte :=
  let pad := key ++ zeros ((if P.wide then 128 else 64) - key.length)
  P.wideHash (pad.map (· ^^^ 0x5C) ++ P.wideHash (pad.map (· ^^^ 0x36) ++ m))

/-- The mask generation function: `n` hashes over a counter. -/
def Slh.mask (P : Slh) (m : List Byte) (n : Nat) : List Byte :=
  (List.range n).flatMap (fun i => P.wideHash (m ++ beBytes 4 i))

/-- The bytes of a digest that choose the FORS leaves. -/
def Slh.mdBytes (P : Slh) : Nat := ceilDiv (P.k * P.a) 8

/-- Bits of the tree number: every layer but the lowest. -/
def Slh.treeBits (P : Slh) : Nat := 9 * (P.d - 1)

/-- The digest of a message: FORS part, tree, leaf. -/
def Slh.select (P : Slh) (r pk m : List Byte) : List Byte × Nat × Nat :=
  let dg := P.mask (r ++ pk.take P.n ++ P.wideHash (r ++ pk ++ m)) 2
  let t := ceilDiv P.treeBits 8
  (dg.take P.mdBytes, beVal (bytesAt dg P.mdBytes t) % 2 ^ P.treeBits, beVal (bytesAt dg (P.mdBytes + t) 2) % 2 ^ 9)

/-! ## One-time keys -/

/-- Apply F `steps` times to a value that stands at step `i` of a chain. -/
def Slh.chain (P : Slh) (seed : List Byte) (p : SlhAt) : Nat → Nat → List Byte → List Byte
  | 0, _, x => x
  | k + 1, i, x => P.chain seed p k (i + 1) (P.hash1 seed { p with low := i } x)

/-- `n` digits of `b` bits of a byte string, most significant first. -/
def digits (b n : Nat) (m : List Byte) : List Nat :=
  let v := beVal m
  (List.range n).map (fun i => v / 2 ^ (8 * m.length - b * (i + 1)) % 2 ^ b)

/-- The digits a one-time key signs: those of the value and of its checksum, shifted to whole bytes. -/
def Slh.wotsDigits (P : Slh) (m : List Byte) : List Nat :=
  let ds := digits 4 (2 * P.n) m
  ds ++ digits 4 3 (beBytes 2 (16 * (ds.map (15 - ·)).sum))

/-- Secret value `i` of a one-time key. -/
def Slh.wotsSecret (P : Slh) (sk seed : List Byte) (p : SlhAt) (i : Nat) : List Byte :=
  P.hash1 seed { p.of 5 with mid := i } sk

/-- The public key that chain ends give. -/
def Slh.wotsTop (P : Slh) (seed : List Byte) (p : SlhAt) (ends : List (List Byte)) : List Byte :=
  P.hashN seed (p.of 1) ends.flatten

/-- The public key of a one-time key. -/
def Slh.wotsKey (P : Slh) (sk seed : List Byte) (p : SlhAt) : List Byte :=
  P.wotsTop seed p ((List.range (2 * P.n + 3)).map (fun i =>
    P.chain seed { p.of 0 with mid := i } 15 0 (P.wotsSecret sk seed p i)))

/-- The signature of a value by a one-time key. -/
def Slh.wotsSign (P : Slh) (sk seed : List Byte) (p : SlhAt) (m : List Byte) : List (List Byte) :=
  (P.wotsDigits m).mapIdx (fun i v => P.chain seed { p.of 0 with mid := i } v 0 (P.wotsSecret sk seed p i))

/-- The public key that a signature and the value signed give. -/
def Slh.wotsRecover (P : Slh) (seed : List Byte) (p : SlhAt) (m : List Byte) (sig : List (List Byte)) : List Byte :=
  P.wotsTop seed p ((P.wotsDigits m).mapIdx (fun i v => P.chain seed { p.of 0 with mid := i } (15 - v) v (sig.getD i [])))

/-! ## Hash trees -/

/-- Node `i` at height `z` of the tree over `leaf`. -/
def Slh.node (P : Slh) (seed : List Byte) (p : SlhAt) (leaf : Nat → List Byte) : Nat → Nat → List Byte
  | 0, i => leaf i
  | z + 1, i => P.hashN seed { p with mid := z + 1, low := i } (P.node seed p leaf z (2 * i) ++ P.node seed p leaf z (2 * i + 1))

/-- The siblings on the way from leaf `i` to the root of a tree `h` high. -/
def Slh.path (P : Slh) (seed : List Byte) (p : SlhAt) (leaf : Nat → List Byte) (h i : Nat) : List (List Byte) :=
  (List.range h).map (fun z => P.node seed p leaf z ((i / 2 ^ z) ^^^ 1))

/-- The root that a leaf's value and its siblings give, from height `z` up. -/
def Slh.climb (P : Slh) (seed : List Byte) (p : SlhAt) : List (List Byte) → Nat → Nat → List Byte → List Byte
  | [], _, _, x => x
  | a :: as, z, i, x =>
    P.climb seed p as (z + 1) (i / 2) (P.hashN seed { p with mid := z + 1, low := i / 2 } (if i % 2 = 0 then x ++ a else a ++ x))

/-! ## Layers of the hypertree -/

/-- Leaf `i` of a layer's tree: the public key of one-time key `i`. -/
def Slh.layerLeaf (P : Slh) (sk seed : List Byte) (p : SlhAt) (i : Nat) : List Byte :=
  P.wotsKey sk seed { p.of 0 with pair := i }

/-- The root of a layer's tree. -/
def Slh.layerRoot (P : Slh) (sk seed : List Byte) (p : SlhAt) : List Byte :=
  P.node seed { p.of 2 with pair := 0 } (P.layerLeaf sk seed p) 9 0

/-- What one layer adds to a signature: a one-time signature and the path to the root. -/
def Slh.layerSign (P : Slh) (sk seed : List Byte) (p : SlhAt) (i : Nat) (m : List Byte) : List (List Byte) :=
  P.wotsSign sk seed { p.of 0 with pair := i } m ++ P.path seed { p.of 2 with pair := 0 } (P.layerLeaf sk seed p) 9 i

/-- The root that a layer's part of a signature gives. -/
def Slh.layerRecover (P : Slh) (seed : List Byte) (p : SlhAt) (i : Nat) (m : List Byte) (sig : List (List Byte)) : List Byte :=
  let w := 2 * P.n + 3
  P.climb seed { p.of 2 with pair := 0 } ((sig.drop w).take 9) 0 i
    (P.wotsRecover seed { p.of 0 with pair := i } m (sig.take w))

/-- The signature of a value by `l` layers of the hypertree, from layer `j`. -/
def Slh.hyperSign (P : Slh) (sk seed : List Byte) : Nat → Nat → Nat → Nat → List Byte → List (List Byte)
  | 0, _, _, _, _ => []
  | l + 1, j, tree, leaf, m =>
    let p : SlhAt := { layer := j, tree := tree }
    P.layerSign sk seed p leaf m ++ P.hyperSign sk seed l (j + 1) (tree / 2 ^ 9) (tree % 2 ^ 9) (P.layerRoot sk seed p)

/-- The root that the signature of `l` layers gives, from layer `j`. -/
def Slh.hyperRecover (P : Slh) (seed : List Byte) : Nat → Nat → Nat → Nat → List Byte → List (List Byte) → List Byte
  | 0, _, _, _, m, _ => m
  | l + 1, j, tree, leaf, m, sig =>
    P.hyperRecover seed l (j + 1) (tree / 2 ^ 9) (tree % 2 ^ 9)
      (P.layerRecover seed { layer := j, tree := tree } leaf m sig) (sig.drop (2 * P.n + 12))

/-! ## FORS -/

/-- Secret value `i` of a FORS key, and the leaf above it. -/
def Slh.forsSecret (P : Slh) (sk seed : List Byte) (p : SlhAt) (i : Nat) : List Byte :=
  P.hash1 seed { p.of 6 with low := i } sk
def Slh.forsLeaf (P : Slh) (seed : List Byte) (p : SlhAt) (i : Nat) (x : List Byte) : List Byte :=
  P.hash1 seed { p.of 3 with low := i } x

/-- The signature of the FORS part of a digest: for each tree a secret value and its path. -/
def Slh.forsSign (P : Slh) (sk seed : List Byte) (p : SlhAt) (md : List Byte) : List (List Byte) :=
  ((digits P.a P.k md).mapIdx (fun t v =>
    let i := t * 2 ^ P.a + v
    P.forsSecret sk seed p i :: P.path seed (p.of 3) (fun l => P.forsLeaf seed p l (P.forsSecret sk seed p l)) P.a i)).flatten

/-- The FORS public key that a signature gives. -/
def Slh.forsRecover (P : Slh) (seed : List Byte) (p : SlhAt) (md : List Byte) (sig : List (List Byte)) : List Byte :=
  P.hashN seed (p.of 4) ((digits P.a P.k md).mapIdx (fun t v =>
    let i := t * 2 ^ P.a + v
    let part := (sig.drop (t * (P.a + 1))).take (P.a + 1)
    P.climb seed (p.of 3) part.tail 0 i (P.forsLeaf seed p i (part.headD [])))).flatten

/-! ## Keys, signing and verification -/

/-- The public key of the three seeds: PK.seed and PK.root. -/
def Slh.publicKey (P : Slh) (sk seed : List Byte) : List Byte := seed ++ P.layerRoot sk seed { layer := P.d - 1 }

/-- The bytes that a pure signature with an empty context string signs. -/
def pureMessage (m : List Byte) : List Byte := 0 :: 0 :: m

/-- The pure signature of a message, by the secret seeds `sk` and `prf`, with the randomness `rnd` (`n` bytes). -/
def Slh.sign (P : Slh) (sk prf seed rnd m : List Byte) : List Byte :=
  let m' := pureMessage m
  let r := (P.mac prf (rnd ++ m')).take P.n
  let (md, tree, leaf) := P.select r (P.publicKey sk seed) m'
  let p : SlhAt := { tree := tree, pair := leaf }
  let f := P.forsSign sk seed p md
  r ++ (f ++ P.hyperSign sk seed P.d 0 tree leaf (P.forsRecover seed p md f)).flatten

/-- A byte string in pieces of `n` bytes. -/
def pieces (n : Nat) : Nat → List Byte → List (List Byte)
  | 0, _ => []
  | k + 1, bs => bs.take n :: pieces n k (bs.drop n)

/-- The pieces of a signature after its randomizer. -/
def Slh.sigPieces (P : Slh) : Nat := P.k * (P.a + 1) + P.d * (2 * P.n + 12)

/-- The pure signature `sig` of message `m` holds for the public key `pk`. -/
def Slh.verify (P : Slh) (pk m sig : List Byte) : Bool :=
  let m' := pureMessage m
  let seed := pk.take P.n
  let (md, tree, leaf) := P.select (sig.take P.n) pk m'
  let ps := pieces P.n P.sigPieces (sig.drop P.n)
  let p : SlhAt := { tree := tree, pair := leaf }
  decide (sig.length = P.n * (1 + P.sigPieces) ∧ pk.length = 2 * P.n) &&
    decide (P.hyperRecover seed P.d 0 tree leaf (P.forsRecover seed p md (ps.take (P.k * (P.a + 1)))) (ps.drop (P.k * (P.a + 1))) = pk.drop P.n)

end Sys2Proof.Machine
end

