-- ==== Sys2Proof/Machine/Helm.lean ====
section
/-! DEFINITION. The Helm's own operations: the Logbook (14 R410-R417), firmware checks and boot (R418-R422), identity and attestation (R423-R426). -/

namespace Sys2Proof.Machine

/-! ## Logbook -/

/-- A record as 32 bytes (14 Table HELM-3). -/
def logBytes (r : Nat × LogRec) : List Byte :=
  let b := leBytes 8 r.2.time ++ leBytes 4 r.1 ++ leBytes 2 r.2.code ++ [r.2.sev] ++ leBytes 1 r.2.src ++
    (r.2.data ++ zeros 14).take 14
  b ++ leBytes 2 (crc16 b)

/-- Store a record under the next SEQ, in the first-fill area or the tail ring (14 R413). -/
def Logbook.store (l : Logbook) (r : LogRec) : Logbook :=
  if l.first.length < 65536 then { l with first := l.first ++ [(l.next, r)], next := l.next + 1 }
  else
    let t := l.tail ++ [(l.next, r)]
    let gone := if 1024 < t.length then (match t with | x :: _ => decide (l.spilled ≤ x.1) | [] => false) else false
    { l with tail := t.drop (t.length - 1024), next := l.next + 1, lost := if gone then satAdd 64 l.lost 1 else l.lost }

/-- Append a record; LOG_FIRST_FULL takes the last first-fill slot (14 R411, R413). -/
def State.logAppend (s : State) (r : LogRec) : State :=
  let l := s.log.store r
  let l := if l.first.length = 65535 then l.store (logRec s.now 0x7A02 srcHelm []) else l
  { s with log := l }

/-- The SRAM records, oldest first. -/
def Logbook.sram (l : Logbook) : List (Nat × LogRec) := l.first ++ l.tail

/-- The sources whose queues hold a record. -/
def Logbook.waiting (l : Logbook) : List Nat := (l.queues.filter (fun q => !q.2.isEmpty)).map (·.1)

/-- The rotation reaches a source (14 R415): it has not been served in the present round, or every queue that holds a record has,
and a round begins with it. -/
def Logbook.mayServe (l : Logbook) (src : Nat) : Bool := !l.round.contains src || l.waiting.all (fun k => l.round.contains k)

/-- A source's oldest trace record reaches the Helm's ring of 8,192 (15 R456), when no Logbook record waits anywhere (R457). -/
def State.traceTake (s : State) (src : Nat) : State :=
  match tget [] s.rcv.traceq src with
  | [] => s
  | r :: rest =>
    let t := s.rcv.trace ++ [r]
    { s with rcv := { s.rcv with traceq := tset [] s.rcv.traceq src rest, trace := t.drop (t.length - 8192) } }

/-- The Helm takes a record from a source's queue (14 R411), in rotation (R415); with none waiting at any source the lowest priority
is served, a trace record (15 R457; log 108). -/
def State.logTake (s : State) (src : Nat) : State :=
  match tget [] s.log.queues src with
  | [] => if s.log.waiting.isEmpty then s.traceTake src else s
  | r :: rest =>
    if s.log.mayServe src then
      let round := if s.log.round.contains src then [src] else s.log.round ++ [src]
      ({ s with log := { s.log with queues := tset [] s.log.queues src rest, round := round } } : State).logAppend r
    else s

/-- Spill the oldest unspilled SRAM record to the flash ring (14 R414). -/
def State.logSpillOne (s : State) : State :=
  match s.log.sram.find? (fun r => decide (s.log.spilled ≤ r.1)) with
  | none => s
  | some r =>
    let f := s.log.flash ++ [r]
    { s with log := { s.log with flash := f.drop (f.length - 1048576), spilled := r.1 + 1 } }

/-- Every record held, in SEQ order (14 R416): from SRAM where held, else from flash, whose records lie before the first-fill
area or between it and the tail ring. -/
def Logbook.held (l : Logbook) : List (Nat × LogRec) :=
  let fl := l.flash.filter (fun r => !(l.sram.any (fun x => decide (x.1 = r.1))))
  let lo := match l.first with | x :: _ => x.1 | [] => l.next
  fl.filter (fun r => decide (r.1 < lo)) ++ l.first ++ fl.filter (fun r => decide (lo ≤ r.1)) ++ l.tail

/-- LOG_READ (14 R416): up to 128 records from LOG_READ_SEQ on, in SEQ order. -/
def State.logRead (s : State) : List Byte :=
  let lo := s.obj 0x7011 0
  ((s.log.held.filter (fun r => decide (lo ≤ r.1 % 2 ^ 32))).take 128).flatMap logBytes

/-- LOG_CLEARED is appended with SEQ c and written to flash, and every older record is discarded from
SRAM; the flash ring is erased later (14 R417). `seq` is the DICT_SET to complete then. -/
def State.logClear (s : State) (slot ctr seq : Nat) : State :=
  let c := s.log.next
  let n := s.log.held.length
  let r := (c, logRec s.now 0x7A01 srcHelm (leBytes 1 slot ++ leBytes 8 ctr ++ leBytes 4 n))
  { s with log := { s.log with next := c + 1, first := [r], tail := [], spilled := c + 1, lost := 0, flash := (s.log.flash ++ [r]).drop (s.log.flash.length + 1 - 1048576), clearing := some (c, seq) } }

/-- The flash ring is erased: the records below c are gone. -/
def State.logErased (s : State) : State :=
  match s.log.clearing with
  | none => s
  | some (c, _) =>
    { s with log := { s.log with flash := s.log.flash.filter (fun r => decide (c ≤ r.1)), clearing := none } }

/-! ## Firmware (14 R418-R422) -/

def State.bank (s : State) (b : Nat) : Memory := if b = 0 then s.helm.bankA else s.helm.bankB
def State.setBank (s : State) (b : Nat) (m : Memory) : State :=
  if b = 0 then { s with helm := { s.helm with bankA := m } } else { s with helm := { s.helm with bankB := m } }

/-- LENGTH of the image of a bank. -/
def State.fwLength (s : State) (b : Nat) : Nat := leVal ((s.bank b).readN 0x10 4)

/-- Bytes of the whole image: 256 + LENGTH + 16,224. -/
def State.fwImage (s : State) (b : Nat) : List Byte := (s.bank b).readN 0 (256 + s.fwLength b + 16224)

/-- ROLLBACK of the image of a bank. -/
def State.fwRollback (s : State) (b : Nat) : Nat :=
  if s.helm.factory = some b then 0 else leVal ((s.bank b).readN 0xC 4)

/-- MAJOR, MINOR and BUILD of the image of a bank as FW_VERSION lays them out (12 Table DICT-8). -/
def State.fwVer (s : State) (b : Nat) : Nat :=
  if s.helm.factory = some b then 0x02000000
  else
    let h := (s.bank b).readN 0 12
    fieldAt h 6 1 * 2 ^ 24 + fieldAt h 7 1 * 2 ^ 16 + fieldAt h 8 2

/-- The VARIANTS bit of a variant (14 Table HELM-5). -/
def variantBit (v : Nat) : Nat := if v = 2 then 0 else if v = 4 then 1 else 2

/-- The boot checks of R419 on a bank; the factory image passes all but the rollback check (log 9). -/
def State.fwPasses (s : State) (b : Nat) : Bool :=
  if s.helm.factory = some b then decide (s.helm.rollback ≤ 0)
  else
    let h := (s.bank b).readN 0 0x100
    let n := s.fwLength b
    decide (fieldAt h 0 4 = 0x4D4C4548 ∧ fieldAt h 4 2 = 1 ∧ n ≤ 0x2000000) &&
      (fieldAt h 0x18 1).testBit (variantBit s.variant) &&
      decide (bytesAt h 0x20 32 = sha256 ((s.bank b).readN 0x100 n)) &&
      slh192s.verify Config.romKey ((s.bank b).readN 0 (0x100 + n)) ((s.bank b).readN (0x100 + n) 16224) &&
      decide (s.helm.rollback ≤ fieldAt h 0xC 4)

/-- SHA-256 of the whole image of a bank. -/
def State.fwDigest (s : State) (b : Nat) : List Byte :=
  if s.helm.factory = some b then Config.factoryDigest else sha256 (s.fwImage b)

/-- The bank other than `b` serves as a fallback: the inactive bank does not once staging into it has started (14 R420). -/
def State.fallbackServes (s : State) (b : Nat) : Bool := decide (b ≠ s.helm.active) || !s.helm.staged

/-- A write of the replay-protected partition (14 R409): the anti-rollback counter and the pending-activation flag. It needs the key
that the Helm derives from the PUF, and the flash device counts it. -/
def State.protect (s : State) (pending : Bool) (rollback : Nat) : State :=
  if s.helm.pufOk then { s with helm := { s.helm with pending := pending, rollback := rollback, writes := s.helm.writes + 1 } } else s

/-- The pending-activation flag is cleared where it is set. -/
def State.unpend (s : State) : State := if s.helm.pending then s.protect false s.helm.rollback else s

/-- The boot ROM verifies bank `b`, falls back to the other, or enters recovery mode (14 R419); the
measurement registers start again (R425). -/
def State.helmBoot (s : State) (b : Nat) (pufOk : Bool) : State :=
  let s := { s with helm := { s.helm with meas := [], mcount := [], attestSt := 0, captured := [], report := [], recovery := false, pufOk := pufOk } }
  let s :=
    if s.fwPasses b then ({ s with helm := { s.helm with running := b } } : State).extend 0 (s.fwDigest b)
    else if s.fallbackServes b ∧ s.fwPasses (1 - b) then
      let s := { s.unpend with helm := { s.unpend.helm with running := 1 - b, active := 1 - b, selfTest := false } }
      (s.extend 0 (s.fwDigest (1 - b))).event srcHelm 0x8B05 []
    else ({ s.unpend with helm := { s.unpend.helm with recovery := true, selfTest := false } } : State).event srcHelm 0x8B06 []
  let s := if pufOk then s else s.event srcHelm 0x8C01 []
  let s := s.measureKeys
  let s := { s with pw := { s.pw with helmUp := true } }
  match s.chart with
  | some c => s.extend 2 c.digest
  | none => s

/-- A Helm restart other than at the application of VSB (14 R407): counted, recorded with the cause code 0x51 (15 R435; DEDUCED
for a restart into new firmware, log 35). `pufOk` says whether the PUF gives the secret K (R423). -/
def State.helmReboot (s : State) (b : Nat) (pufOk : Bool) : State :=
  ((s.helmBoot b pufOk).bump 0x1040 0 32 1).event srcHelm 0x1A02 [0x51]

/-! ## Identity and attestation (14 R423-R426) -/

/-- The seeds of the identity key (14 R423): SK.seed, SK.prf, PK.seed. -/
def deviceSeeds : List Byte × List Byte × List Byte :=
  let h1 := sha256 (Config.pufSecret ++ [1])
  (h1.take 16, h1.drop 16, (sha256 (Config.pufSecret ++ [2])).take 16)

/-- The identity key of the secret K: PK.seed and PK.root (14 R423). -/
def deviceKey : List Byte := slh128s.publicKey deviceSeeds.1 deviceSeeds.2.2

/-- IDENTITY_KEY, or empty when K cannot be reconstructed. -/
def State.identityKey (s : State) : List Byte := if s.helm.pufOk then deviceKey else []

/-- IDENTITY_CERT (14 R424). -/
def State.identityCert (s : State) : List Byte :=
  let b := leBytes 8 s.serial.toNat ++ leBytes 1 s.variant ++ [0xB1] ++ zeros 6 ++ deviceKey ++ leBytes 8 Config.manufactureDate.toNat
  b ++ slh192s.sign (Config.makerKey 0) (Config.makerKey 1) (Config.makerKey 2) (Config.signRandom b) b

/-- The first 0x100 bytes of an attestation report (14 Table HELM-8). -/
def State.attestFields (s : State) (nonce : List Byte) : List Byte :=
  leBytes 4 0x54535441 ++ leBytes 2 1 ++ leBytes 1 s.variant ++ leBytes 1 0xB1 ++ leBytes 8 s.serial.toNat ++
    leBytes 4 (s.fwVer s.helm.running) ++ leBytes 4 s.helm.rollback ++ leBytes 8 s.now ++ nonce ++
    (List.range 4).flatMap s.measReg ++ (List.range 4).flatMap (fun i => leBytes 4 (tget 0 s.helm.mcount i)) ++
    leBytes 8 s.chartId ++ leBytes 1 s.helm.active ++ leBytes 1 (s.obj 0x6000 0) ++
    leBytes 1 (sumN ((List.range 4).map (fun i => if (s.opkey i).isEmpty then 0 else 2 ^ i))) ++ zeros 5 ++
    sha256 ((List.range 4).flatMap s.opkeyOrZero)

/-- The signed report (14 R426): the signature is made by the identity key over the captured bytes. -/
def State.attestSigned (s : State) : List Byte :=
  let m := s.helm.captured
  m ++ slh128s.sign deviceSeeds.1 deviceSeeds.2.1 deviceSeeds.2.2 (Config.signRandom m) m

end Sys2Proof.Machine
end

