-- ==== Sys2Proof/Machine/Repair.lean ====
section
/-! DEFINITION. The repair map at work: what a die reset takes from it (15 R458, 02 R55, R56), BIST (15
R459, R461) and row shifts (R447). -/

namespace Sys2Proof.Machine

/-- Failed physical columns of a tile of a physical region, as a 66-bit mask (15 Table RCV-7). -/
def colMask (es : List RepairEntry) (pr tr tc : Nat) : Nat :=
  (es.filter (fun e => decide (e.kind = 2 ∧ 28 * e.die + 7 * e.row + e.pcol = pr ∧ e.trow = tr ∧ e.tcol = tc))).foldl
    (fun m e => m ||| (e.data % 2 ^ 66)) 0

/-- How many bits of a mask of 66 are set. -/
def bits66 (m : Nat) : Nat := ((List.range 66).filter (fun i => m.testBit i)).length

/-- A column mask makes a tile unusable (02 R56). -/
def colUnusable (narrowAllow : Bool) (m : Nat) : Bool :=
  decide (34 < bits66 m) || (decide (3 ≤ bits66 m) && !narrowAllow)

def State.narrowAllow (s : State) : Bool := decide (s.obj 0x6230 0 = 1)

/-- A scratchpad word of a tile has two failing bits, which is beyond its ECC (02 R56, R63; 15 R459). -/
def spadBeyond (es : List RepairEntry) (pr tr tc : Nat) : Bool :=
  let mine := es.filter (fun e => decide (e.kind = 3 ∧ 28 * e.die + 7 * e.row + e.pcol = pr ∧ e.trow = tr ∧ e.tcol = tc))
  mine.any (fun e => mine.any (fun g => decide (e.data % 2 ^ 17 = g.data % 2 ^ 17 ∧ bitsOf e.data 29 24 ≠ bitsOf g.data 29 24)))

/-- The entries make a tile unusable: by its columns, or by a scratchpad word beyond ECC (02 R56). -/
def tileUnusable (narrowAllow : Bool) (es : List RepairEntry) (pr tr tc : Nat) : Bool :=
  colUnusable narrowAllow (colMask es pr tr tc) || spadBeyond es pr tr tc

/-- Load the column repair registers of a presented region (02 R55, Table TILE-7). No object of the spec holds them: the
dictionary shows what the next die reset loads, as REPAIR_MAP, REPAIR_OVERRIDE and NARROW_ALLOW (log 111). -/
def State.loadColumns (s : State) (r : Nat) : State :=
  let pr := s.physOf r
  forEach (regionTiles r) s (fun s t =>
    let m := colMask s.rcv.effective pr (tileRow t) (tileCol t)
    let na := s.narrowAllow
    s.modTile t (fun x => { x with
      colFail := m, narrow := decide (3 ≤ bits66 m) && !colUnusable na m,
      unusable := tileUnusable na s.rcv.effective pr (tileRow t) (tileCol t) }))

/-- The column repair registers that tile `t` holds become those of tile `u` of another state: they belong to the physical tile. -/
def State.takeColumns (s u : State) (t from' : Nat) : State :=
  let y := u.tile from'
  s.modTile t (fun x => { x with colFail := y.colFail, narrow := y.narrow, unusable := y.unusable })

/-- The physical columns with a region entry in a row. -/
def rowFailed (es : List RepairEntry) (die row : Nat) : List Nat :=
  (List.range 7).filter (fun p => es.any (fun e => decide (e.kind = 1 ∧ e.die = die ∧ e.row = row ∧ e.pcol = p)))

/-- The mapping a row takes from the map (15 R458). -/
def rowMapOf (es : List RepairEntry) (die row : Nat) : Nat :=
  match rowFailed es die row with
  | [] => 0
  | p :: _ => p + 1

/-- The physical region of an entry. -/
def entryRegion (e : RepairEntry) : Nat := 28 * e.die + 7 * e.row + e.pcol

/-- A region is failed by its entries (15 R459): a region entry, an unusable tile, a scratchpad word with two failing bits, a
region-store set with two failed ways. -/
def regionFails (narrowAllow : Bool) (es : List RepairEntry) (pr : Nat) : Bool :=
  let mine := es.filter (fun e => decide (entryRegion e = pr))
  let ways := mine.filter (fun e => decide (e.kind = 4))
  mine.any (fun e => decide (e.kind = 1)) ||
    mine.any (fun e => decide (e.kind = 2 ∨ e.kind = 3) && tileUnusable narrowAllow mine pr e.trow e.tcol) ||
    ways.any (fun e => ways.any (fun g => decide (e.data % 2 ^ 12 = g.data % 2 ^ 12 ∧ bitsOf e.data 15 12 ≠ bitsOf g.data 15 12)))

/-- Entries with a kind-1 entry for each region they fail, of the ORIGIN of its first entry (15 R459; log 101). -/
def withFailed (narrowAllow : Bool) (es : List RepairEntry) : List RepairEntry :=
  es ++ (es.map entryRegion).eraseDups.filterMap (fun pr =>
    if regionFails narrowAllow es pr && !es.any (fun e => decide (e.kind = 1 ∧ entryRegion e = pr)) then
      some ⟨1, false, (match es.find? (fun e => decide (entryRegion e = pr)) with | some e => e.origin | none => 1),
        pr / 28, pr % 28 / 7, pr % 7, 0xFF, 0xFF, 0⟩
    else none)

/-- The map that the next die resets make effective: the stored map with the overrides (15 R460), and the regions that fail
under it and under NARROW_ALLOW (15 R459, 02 R56). -/
def State.nextMap (s : State) : List RepairEntry := withFailed s.narrowAllow (applyOverrides s.rcv.map s.dict.overrides)

/-- A row with two region entries cannot present its grid (15 R458). -/
def gridLost (v : Nat) (es : List RepairEntry) : Bool :=
  (List.range (4 * v)).any (fun i => decide (2 ≤ (rowFailed es (i / 4) (i % 4)).length))

/-- A tripped region may return: its sensor has been sampled and reads below 95 °C (13 R395). -/
def tripCooled (x : RegionPw) : Bool := decide (x.temp ≠ noTemp ∧ x.temp < 95 * 16)

/-- What a die reset takes from the repair map (15 R458, R460; 13 R395), for its own die: overrides, failed regions, the rows' shifts,
the return of tripped regions that have cooled, column repair registers. -/
def State.dieRepair (s : State) (d : Nat) : State :=
  let next := s.nextMap
  let new := next.filter (fun e => decide (e.die = d) || s.rcv.effective.contains e) ++
    s.rcv.effective.filter (fun e => decide (e.die ≠ d) && !next.contains e)
  let changed := !new.isPerm s.rcv.effective
  let s := if changed then { s with rcv := { s.rcv with effective := new } } else s
  let s := if changed then s.measureKeys else s
  let s := if s.dict.ovPending then ({ s with dict := { s.dict with ovPending := false } } : State).event srcHelm 0x6B06 [] else s
  let s := forEach (List.range 28) s (fun s i =>
    let pr := 28 * d + i
    let x := s.rpw pr
    if (x.shutter = .tripped ∨ x.shutter = .regulator) ∧ tripCooled x then
      let s := (s.setRpw pr { x with shutter := .empty }).traceRec (srcDie d) trShutter (leBytes 1 pr)
      if tget 0 s.rcv.tripShift (4 * d + i / 7) = i % 7 + 1 then
        { s with rcv := { s.rcv with tripShift := tset 0 s.rcv.tripShift (4 * d + i / 7) 0 } }
      else s
    else s)
  let s := forEach (List.range 4) s (fun s row =>
    { s with rcv := { s.rcv with rowShift := tset 0 s.rcv.rowShift (4 * d + row) (rowMapOf s.rcv.effective d row) } })
  forEach (List.range 24) s (fun s i => s.loadColumns (24 * d + i))

/-! ## BIST -/

/-- BIST's entries: what it found, with ORIGIN 1, and a kind-1 entry for each failed region. -/
def bistEntries (narrowAllow : Bool) (found : List RepairEntry) : List RepairEntry :=
  withFailed narrowAllow (found.map (fun e : RepairEntry => { e with origin := 1, cancel := false }))

/-- BIST starts (15 R461): with main power on it opens the shutter of every physical region, tripped ones apart (13 R392, R395). -/
def State.bistBegin (s : State) : State :=
  forEach s.allPhys ((s.setObj 0x6300 1 1).event srcHelm 0x6B03 [])
    (fun s pr => if s.pw.railsUp ∧ (s.rpw pr).shutter = .empty then s.openShutter pr else s)

/-- BIST ends: every ORIGIN 1 entry is replaced, ORIGIN 2 entries stay, BIST_RUNS advances, and the map is measured again (14 Table HELM-7); the
memories it tests lose their contents, the counters apart (05 R172, 06 R210), and the shutters stand as R391 gives (15 R461, R462; 13 R392). -/
def State.bistEnd (s : State) (found : List RepairEntry) : State :=
  let new := bistEntries s.narrowAllow found
  let old := s.rcv.map
  let fresh := new.any (fun e => !(old.any (fun o => decide (sameFailure o e = true ∧ o.data = e.data))))
  let kept := old.filter (fun e : RepairEntry => decide (e.origin ≠ 1))
  let s := ({ s with rcv := { s.rcv with map := kept ++ new, bistRuns := s.rcv.bistRuns + 1 } } : State).measureKeys
  let s := s.setObj 0x6300 1 (if fresh then 3 else 2)
  let s := forEach s.allRegions s (fun s r => (s.clearDataflow r).keepCounts s r)
  (if s.pw.railsUp then s.closeAllowed.openRequired else s).event srcHelm 0x6B04 []

/-! ## Row shifts -/

/-- Shift a presented region out of its row (15 R447): the mapping switches, the physical region that
becomes presented gets the row's set point, an open shutter and its column registers; the regions that move in the row keep
those that their die reset has loaded (02 R55). -/
def State.applyShift (s : State) (r : Nat) (trip : Bool) : State :=
  let pr := s.physOf r
  let row := r / 6
  let x := s.rpw pr
  let s0 := s
  let s := if x.shutter = .opened then s.closeShutter pr .empty else s
  let s :=
    if trip then { s with rcv := { s.rcv with tripShift := tset 0 s.rcv.tripShift row (pr % 7 + 1) } }
    else { s with rcv := { s.rcv with rowShift := tset 0 s.rcv.rowShift row (pr % 7 + 1) } }
  let s := s.openShutter (7 * (pr / 7) + 6)
  let s := forEach ((List.range 5).filter (fun c => decide (regionCol r ≤ c))) s (fun s c =>
    forEach (List.range 32) s (fun s i => s.takeColumns s0 (32 * (6 * row + c) + i) (32 * (6 * row + c + 1) + i)))
  let s := s.loadColumns (6 * row + 5)
  ((s.bump 0x6031 1 32 1).event srcHelm 0x6B01 (leBytes 1 (pr / 28) ++ leBytes 1 (pr % 28 / 7) ++ leBytes 1 (pr % 7)))

/-- Write an in-service region entry to the repair map, once the replay has resumed (15 R447). -/
def State.mapShift (s : State) (pr : Nat) : State := s.addRegionEntry pr

end Sys2Proof.Machine
end

