-- ==== Sys2Proof/Machine/LinkOps.lean ====
section
/-! DEFINITION. Operations of the link ports (10): torus values, training, credits, the transmitter, the
checks of a received flit, and the taps (08 R254-R277). -/

namespace Sys2Proof.Machine

/-! ## Port states and torus values -/

/-- STATE of Table LINK-10. -/
def portStNum : PortSt → Nat
  | .down => 0 | .detect => 1 | .equalise => 2 | .align => 3 | .fecLock => 4 | .identify => 5 | .active => 6 | .retrain => 7

/-- Put a port into a state; a change sets vector 18's cause (11 Table HOST-9). -/
def State.portTo (s : State) (p : Nat) (st : PortSt) : State :=
  if (s.port p).st = st then s
  else (s.modPort p (fun x => { x with st := st, since := s.now })).setCause 18

/-- The ports of the module. -/
def State.ports (s : State) : List Nat := List.range (2 * s.variant)

/-- The port's bit of LINK_ENABLE. -/
def State.linkEnabled (s : State) (p : Nat) : Bool := (s.obj 0x5010 0).testBit p

/-- Stored lengths and positions (10 R313). -/
def State.storedLen (s : State) : List Nat := (List.range 4).map (fun a => s.obj 0x5001 (a + 1))
def State.storedPos (s : State) : List Nat := (List.range 4).map (fun a => s.obj 0x5002 (a + 1))

/-- The product of a list. -/
def prodN (xs : List Nat) : Nat := xs.foldl (· * ·) 1

/-- The rules that lengths and positions must meet together (10 R313, 00 R6). -/
def torusOk (v : Nat) (len pos : List Nat) : Bool :=
  len.all (fun l => decide (1 ≤ l ∧ l ≤ 32)) && decide (prodN len ≤ 65536) &&
    (List.range 4).all (fun a => decide (pos.getD a 0 < len.getD a 1)) &&
    (decide (v ≠ 2) || decide (len.getD 2 1 = 1 ∧ len.getD 3 1 = 1))

/-- A BULK flit. -/
def isBulk (f : Flit) : Bool := decide (f.type = 0x0A)

/-- The copies through a port that leaves ACTIVE end with LINK_DOWN (11 Table HOST-7), and their flits go with them. -/
def State.dropCopies (s : State) (p : Nat) : State :=
  (forEach (s.port p).copies s (fun s c => s.endCmd c.1 0x10 p c.2.2)).modPort p (fun x =>
    { x with copies := [], sendq := tset [] x.sendq 7 [], retry := x.retry.filter (fun f => !isBulk f), resend := x.resend.filter (fun f => !isBulk f) })

/-- The lanes are aligned anew, or no longer: the frame in hand is gone, and frames count from 0 again (10 R317; log 105). -/
def Port.unframed (x : Port) : Port := { x with frame := [], frameNo := 0, frameMask := 0, levels := [] }

/-- A port that is DOWN or about to be: no exchange, no frame, no lane; WIDTH of a DOWN port reads 0 (DESIGN CHOICE, log 124). -/
def Port.fallen (x : Port) : Port := { x.unframed with genOpen := false, genSend := none, txMask := 0, rxMask := 0 }

/-- A failed attempt (10 R320): DOWN, code, count, event, next attempt after 1 s. Like every port that goes DOWN it has no lanes then (log 124). -/
def State.trainFail (s : State) (p code : Nat) : State :=
  let s := (s.dropCopies p).portTo p .down
  let s := s.modPort p (fun x => { x.fallen with retryAt := some (s.now + 1000000000) })
  let s := (s.setObj (0x5020 + p) 4 code).bump (0x5020 + p) 0xA 32 1
  s.event (srcLink p) 0x5B03 (leBytes 1 p ++ leBytes 1 code)

/-- A port trains afresh: DOWN, with no delay. -/
def State.trainAfresh (s : State) (p : Nat) : State :=
  ((s.dropCopies p).portTo p .down).modPort p (fun x => { x.fallen with retryAt := none })

/-- The stored values break the rules, and a port of theirs fails with them until they do not (10 R313). -/
def State.torusBlocked (s : State) (p : Nat) : Bool :=
  !(torusOk s.variant s.storedLen s.storedPos) && s.linkEnabled p && decide (2 ≤ s.storedLen.getD (portAxis p) 1)

/-- Stored torus values come into effect when they meet the rules (10 R313); then every port that is not
DOWN, and every enabled port of an axis whose length changes, trains afresh: a DOWN one without waiting for its retry. A port that a module with
unchanged values has trained is left alone (DEDUCED, log 14). -/
def State.torusEffect (s : State) : State :=
  let len := s.storedLen
  let pos := s.storedPos
  if torusOk s.variant len pos then
    if len = s.link.len ∧ pos = s.link.pos then s
    else
      let old := s.link.len
      let s := { s with link := { s.link with len := len, pos := pos } }
      forEach s.ports s (fun s p =>
        if (s.port p).st ≠ .down then s.trainAfresh p
        else if s.linkEnabled p ∧ len.getD (portAxis p) 1 ≠ old.getD (portAxis p) 1 then s.modPort p (fun x => { x with retryAt := none })
        else s)
  else
    forEach s.ports s (fun s p =>
      if s.linkEnabled p ∧ 2 ≤ len.getD (portAxis p) 1 then s.trainFail p 0x0A else s)

/-- MODULE_ADDR (10 R313). -/
def moduleAddr (pos : List Nat) : Nat :=
  pos.getD 0 0 + pos.getD 1 0 * 2 ^ 5 + pos.getD 2 0 * 2 ^ 10 + pos.getD 3 0 * 2 ^ 15

/-- ESTABLISHED (10 R315): every port on an axis of length 2 or more is ACTIVE. -/
def State.established (s : State) : Bool :=
  s.ports.all (fun p => decide (s.axisLen (portAxis p) < 2) || decide ((s.port p).st = .active))

/-- Every port of an axis of length 2 or more is ACTIVE: the condition of 15 R444. -/
def State.linksBack (s : State) : Bool := s.established

/-- Main power is up far enough for ports to train (10 R320, 13 R400 step 7). -/
def State.linkPower (s : State) : Bool :=
  s.pw.permit && s.pw.railsUp && (decide (s.pw.state = .on) || (decide (s.pw.state = .starting) && decide (7 ≤ s.pw.stage)))

/-- The widest healthy set (10 R333). -/
def widest (m : Nat) : Nat :=
  if m % 16 = 15 then 15
  else if m % 4 = 3 then 3
  else if m / 4 % 4 = 3 then 12
  else if m % 2 = 1 then 1 else if m / 2 % 2 = 1 then 2 else if m / 4 % 2 = 1 then 4 else if m / 8 % 2 = 1 then 8 else 0

/-- The number of lanes of a mask. -/
def lanes (m : Nat) : Nat := (activeLanes m).length

/-- The widest healthy set that is no wider than the present one: a RETRAIN keeps or reduces the width (10 R333, R334). -/
def narrowTo (present healthy : Nat) : Nat :=
  if healthy % 16 = 15 ∧ lanes present = 4 then 15
  else if healthy % 4 = 3 ∧ 2 ≤ lanes present then 3
  else if healthy / 4 % 4 = 3 ∧ 2 ≤ lanes present then 12
  else match activeLanes healthy with | [] => 0 | i :: _ => 2 ^ i

/-! ## Credits and generations (10 R322, R330) -/

/-- The receive slots of a virtual channel (10 Table LINK-9). -/
def vcSlots (vc : Nat) : Nat :=
  match vc with
  | 0 => 4 | 1 => 256 | 2 => 512 | 7 => 252 | _ => 256

/-- BULK flits in the retry buffer whose copy is in progress go back to their queue: the copy goes on after an exchange (11 R353;
log 104). -/
def Port.bulkBack (x : Port) : Port :=
  let gone := sumN ((x.copies.filter (fun c => decide (c.1 = 0))).map (fun c => c.2.1))
  { x with
    sendq := tmod [] x.sendq 7 (fun q => (x.retry.filter isBulk).drop gone ++ q), copies := x.copies.filter (fun c => decide (c.1 ≠ 0)) }

/-- Step 1 of a generation exchange: buffers discarded, sequence numbers and CFREE counts at 0. -/
def Port.restart (x : Port) : Port :=
  { x.bulkBack with
    txSeq := 0, rxSeq := 0, retry := [], resend := [], rxbuf := [], freed := [], reported := [], seenFree := [], credits := []
    nakPend := false, nakFor := none, nakRun := 0, resFor := none, genOpen := true
    taps := x.taps.map (fun t => (t.1, { t.2 with queue := [] })) }

/-- The end of an exchange: the partner's tag is recorded and credits are full. -/
def Port.exchanged (x : Port) (tag : Nat) : Port :=
  { x with partnerGen := tag, genOpen := false, genSend := none, seenFree := [], credits := (List.range 8).foldl (fun t vc => tset 0 t vc (vcSlots vc)) [] }

/-! ## What a header brings (10 R318, R323, R328) -/

/-- (a − b) modulo 4,096. -/
def seqDiff (a b : Nat) : Nat := (a + 4096 - b % 4096) % 4096

/-- Bytes of a BULK flit: BYTES at offset 8 of the payload (10 Table LINK-5). -/
def bulkBytes (f : Flit) : Nat := fieldAt f.payload 8 1

/-- Count acknowledged BULK flits against the copies of a port, oldest first. -/
def ackCopies : List Flit → List (Nat × Nat × Nat) → List (Nat × Nat × Nat)
  | [], cs => cs
  | f :: fs, cs =>
    if f.type = 0x0A then
      (match cs with
       | [] => []
       | (seq, n, b) :: rest =>
         if n = 0 then (seq, n, b) :: (match rest with
           | [] => []
           | (q, m, c) :: r => ackCopies fs ((q, m - 1, c + bulkBytes f) :: r))
         else ackCopies fs ((seq, n - 1, b + bulkBytes f) :: rest))
    else ackCopies fs cs

/-- End the COPY commands of a port whose every flit is acknowledged (11 R353). -/
def State.endCopies (s : State) (p : Nat) : State :=
  let done := (s.port p).copies.filter (fun c => decide (c.2.1 = 0))
  let s := forEach done s (fun s c => s.endCmd c.1 0 0 c.2.2)
  s.modPort p (fun x => { x with copies := x.copies.filter (fun c => decide (c.2.1 ≠ 0)) })

/-- ACK, NAK and CFREE of a header: the retry buffer, what is to be sent again, credits. -/
def State.rxHeader (s : State) (p : Nat) (f : Flit) : State :=
  let x := s.port p
  let acked := x.retry.filter (fun g => decide (1 ≤ seqDiff f.ack g.seq ∧ seqDiff f.ack g.seq ≤ 2048))
  let keep := x.retry.filter (fun g => !(decide (1 ≤ seqDiff f.ack g.seq ∧ seqDiff f.ack g.seq ≤ 2048)))
  let gained := seqDiff f.cfree (tget 0 x.seenFree f.cvc)
  let x := { x with
    retry := keep, resend := (if f.nak then keep else x.resend.filter (fun g => keep.contains g)),
    credits := tmod 0 x.credits f.cvc (· + gained), seenFree := tset 0 x.seenFree f.cvc f.cfree,
    copies := ackCopies acked x.copies }
  (s.setPort p x).endCopies p

/-- A receive slot of a virtual channel is freed. -/
def Port.free (x : Port) (vc : Nat) : Port := { x with freed := tmod 0 x.freed vc (fun n => (n + 1) % 4096) }

/-- Ask for a resend from the expected SEQ (10 R328): once per lost SEQ, and again when a resend of it
fails. -/
def State.sendNak (s : State) (p : Nat) (again : Bool) : State :=
  s.modPort p (fun x =>
    if x.nakFor = some x.rxSeq ∧ again = false then x
    else { x with nakPend := true, nakFor := some x.rxSeq })

/-- A reset of the link engine, or of a domain that encloses it, is under way: the port neither sends nor takes a flit. -/
def State.linkReset (s : State) (p : Nat) : Bool :=
  s.rcv.resets.any (fun r => match r.kind with
    | .link => decide (r.ix = p)
    | .die => decide (r.ix = p / 2)
    | .module => true
    | _ => false)

/-- The link engine's door, toward its taps and the fabric, holds back what comes in (15 R431). -/
def State.linkDoor (s : State) (p : Nat) : Bool := s.doorClosed .link p || s.linkReset p

/-- A flit that the engine handles itself comes in at a closed door too: REPLAY (15 R441). -/
def State.rxHeld (s : State) (p type : Nat) : Bool := if type = 9 then s.linkReset p else s.linkDoor p

/-- What a received flit of a type does to a port that is ACTIVE and whose door is open (10 R328, R330):
its GEN, TYPE, virtual channel and SEQ are checked before `k` is given the state. In an exchange every sequenced flit is dropped
and counted. A SEQ exactly 2,048 away, which R328 leaves both later and earlier, is taken as later (DESIGN CHOICE, log 129). -/
def State.rxSequenced (s : State) (p : Nat) (f : Flit) (type : Nat) (vcOk : Bool) (k : State → State) : State :=
  let x := s.port p
  if x.st ≠ .active ∨ s.rxHeld p type then s
  else if x.genOpen then s.bump (0x5020 + p) 8 64 1
  else if f.gen ≠ x.partnerGen then s.bump (0x5020 + p) 8 64 1
  else if f.type ≠ type ∨ ¬ vcOk then s.sendNak p true
  else if f.seq = x.rxSeq then
    let s := s.rxHeader p f
    k (s.modPort p (fun x => { x with rxSeq := (x.rxSeq + 1) % 4096, nakFor := none, nakRun := 0, resFor := none }))
  else if seqDiff f.seq x.rxSeq ≤ 2048 then s.sendNak p false
  else s

/-! ## Taps (08 R254-R256) -/

/-- The record of the tap of a port on a virtual channel: USE 2 is VC1, the others VC2. -/
def tapVc (r : TapRec) : Nat := if r.use = 2 then 1 else 2

def Chart.taps (c : Chart) : List TapRec :=
  match c.map with
  | some m => m.taps
  | none => []

def State.tapRec (s : State) (p vc : Nat) : Option TapRec :=
  match s.chart with
  | some c => c.taps.find? (fun r => decide (r.port = p ∧ tapVc r = vc))
  | none => none

/-- The tap, if any, bound to a side of a tile: its port and virtual channel. -/
def State.tapAt (s : State) (t : Nat) (d : Dir) : Option (Nat × Nat) :=
  match s.chart with
  | some c =>
    (c.taps.find? (fun r => decide (c.tileList.getD r.tile 0 = t ∧ r.side = dirIx d ∧ r.tile < c.tiles.length))).map
      (fun r => (r.port, tapVc r))
  | none => none

/-- The tap tile and side of a record. -/
def State.tapTile (s : State) (r : TapRec) : Nat × Dir :=
  match s.chart with
  | some c => (c.tileList.getD r.tile 0, dirOf r.side)
  | none => (0, .north)

def Port.tap (x : Port) (vc : Nat) : Tap := tget {} x.taps vc
def Port.setTap (x : Port) (vc : Nat) (t : Tap) : Port := { x with taps := tset {} x.taps vc t }

/-- The tokens of a TOKEN or KVTOKEN payload (10 Table LINK-6). -/
def flitTokens (f : Flit) : List Token :=
  let v := fieldAt f.payload 0xC1 1
  (List.range (min 3 (fieldAt f.payload 0xC0 1))).map
    (fun i => ⟨BitVec.ofNat 512 (fieldAt f.payload (0x40 * i) 64), v.testBit i⟩)

/-- A payload of up to three tokens. -/
def tokenPayload (ts : List Token) : List Byte :=
  let b := ts.flatMap (fun t => leBytes 64 t.data.toNat)
  let v := packElems 1 (ts.map (fun t => if t.void then 1 else 0))
  (b ++ zeros 192).take 192 ++ leBytes 1 ts.length ++ leBytes 1 v ++ zeros 46

/-- Mark the last of a list. -/
def markLast : List Token → List (Token × Bool)
  | [] => []
  | [t] => [(t, true)]
  | t :: ts => (t, false) :: markLast ts

/-- A tap counts tokens it has received: those that come when the module has reported ready belong to the interval after the waypoint, which a
neighbour that was released first has begun (08 R265). -/
def Tap.count (t : Tap) (n : Nat) (reported : Bool) : Tap :=
  if reported then { t with early := t.early + n } else { t with recvd := t.recvd + n, passRecv := t.passRecv + n }

/-- A flit's tokens reach the tap in slot order (10 R319). -/
def State.tapReceive (s : State) (p vc : Nat) (ts : List Token) : State :=
  s.modPort p (fun x =>
    let t := x.tap vc
    x.setTap vc { t.count ts.length s.redn.barrier.reported with queue := t.queue ++ markLast ts })

/-- Kind and round of token `i` of a ring port's tap in a pass of `n` tokens (08 R276, Table MAP-7): the F
slots send L − 1 K/V blocks each, then the B slots a K/V and a dK/dV block a round and a last dK/dV
block. -/
def kvTag (L kv dkv n i : Nat) : Nat × Nat :=
  let slots := n / (2 * (L - 1) * kv + L * dkv)
  let f := slots * ((L - 1) * kv)
  if i < f then (0, i / kv % (L - 1))
  else
    let j := (i - f) % ((L - 1) * (kv + dkv) + dkv)
    let r := j / (kv + dkv)
    if r < L - 1 ∧ j % (kv + dkv) < kv then (0, r) else (1, r)

/-- The slot that token `i` lies in: F slots, then B slots. -/
def kvSlot (L kv dkv n i : Nat) : Nat :=
  let slots := n / (2 * (L - 1) * kv + L * dkv)
  let f := slots * ((L - 1) * kv)
  if i < f then i / ((L - 1) * kv) else slots + (i - f) / ((L - 1) * (kv + dkv) + dkv)

/-- Kind and round as the sequencer counts them (08 R277): its count starts again at a pass start and at every waypoint, where
`base` tokens of the pass had gone. -/
def kvRound (L kv dkv n base i : Nat) : Nat × Nat :=
  let k := kvTag L kv dkv n i
  if base ≠ 0 ∧ base ≤ i ∧ kvSlot L kv dkv n base = kvSlot L kv dkv n i then (k.1, k.2 - (kvTag L kv dkv n base).2) else k

/-- Tokens left in the block that token `i` lies in. -/
def kvLeft (L kv dkv n i : Nat) : Nat :=
  let slots := n / (2 * (L - 1) * kv + L * dkv)
  let f := slots * ((L - 1) * kv)
  if i < f then kv - i % kv
  else
    let j := (i - f) % ((L - 1) * (kv + dkv) + dkv) % (kv + dkv)
    if (i - f) % ((L - 1) * (kv + dkv) + dkv) < (L - 1) * (kv + dkv) then (if j < kv then kv - j else kv + dkv - j)
    else dkv - j

/-- The ring record of a port. -/
def State.ringOf (s : State) (p : Nat) : Option RingRec :=
  match s.chart with
  | some c =>
    (match c.map with
     | some m => m.rings.find? (fun r => decide (r.send = p ∨ r.recv = p))
     | none => none)
  | none => none

/-- The position on an axis in effect. -/
def State.axisPos (s : State) (a : Nat) : Nat := s.link.pos.getD a 0

/-- (a − b) mod L. -/
def modSub (L a b : Nat) : Nat := (a + L * (b / L + 1) - b) % L

/-- Machine counters of the mapping (08 Table MAP-10). -/
def State.countTap (s : State) (sub k : Nat) : State := s.bump 0x9050 sub 64 k

/-! ## The transmitter (10 R324) -/

/-- The next virtual channel, in rotation after the last reported, whose CFREE count has changed. -/
def Port.nextCvc (x : Port) : Nat :=
  match (List.range 8).find? (fun i =>
      let vc := (x.lastCvc + 1 + i) % 8
      decide (tget 0 x.freed vc ≠ tget 0 x.reported vc)) with
  | some i => (x.lastCvc + 1 + i) % 8
  | none => x.lastCvc

/-- A virtual channel has a flit and a credit. -/
def Port.ready (x : Port) (vc : Nat) : Bool := !(tget [] x.sendq vc).isEmpty && decide (0 < tget 0 x.credits vc)

/-- The choice of 10 R324 among sequenced flits: VC0, VC1-VC6 in rotation with VC7 in every 16th slot, VC7. -/
def Port.choose (x : Port) : Option Nat :=
  if x.ready 0 then some 0
  else if x.slot16 % 16 = 15 ∧ x.ready 7 then some 7
  else
    match (List.range 6).find? (fun i => x.ready ((x.rotation - 1 + i) % 6 + 1)) with
    | some i => some ((x.rotation - 1 + i) % 6 + 1)
    | none => if x.ready 7 then some 7 else none

/-- The symbols of the frame that a port has sent whole (10 R316, R317). -/
def Port.sentSymbols (x : Port) : Option (List Nat) :=
  if x.frame.length = 10 then some (frameSymbols (frameMessage x.frameNo x.frameMask x.frame)) else none

/-- The PAM4 levels that the active lanes carry for the frame that a port has sent whole: the symbols in rotation, Gray coded, precoded on
the lanes for which training agreed it (10 R316, Table LINK-2). -/
def Port.laneLevels (x : Port) : List (Nat × List Nat) :=
  match x.sentSymbols with
  | none => []
  | some ss =>
    (activeLanes x.frameMask).zipIdx.map (fun k =>
      let ls := (laneSymbols (lanes x.frameMask) k.2 ss).flatMap symbolLevels
      (k.1, if x.precoded.testBit k.1 then precode (tget 0 x.levels k.1) ls else ls))

/-- The levels that stand last on the lanes when a frame has been sent whole. -/
def Port.lastLevels (x : Port) : Tab Nat := x.laneLevels.foldl (fun t k => tset 0 t k.1 (k.2.getLastD 0)) x.levels

/-- The flit takes its place in the frame being sent, or begins the next one (10 R317). -/
def Port.frameNext (x : Port) (g : Flit) : Port :=
  if x.frame = [] then { x with frame := [g], frameMask := x.txMask }
  else if 10 ≤ x.frame.length then
    { x with levels := x.lastLevels, frame := [g], frameNo := (x.frameNo + 1) % 256, frameMask := x.txMask }
  else { x with frame := x.frame ++ [g] }

/-- The IDENT payload this module sends on a port (10 Table LINK-8). -/
def State.ownIdent (s : State) (p : Nat) : List Byte :=
  leBytes 1 s.variant ++ [0xB1] ++ leBytes 1 (s.fwVer s.helm.running / 2 ^ 24) ++ leBytes 1 p ++
    (List.range 4).flatMap (fun i => leBytes 1 (s.link.len.getD i 1)) ++ (List.range 4).flatMap (fun i => leBytes 1 (s.link.pos.getD i 0)) ++
    zeros 4 ++ leBytes 8 s.serial.toNat ++ zeros 216

/-- Put a flit on the lanes with ACK, NAK, CVC, CFREE and GEN of the moment; an IDLE flit has no GEN (10 Table LINK-5). A NAK counts when it
is sent (10 R331). -/
def State.emit (s : State) (p : Nat) (f : Flit) : State :=
  let x := s.port p
  let cvc := x.nextCvc
  let g := { f with ack := x.rxSeq, nak := x.nakPend, cvc := cvc, cfree := tget 0 x.freed cvc, gen := if f.type = 0 then 0 else s.tag .link p }
  let s := if x.nakPend then s.bump (0x5020 + p) 7 64 1 else s
  let times := if x.nakPend then x.nakTimes.filter (fun t => inWindow 1000000 s.now t) ++ [s.now] else x.nakTimes
  s.setPort p { x.frameNext g with lastTx := some g, nakPend := false, nakTimes := times, nakRun := (if x.nakPend then x.nakRun + 1 else x.nakRun), lastCvc := cvc, reported := tset 0 x.reported cvc (tget 0 x.freed cvc), slot16 := (x.slot16 + 1) % 16 }

/-- An onward flit held in the facing port's VC2 receive buffer (10 R326). -/
def State.onward (s : State) (p : Nat) : Option Flit := (tget [] (s.port (p ^^^ 1)).rxbuf 2).head?

/-- A flit that begins a chain joins its virtual channel's queue when two credits are free beyond the flits that wait (09 R305, 10
R327). -/
def Port.beginChains (x : Port) : Port :=
  [3, 4, 5, 6].foldl (fun x vc =>
    match tget [] x.startq vc with
    | f :: rest =>
      if (tget [] x.sendq vc).length + 2 ≤ tget 0 x.credits vc then
        { x with startq := tset [] x.startq vc rest, sendq := tmod [] x.sendq vc (· ++ [f]) }
      else x
    | [] => x) x

/-- A flit of the reduction is sent: it counts in REDN_FLITS (09 Table REDN-11). -/
def State.countRed (s : State) (f : Flit) : State :=
  if 3 ≤ f.type ∧ f.type ≤ 5 then s.bump 0x9060 2 64 1 else s

/-- Send the next flit (10 R324): IDENT in IDENTIFY, GEN in an exchange, a retransmission, the chosen virtual channel, IDLE. -/
def State.transmit (s : State) (p : Nat) : State :=
  -- a flit to forward joins VC2's queue when its receive slot may be freed
  let s :=
    match s.onward p with
    | some f =>
      if (s.port p).st = PortSt.active ∧ ¬ (s.port p).genOpen ∧ (tget [] (s.port p).sendq 2).length < tget 0 (s.port p).credits 2 then
        let s := s.queueFlit p { f with hops := f.hops - 1 }
        s.modPort (p ^^^ 1) (fun x => ({ x with rxbuf := tset [] x.rxbuf 2 (tget [] x.rxbuf 2).tail }).free 2)
      else s
    | none => s
  let x := (s.port p).beginChains
  if x.st = .identify then s.emit p (mkFlit 0x0F 0 (s.ownIdent p))
  else
  match x.genSend with
  | some e => (s.emit p (mkFlit 0x0E 0 (leBytes 1 (s.tag .link p) ++ leBytes 1 (if e then 1 else 0)))).modPort p (fun x => { x with genSend := if e then none else some false })
  | none =>
    if x.genOpen then s.emit p (mkFlit 0 0 [])
    else
      match x.resend with
      | f :: rest => (s.emit p f).modPort p (fun x => { x with resend := rest })
      | [] =>
        if 512 ≤ x.retry.length then s.emit p (mkFlit 0 0 [])
        else
          match x.choose with
          | none => s.emit p (mkFlit 0 0 [])
          | some vc =>
            match tget [] x.sendq vc with
            | [] => s.emit p (mkFlit 0 0 [])
            | f :: rest =>
              let g := { f with seq := x.txSeq }
              let s := s.setPort p { x with
                sendq := tset [] x.sendq vc rest, txSeq := (x.txSeq + 1) % 4096, retry := x.retry ++ [g],
                credits := tmod 0 x.credits vc (· - 1), rotation := (if 1 ≤ vc ∧ vc ≤ 6 then vc % 6 + 1 else x.rotation) }
              (s.countRed g).emit p g

/-! ## Ranges of device memory (05 R148, 06 R183, 11 R353) -/

/-- A range of device memory overlaps another. -/
def overlaps (a n b m : Nat) : Bool := decide (a < b + m ∧ b < a + n ∧ 0 < n ∧ 0 < m)

/-- The protected image (05 R148): from the start of CHART_LOAD until it fails or CHART_UNLOAD completes. -/
def State.protects (s : State) (a n : Nat) : Bool :=
  (match s.chart with
   | some c => overlaps a n c.image c.size
   | none => false) ||
  s.hi.cmds.any (fun c => decide (c.opcode = 1 ∧ c.jstate = 2) && !c.ended && s.chart.isNone &&
    overlaps a n (fieldAt c.entry 8 8) (s.devNat (fieldAt c.entry 8 8 + 8) 8))

/-- A range lies in the variant's device memory. -/
def State.inDevice (s : State) (a n : Nat) : Bool := decide (a + n ≤ s.devTop)

/-- The range of a tensor record: its own address, or the one BIND gave (05 R158); none while unbound. -/
def Chart.tensorRange (c : Chart) (i : Nat) : Option (Nat × Nat) :=
  match c.tensors[i]? with
  | none => none
  | some t =>
    if t.bound then (if tget 0 c.tensorAt i = 0 then none else some (tget 0 c.tensorAt i - 1, t.bytes))
    else some (t.addr, t.bytes)

/-- During a RUN the ranges of the running chart's tensor table are protected too (06 R183). -/
def State.runProtects (s : State) (a n : Nat) : Bool :=
  match s.run, s.chart with
  | some _, some c =>
    (List.range c.tensors.length).any (fun i =>
      match c.tensorRange i with
      | some (b, m) => overlaps a n b m
      | none => false)
  | _, _ => false

/-- A write from outside may not touch a range: protected image, running chart's tensors or journal
reservation (11 R342, R353). -/
def State.writeRefused (s : State) (a n : Nat) : Bool :=
  s.protects a n || s.runProtects a n || overlaps a n journalBase journalBytes


/-! ## Ports going DOWN -/

/-- A port goes DOWN (10 R331): event, its copies end with LINK_DOWN, it trains afresh. The code of the cause (0 a RETRAIN
that failed, 1 the loss of the reference) is a free value. -/
def State.portDown (s : State) (p cause : Nat) : State :=
  let was := portStNum (s.port p).st
  let s := (s.portTo p .down).event (srcLink p) 0x5B01 (leBytes 1 p ++ leBytes 1 was ++ [Config.eventField 0x5B01 cause])
  (s.dropCopies p).modPort p (fun x => { x.fallen with retryAt := none, again := false })

/-- A port that has lost its power: WIDTH and PARTNER_SERIAL go on reading as they last did (12 R377). -/
def Port.off (x : Port) (now : Nat) : Port :=
  { since := now, txMask := x.txMask, rxMask := x.rxMask, ident := x.ident }

/-- PRE_FEC_BER of a port with power: a free value where it has receive lanes, else its default (10 Table LINK-10; log 69). -/
def State.berNow (s : State) (p : Nat) : Nat :=
  if (s.port p).rxMask = 0 then 0 else (Config.freeValue s.freeCount).toNat % 2 ^ 32

/-- PRE_FEC_BER as it last was, which a port without power goes on reading as (12 R377). -/
def State.keepBer (s : State) (p : Nat) : State :=
  if s.pw.railsUp then { s.setObj (0x5020 + p) 0xB (s.berNow p) with freeCount := s.freeCount + 1 } else s

/-- Every port falls with main power (11 Table HOST-9). -/
def State.linksOff (s : State) : State :=
  let up := s.ports.any (fun p => decide ((s.port p).st ≠ .down))
  let s := forEach s.ports s (fun s p => (s.keepBer p).setPort p ((s.port p).off s.now))
  if up then s.setCause 18 else s

/-! ## Retraining that is asked for -/

/-- The stored torus values take effect and each named port starts a full training, one that they hold back apart (10 R313, R334). -/
def State.retrainPorts (s : State) (v : Nat) : State :=
  let s := s.torusEffect
  forEach (s.ports.filter (fun p => v.testBit p && !s.torusBlocked p)) s (fun s p => s.trainAfresh p)

/-- LINK_RETRAIN (10 R334); with main power off the write is stored (12 R377). -/
def State.linkRetrain (s : State) (v : Nat) : State :=
  if s.pw.railsUp then s.retrainPorts v
  else { s with link := { s.link with retrain := some ((s.link.retrain.getD 0) ||| v) } }

/-- The ports have power: WIDTH of a DOWN port reads 0 (log 124), and a stored LINK_RETRAIN takes effect (12 R377). -/
def State.linksOn (s : State) : State :=
  let s := forEach s.ports s (fun s p => s.modPort p (fun x => { x with txMask := 0, rxMask := 0 }))
  match s.link.retrain with
  | some v => ({ s with link := { s.link with retrain := none } } : State).retrainPorts v
  | none => s

end Sys2Proof.Machine
end

