-- ==== Sys2Proof/Machine/Operands.lean ====
section
/-! DEFINITION. The operands of a step entry: the fields of its slots (02 Tables TILE-15 to TILE-22), of
stream, steering and window descriptors (02 R74, 04 R126, 06 R186), the scratchpad and its streams
(02 R63, R66, R75; 05 R157), and array shapes (02 Table TILE-3). -/

namespace Sys2Proof.Machine

/-- Bits [hi:lo] of a slot. -/
def slotBits (w : W32) (hi lo : Nat) : Nat := bitsOf w.toNat hi lo

/-! ## CTRL (02 Table TILE-16) -/
def Entry.isNull (e : Entry) : Bool := e.ctrl.getLsbD 31
def Entry.isWpt (e : Entry) : Bool := e.ctrl.getLsbD 30
def Entry.isChk (e : Entry) : Bool := e.ctrl.getLsbD 29
def Entry.seq (e : Entry) : Nat := slotBits e.ctrl 28 27
def Entry.tgt (e : Entry) : Nat := slotBits e.ctrl 26 16
def Entry.loop (e : Entry) : Nat := slotBits e.ctrl 15 13
def Entry.rep (e : Entry) : Nat := slotBits e.ctrl 11 0

/-! ## ARRAY (02 Table TILE-17) -/
def Entry.aop (e : Entry) : Nat := slotBits e.array 31 28
def Entry.afmt (e : Entry) : Nat := slotBits e.array 27 24
def Entry.aplane (e : Entry) : Nat := slotBits e.array 23 23
def Entry.asrc (e : Entry) : Nat := slotBits e.array 22 20
def Entry.bsrc (e : Entry) : Nat := slotBits e.array 19 17
def Entry.mix (e : Entry) : Bool := e.array.getLsbD 16
def Entry.dstr (e : Entry) : Nat := slotBits e.array 15 12
def Entry.ddst (e : Entry) : Nat := slotBits e.array 11 9
def Entry.arnd (e : Entry) : Bool := e.array.getLsbD 8
/-- AOP is MAC or MACZ; a drain. -/
def Entry.isMac (e : Entry) : Bool := decide (e.aop = 1 ∨ e.aop = 2)
def Entry.isDrain (e : Entry) : Bool := decide (e.aop = 3 ∨ e.aop = 4)

/-! ## GEMV (02 Table TILE-19) -/
def Entry.gop (e : Entry) : Nat := slotBits e.gemv 31 29
def Entry.gfmt (e : Entry) : Nat := slotBits e.gemv 28 25
def Entry.wstr (e : Entry) : Nat := slotBits e.gemv 24 21
def Entry.xstr (e : Entry) : Nat := slotBits e.gemv 20 17
def Entry.xidx (e : Entry) : Nat := slotBits e.gemv 16 5
def Entry.yacc (e : Entry) : Nat := slotBits e.gemv 4 1
def Entry.grnd (e : Entry) : Bool := e.gemv.getLsbD 0

/-! ## VEC (02 Table TILE-20) -/
def Entry.vop (e : Entry) : Nat := slotBits e.vec 31 26
def Entry.vd (e : Entry) : Nat := slotBits e.vec 25 21
def Entry.va (e : Entry) : Nat := slotBits e.vec 20 16
def Entry.vb (e : Entry) : Nat := slotBits e.vec 15 11
def Entry.vc (e : Entry) : Nat := slotBits e.vec 10 6
/-- The format code in VC[3:0]. -/
def Entry.vfmt (e : Entry) : Nat := e.vc % 16
def Entry.vstr (e : Entry) : Nat := slotBits e.vec 5 2
def Entry.vpop (e : Entry) : Bool := e.vec.getLsbD 1
def Entry.vsub (e : Entry) : Bool := e.vec.getLsbD 0

/-! ## MEM0, MEM1, MEM2 (02 Table TILE-21) -/
def Entry.mem (e : Entry) (i : Nat) : W32 := if i = 0 then e.mem0 else if i = 1 then e.mem1 else e.mem2
def Entry.mop (e : Entry) (i : Nat) : Nat := slotBits (e.mem i) 31 28
def Entry.str (e : Entry) (i : Nat) : Nat := slotBits (e.mem i) 27 24
def Entry.mport (e : Entry) (i : Nat) : Dir := dirOf (slotBits (e.mem i) 23 22)
def Entry.tdst (e : Entry) (i : Nat) : Nat := slotBits (e.mem i) 21 20
def Entry.str2 (e : Entry) (i : Nat) : Nat := slotBits (e.mem i) 19 16
def Entry.ew (e : Entry) (i : Nat) : Nat := slotBits (e.mem i) 13 12
def Entry.adv (e : Entry) (i : Nat) : Bool := (e.mem i).getLsbD 11

/-! ## ROUTE (02 Table TILE-22) -/
def Entry.osel (e : Entry) (d : Dir) : Nat :=
  match d with
  | .north => slotBits e.route 31 29 | .east => slotBits e.route 28 26
  | .south => slotBits e.route 25 23 | .west => slotBits e.route 22 20
def Entry.sfire (e : Entry) (u : Nat) : Bool := e.route.getLsbD (16 + u)

/-! ## Stream descriptors (02 Table TILE-14) -/
def sdBase (d : W64) : Nat := bitsOf d.toNat 63 47
def sdStride (d : W64) : Nat := bitsOf d.toNat 46 29
def sdCount (d : W64) : Nat := bitsOf d.toNat 28 17
def sdWidthCode (d : W64) : Nat := bitsOf d.toNat 16 14
/-- Words per access. -/
def sdWidth (d : W64) : Nat := 2 ^ sdWidthCode d
def sdPlist (d : W64) : Bool := d.getLsbD 13
def sdPlidx (d : W64) : Nat := bitsOf d.toNat 12 9
def sdCset (d : W64) : Nat := bitsOf d.toNat 8 6

/-- The stride as a step modulo 131,072 words. -/
def strideStep (d : W64) : Nat := unsigned 17 (signed 18 (sdStride d))

/-! ## Steering descriptors (04 Table FLOW-5) -/
def stMode (d : W64 × W64) : Nat := bitsOf d.1.toNat 63 61
def stDin (d : W64 × W64) : Nat := bitsOf d.1.toNat 60 58
def stIn1 (d : W64 × W64) : Nat := bitsOf d.1.toNat 57 55
def stBsrc (d : W64 × W64) : Nat := bitsOf d.1.toNat 54 52
def stBpt (d : W64 × W64) : Nat := if bitsOf d.1.toNat 51 48 = 0 then 16 else bitsOf d.1.toNat 51 48
def stOut0 (d : W64 × W64) : Nat := bitsOf d.1.toNat 47 45
def stOut1 (d : W64 × W64) : Nat := bitsOf d.1.toNat 44 42
def stTrip (d : W64 × W64) : Nat := if bitsOf d.1.toNat 39 32 = 0 then 256 else bitsOf d.1.toNat 39 32
def stPlen (d : W64 × W64) : Nat := bitsOf d.1.toNat 31 27
def stPattern (d : W64 × W64) (i : Nat) : Bool := d.2.getLsbD i

/-! ## Window descriptors (06 Table TIER-2) -/
def wdBase (b : List Byte) : Nat := fieldAt b 0 4 % 131072
def wdWords (b : List Byte) : Nat := fieldAt b 4 4 % 262144
def wdOpen (b : List Byte) : Nat := fieldAt b 8 2
def wdClose (b : List Byte) : Nat := fieldAt b 10 2
def wdMode (b : List Byte) : Nat := fieldAt b 12 1
def wdEvery (b : List Byte) : Nat := fieldAt b 13 1 % 16
def wdRing (b : List Byte) : Bool := bitOf (fieldAt b 14 1) 0

/-! ## The tile image a tile runs -/

/-- The image loaded into a tile. -/
def State.img (s : State) (t : Nat) : Option TileImg :=
  match s.chart with
  | some c =>
    (match c.tileIdx t with
     | some i => c.tiles[i]?
     | none => none)
  | none => none

def TileImg.entryAt (m : TileImg) (i : Nat) : Entry := m.entries.getD i {}
def TileImg.sd (m : TileImg) (i : Nat) : W64 := m.streams.getD i 0
def TileImg.steerOf (m : TileImg) (u : Nat) : W64 × W64 := m.steer.getD u (0, 0)
def TileImg.win (m : TileImg) (k : Nat) : List Byte := m.wins.getD k (zeros 16)
/-- First entry and length of pointer list k (05 R156). -/
def TileImg.plFirst (m : TileImg) (k : Nat) : Nat := m.pldesc.getD k 0 % 256
def TileImg.plLen (m : TileImg) (k : Nat) : Nat := m.pldesc.getD k 0 / 256 + 1

/-! ## The scratchpad (02 R63-R68) -/

/-- What a word nothing has written since the last loss reads as. -/
def Spad.blank (p : Spad) (a : Nat) : W32 := if p.epoch = 0 then 0 else Config.lostWord p.epoch a

def Spad.read (p : Spad) (a : Nat) : W32 := tget (p.blank (a % 131072)) p.cells (a % 131072)

def Spad.write (p : Spad) (a : Nat) (w : W32) : Spad :=
  { p with cells := tset (p.blank (a % 131072)) p.cells (a % 131072) w }

def Spad.readN (p : Spad) (a n : Nat) : List W32 := (List.range n).map (fun i => p.read (a + i))

def Spad.writeN (p : Spad) : Nat → List W32 → Spad
  | _, [] => p
  | a, w :: ws => (p.write a w).writeN (a + 1) ws

/-- A word address lies in the east half. -/
def eastHalf (a : Nat) : Bool := decide (65536 ≤ a % 131072)

/-- Read latency of a requester whose near half is the west, or the east (02 Tables TILE-11, TILE-12). -/
def latWest (a : Nat) : Nat := if eastHalf a then 6 else 3
def latEast (a : Nat) : Nat := if eastHalf a then 3 else 6

/-- The bank of a word under the mapping bits of a tile (02 Table TILE-10). -/
def bankOf (mapping a : Nat) : Nat :=
  let h := if eastHalf a then 1 else 0
  8 * h + (if bitOf mapping h then bitsOf a 4 2 else bitsOf a 15 13)

/-- The place of a word within its bank of 8,192 (02 Table TILE-10). -/
def wordInBank (mapping a : Nat) : Nat :=
  if bitOf mapping (if eastHalf a then 1 else 0) then 4 * bitsOf a 15 5 + bitsOf a 1 0 else bitsOf a 12 0

/-! ## Streams (02 R75, 05 R157) -/

def Tile.stream (x : Tile) (i : Nat) : Stream := tget {} x.streams i

/-- Advance a stream after an access; `step` words replace STRIDE for RD_T. -/
def Tile.advance (x : Tile) (m : TileImg) (i step : Nat) : Tile :=
  let d := m.sd i
  let s := x.stream i
  let n := if sdCount d = 0 then 4096 else sdCount d
  let s' : Stream :=
    if s.idx + 1 = n then
      if sdPlist d then
        let b := m.ptrs.getD (m.plFirst (sdPlidx d) + s.plpos) 0 % 131072
        { base := b, ptr := b, idx := 0, plpos := (s.plpos + 1) % m.plLen (sdPlidx d) }
      else { s with idx := 0, ptr := s.base }
    else { s with idx := s.idx + 1, ptr := (s.ptr + step) % 131072 }
  { x with streams := tset {} x.streams i s' }

/-- The words of one access of a stream. -/
def Tile.readStream (x : Tile) (m : TileImg) (i : Nat) : List W32 := x.spad.readN (x.stream i).ptr (sdWidth (m.sd i))

/-- Write words from the first word of a stream's access upward. -/
def Tile.writeStream (x : Tile) (i : Nat) (ws : List W32) : Tile :=
  { x with spad := x.spad.writeN (x.stream i).ptr ws }

/-- A counter set with elements added, through the stream that names it (03 R110). -/
def Tile.count (x : Tile) (m : TileImg) (i : Nat) (cs : List Conv) : Tile :=
  { x with csets := tmod {} x.csets (sdCset (m.sd i)) (fun c => csetAddAll c cs) }

/-- Take `n` draws of the generator when the operation draws (03 R98-R100). -/
def Tile.draws (x : Tile) (on : Bool) (n : Nat) : Option (List Nat) × Tile :=
  if on then
    let (ds, r) := rngDraws n x.rng
    (some ds, { x with rng := r })
  else (none, x)

/-! ## Queues -/

def Tile.inQ (x : Tile) (d : Dir) : List Token := tget [] x.inq (dirIx d)
def Tile.outQ (x : Tile) (d : Dir) : List Token := tget [] x.outq (dirIx d)
def Tile.setIn (x : Tile) (d : Dir) (q : List Token) : Tile := { x with inq := tset [] x.inq (dirIx d) q }
def Tile.setOut (x : Tile) (d : Dir) (q : List Token) : Tile := { x with outq := tset [] x.outq (dirIx d) q }
def Tile.head (x : Tile) (d : Dir) : Option Token := (x.inQ d).head?
/-- A head that a condition has found present. -/
def Tile.headD (x : Tile) (d : Dir) : Token := (x.inQ d).headD ⟨0, false⟩
def Tile.unitOf (x : Tile) (u : Nat) : Steer := tget {} x.steer u
def Tile.setUnitOf (x : Tile) (u : Nat) (v : Steer) : Tile := { x with steer := tset {} x.steer u v }
def Tile.vreg (x : Tile) (i : Nat) : VReg := tget {} x.vregs i
def Tile.lane (x : Tile) (i l : Nat) : W32 := tget 0 (x.vreg i).lanes l

/-- Slots of an output queue that results in flight hold (04 R117). -/
def Tile.outHeld (x : Tile) (d : Dir) : Nat :=
  (x.flight.filter (fun f => match f.land with | .outq e _ => decide (e = d) | _ => false)).length

/-- A free slot in an output queue. -/
def Tile.outFree (x : Tile) (d : Dir) : Bool := decide ((x.outQ d).length + x.outHeld d < 16)

/-- Bits in flight to the A and B operand queues. -/
def Tile.opHeld (x : Tile) (b : Bool) : Nat :=
  sumN (x.flight.map (fun f =>
    match f.land, b with
    | .opA v, false => v.len
    | .opB v, true => v.len
    | _, _ => 0))

/-! ## Array shapes (02 Table TILE-3) -/

/-- Output columns and depth of a format. -/
def fmtCols (c : Nat) : Nat := if isHalf c then 32 else 64
def fmtDepth (c : Nat) : Nat := if c = 8 ∨ c = 9 then 2 else 1
/-- Bits of an A slice and of a B slice. -/
def sliceA (c : Nat) : Nat := 16 * elemBits c * fmtDepth c
def sliceB (c : Nat) : Nat := fmtCols c * elemBits c * fmtDepth c
/-- MAC firings per block and the bits of an A and a B scale record (02 Table TILE-4). -/
def blockFirings (c : Nat) : Nat := if isHx c then 8 else if c = 8 then 16 else 32
def recA (c : Nat) : Nat := if isHx c then 192 else 128
def recB (c : Nat) : Nat := if isHx c then 768 else 512

/-- Bits that the vector unit's SENDA appends: 32 elements (02 R62). -/
def sendaBits (c : Nat) : Nat := 32 * elemBits c

/-- Bits an RD_A, RD_B or RD_T of slot i appends to the A (false) or B (true) operand queue. -/
def Entry.memBits (e : Entry) (m : TileImg) (b : Bool) (i : Nat) : Nat :=
  if e.mop i = (if b then 2 else 1) then 32 * sdWidth (m.sd (e.str i))
  else if e.mop i = 8 ∧ e.tdst i = (if b then 1 else 0) then 512
  else 0

/-- All bits the entry appends to an operand queue. -/
def Entry.opBits (e : Entry) (m : TileImg) (b : Bool) : Nat :=
  sumN ((List.range 3).map (e.memBits m b)) + (if !b ∧ e.vop = 5 then sendaBits e.vfmt else 0)

/-! ## What an entry names -/

/-- The input heads its fields name, steering apart (02 R37). -/
def Entry.heads (e : Entry) : List Dir :=
  (if e.isMac then (dirCode e.asrc).toList ++ (dirCode e.bsrc).toList else []) ++
  (if e.vop = 3 then (dirCode e.vb).toList else []) ++
  (List.range 3).flatMap (fun i => if e.mop i = 7 ∨ e.mop i = 9 then [e.mport i] else []) ++
  dirs.flatMap (fun d => (dirCode (e.osel d)).toList)

/-- The heads it pops: RECV pops only with POP = 1 (02 R62). -/
def Entry.pops (e : Entry) : List Dir :=
  ((if e.isMac then (dirCode e.asrc).toList ++ (dirCode e.bsrc).toList else []) ++
   (if e.vop = 3 ∧ e.vpop then (dirCode e.vb).toList else []) ++
   (List.range 3).flatMap (fun i => if e.mop i = 7 ∨ e.mop i = 9 then [e.mport i] else []) ++
   dirs.flatMap (fun d => (dirCode (e.osel d)).toList)).dedup

/-- The output queues its fields fill, steering apart, once for each producer. -/
def Entry.fills (e : Entry) : List Dir :=
  (if e.isDrain then (dirCode e.ddst).toList else []) ++
  (if e.vop = 4 then (dirCode (e.vb % 8)).toList else []) ++
  (List.range 3).flatMap (fun i => if e.mop i = 6 ∨ (e.mop i = 8 ∧ e.tdst i = 2) then [e.mport i] else []) ++
  dirs.filter (fun d => decide (e.osel d ≠ 0))

/-- The steering units it fires. -/
def Entry.units (e : Entry) : List Nat := (List.range 4).filter e.sfire

/-- The output queues a steering unit fills at its next firing (04 Table FLOW-6). -/
def steerFills (d : W64 × W64) (firing : Nat) : List Dir :=
  match stMode d with
  | 1 => (dirCode (stOut0 d)).toList ++ (dirCode (stOut1 d)).toList
  | 2 => (dirCode (stOut0 d)).toList
  | 4 => (dirCode (stOut0 d)).toList
  | 3 => if firing < stTrip d then (dirCode (stOut0 d)).toList else (dirCode (stOut1 d)).toList
  | _ => []

/-- The units an entry names: 0 array, 1 GEMV, 2 vector, 3-5 memory slots, 6 through-routes, 7-10
steering units. -/
def Entry.names (e : Entry) (k : Nat) : Bool :=
  match k with
  | 0 => decide (e.aop ≠ 0)
  | 1 => decide (e.gop ≠ 0)
  | 2 => decide (e.vop ≠ 0)
  | 3 => decide (e.mop 0 ≠ 0)
  | 4 => decide (e.mop 1 ≠ 0)
  | 5 => decide (e.mop 2 ≠ 0)
  | 6 => dirs.any (fun d => decide (e.osel d ≠ 0))
  | _ => e.sfire (k - 7)

def Entry.named (e : Entry) : List Nat := (List.range 11).filter e.names

/-- The unit takes draws (03 R100): a drain, a STORE, or ST, SEND and SENDA with stochastic rounding. -/
def Entry.drawsAt (e : Entry) (k : Nat) : Bool :=
  match k with
  | 0 => e.isDrain && e.arnd
  | 1 => decide (e.gop = 3) && e.grnd
  | 2 => decide (e.vop = 2 ∨ e.vop = 4 ∨ e.vop = 5) && e.vsub
  | _ => false

/-- The streams a unit of the entry advances or uses. -/
def Entry.streamsAt (e : Entry) (k : Nat) : List Nat :=
  match k with
  | 0 => if e.isDrain then [e.dstr, e.dstr + 1] else []
  | 1 => (match e.gop with | 1 => [e.wstr, e.wstr + 1] | 2 => [e.wstr, e.wstr + 1] | 3 => [e.xstr] | 4 => [e.xstr] | _ => [])
  | 2 => if e.vop = 1 ∨ e.vop = 2 then [e.vstr] else []
  | 3 => if e.mop 0 = 0 then [] else [e.str 0]
  | 4 => if e.mop 1 = 0 then [] else [e.str 1]
  | 5 => if e.mop 2 = 0 then [] else [e.str 2]
  | _ => []

/-- Units with a lower number that have to act first within a firing: those that draw before it (03
R100), and those on a stream it uses (DESIGN CHOICE, log 31). -/
def Entry.before (e : Entry) (k : Nat) : List Nat :=
  (List.range k).filter (fun j =>
    e.names j && ((e.drawsAt j && e.drawsAt k) || (e.streamsAt j).any (fun i => (e.streamsAt k).contains i)))

end Sys2Proof.Machine
end

