-- ==== Sys2Proof/Machine/TileOps.lean ====
section
/-! DEFINITION. The firing of a tile: what an entry waits for (02 Table TILE-2), the stall it is charged (04
R138), the start of a firing, a unit's share of it, and its completion (02 R35-R39, 04 R117). -/

namespace Sys2Proof.Machine

/-! ## Conditions -/

/-- A bearing is present for a steering unit. -/
def Steer.bearing (v : Steer) (d : W64 × W64) : Bool := decide (stBsrc d = 0) || !v.bearq.isEmpty

/-- A head of an input named by a code is present. -/
def Tile.present (x : Tile) (c : Nat) : Bool :=
  match dirCode c with
  | some d => !(x.inQ d).isEmpty
  | none => false

/-- A steering unit can fire (04 Table FLOW-6). -/
def Tile.steerReady (x : Tile) (d : W64 × W64) (u : Nat) : Bool :=
  let v := x.unitOf u
  let outs := (steerFills d v.firing).all x.outFree
  match stMode d with
  | 1 => !v.dataq.isEmpty && v.bearing d && outs
  | 2 => !v.dataq.isEmpty && x.present (stIn1 d) && v.bearing d && outs
  | 4 => !v.dataq.isEmpty && v.bearing d && outs
  | 3 => (if v.firing = 0 then !v.dataq.isEmpty else x.present (stIn1 d) && v.bearing d) && outs
  | _ => false

/-- The first condition of an entry that is unmet, by its place in 04 Table FLOW-9 counted from 0. -/
def Tile.unmet (x : Tile) (m : TileImg) (e : Entry) : Option Nat :=
  if e.isNull then none
  else
    match e.units.find? (fun u => !x.steerReady (m.steerOf u) u) with
    | some u => some u
    | none =>
      match dirs.find? (fun d => e.heads.contains d && (x.inQ d).isEmpty) with
      | some d => some (4 + dirIx d)
      | none =>
        if 0 < e.opBits m false ∧ 2048 < x.opA.len + x.opHeld false + e.opBits m false then some 8
        else if 0 < e.opBits m true ∧ 4096 < x.opB.len + x.opHeld true + e.opBits m true then some 9
        else
          match dirs.find? (fun d => e.fills.contains d && !x.outFree d) with
          | some d => some (10 + dirIx d)
          | none =>
            if (e.vop = 3 ∧ e.vb = 0 ∧ x.viq.isEmpty) ∨ (e.isDrain ∧ e.ddst = 5 ∧ 4 ≤ x.viq.length) then some 14
            else none

/-- The tile's current entry. -/
def Tile.cur (x : Tile) (m : TileImg) : Entry := m.entryAt x.entry

/-- Enter WAIT: an entry that cannot fire now is charged one wait (04 R138). -/
def Tile.enterWait (x : Tile) (m : TileImg) : Tile :=
  let x := { x with st := TileSt.wait, firing := none }
  match x.unmet m (x.cur m) with
  | some c => { x with stall := tmod 0 x.stall c (fun n => satAdd 32 n 1) }
  | none => x

/-! ## Windows in a firing (06 R188, R190) -/

def Tile.winOf (x : Tile) (k : Nat) : Win := tget {} x.wins k

/-- A window at the start of a firing: it opens with the first firing of its OPEN entry. -/
def Tile.winStart (x : Tile) (m : TileImg) (k : Nat) : Win :=
  let b := m.win k
  let w := x.winOf k
  if wdMode b = 0 then w
  else
    let w := if x.entry = wdOpen b ∧ ¬ w.isOpen then
        { w with isOpen := true, firings := 0, ptr := (if wdRing b then w.ptr else wdBase b) } else w
    { w with served := false, charged := false }

/-- Every window's pointer that continues from span to span returns to BASE (06 R190). -/
def Tile.ringReset (x : Tile) (m : TileImg) : Tile :=
  { x with wins := (List.range 8).foldl (fun t k =>
      let b := m.win k
      if wdMode b ≠ 0 ∧ wdRing b then tmod {} t k (fun w : Win => { w with ptr := wdBase b }) else t) x.wins }

/-- The region port accesses a window in the present firing. -/
def Tile.due (x : Tile) (m : TileImg) (k : Nat) : Bool :=
  let b := m.win k
  let w := x.winOf k
  decide (wdMode b = 2 ∨ wdMode b = 3) && w.isOpen && decide (w.firings % (wdEvery b + 1) = 0)

/-- A window when a firing completes; it closes with the last firing of its CLOSE entry. -/
def Tile.winEnd (x : Tile) (m : TileImg) (last : Bool) (k : Nat) : Win :=
  let b := m.win k
  let w := x.winOf k
  if wdMode b ≠ 0 ∧ w.isOpen then
    if x.entry = wdClose b ∧ last then { w with isOpen := false, firings := 0 }
    else { w with firings := w.firings + 1 }
  else w

/-! ## The start of a firing and a unit's share of it -/

/-- The firing starts: FIRE, windows opened. -/
def Tile.start (x : Tile) (m : TileImg) : Tile :=
  { x with st := .fire, firing := some {}, wins := (List.range 8).foldl (fun t k => tset {} t k (x.winStart m k)) x.wins }

/-- Latency of a vector operation that gives a register (02 Table TILE-9). -/
def vlat (op a : Nat) : Nat :=
  if op = 1 then latEast a else if 0x18 ≤ op ∧ op ≤ 0x1C then 4 else if 0x20 ≤ op ∧ op ≤ 0x22 then 5 else 1

/-- A vector operation writes register VD. -/
def Entry.setsVd (e : Entry) : Bool := decide (e.vop = 1 ∨ e.vop = 3 ∨ (8 ≤ e.vop ∧ e.vop ≤ 0x22))

/-- The halves of VD it writes: RECV of FP32 fills one (02 R62). -/
def Entry.vdHalves (e : Entry) : List Nat := if e.vop = 3 ∧ e.vfmt = 11 then [if e.vsub then 1 else 0] else [0, 1]

/-- The result lands in one of the halves of a vector register. -/
def Land.toVreg (l : Land) (v : Nat) (halves : List Nat) : Bool :=
  match l with
  | .vreg u ls _ => decide (u = v) && ls.any (fun x => halves.contains (x.1 / 16))
  | _ => false

/-- A vector operation that has not acted would give its register a result in the step in which one in flight lands there (02
R38). -/
def Tile.meets (x : Tile) (e : Entry) : Bool :=
  e.setsVd && !(x.firing.getD {}).done.contains 2 &&
    x.flight.any (fun f => decide (f.left = vlat e.vop (x.stream e.vstr).ptr) && f.land.toVreg e.vd e.vdHalves)

/-- The entry gives one output queue two producers, names a head that a steering unit owns, or gives a register a second result
in one step (02 R38, 04 R127). -/
def Entry.clash (e : Entry) (m : TileImg) (x : Tile) : Bool :=
  let fills := e.fills ++ e.units.flatMap (fun u => steerFills (m.steerOf u) (x.unitOf u).firing)
  let owned := (List.range 4).flatMap (fun u =>
    let d := m.steerOf u
    if stMode d = 0 then [] else (dirCode (stDin d)).toList ++ (dirCode (stIn1 d)).toList ++ (dirCode (stBsrc d)).toList)
  decide (¬ fills.Nodup) || e.heads.any (fun d => owned.contains d) || x.meets e

/-- What a tile has in hand for unit `k` of its current entry: it waits with every condition met, or
fires with that unit's share not yet done, and the units that act before it are done. -/
def State.begin (s : State) (t k : Nat) : Option (TileImg × Entry × Tile) :=
  match s.img t with
  | none => none
  | some m =>
    let x := s.tile t
    let e := x.cur m
    if ¬ e.names k ∨ s.doorClosed .dataflow (s.physOf (tileRegion t)) then none
    else
      match x.st, x.firing with
      | .wait, _ => if x.unmet m e = none ∧ e.before k = [] then some (m, e, x.start m) else none
      | .fire, some f =>
        if f.done.contains k ∨ ¬ (e.before k).all (fun j => f.done.contains j) then none else some (m, e, x)
      | _, _ => none

/-- Put a tile back: the start of a firing is stamped (15 R437), the Sextants are on the S8 (05 R171). -/
def State.putTile (s : State) (t : Nat) (x : Tile) : State :=
  let x := if x.st = .fire ∧ (s.tile t).st ≠ .fire then { x with since := s.now } else x
  s.setTile t (if s.variant = 8 then x else { x with sx := [], occ := [], sxcap := none })

/-- A region makes progress (15 R437). -/
def State.progress (s : State) (t : Nat) : State := s.modRegion (tileRegion t) (fun r => { r with since := s.now })

def Tile.modFiring (x : Tile) (f : Firing → Firing) : Tile := { x with firing := x.firing.map f }
def Tile.finish (x : Tile) (k : Nat) : Tile := x.modFiring (fun f => { f with done := f.done ++ [k] })

/-- Count one of the Sextant's 32-bit counts (05 Tables CHRT-7, CHRT-11). -/
def Tile.sxAdd (x : Tile) (j n : Nat) : Tile := { x with sx := tmod 0 x.sx j (fun k => (k + n) % 2 ^ 32) }

/-- Push a token into an output queue when the firing completes. -/
def Tile.give (x : Tile) (d : Dir) (k : Token) : Tile := (x.modFiring (fun f => { f with out := f.out ++ [(d, k)] })).sxAdd (5 + dirIx d) 1

/-- Put a result in flight, to land before the firing `n` steps on. -/
def Tile.send (x : Tile) (n : Nat) (l : Land) : Tile := { x with flight := x.flight ++ [⟨n, l⟩] }

/-- An error corrected in a tile's memories is counted in its region (02 R51, R68). -/
def State.corrected (s : State) (t : Nat) : State := s.modRegion (tileRegion t) (fun r => { r with spadCorr := satAdd 32 r.spadCorr 1 })

/-- The healthy physical columns of a tile's array, ascending (02 R54). -/
def Tile.healthyCols (x : Tile) : List Nat := (List.range 66).filter (fun p => !x.colFail.testBit p)

/-- The physical column that serves presented column `j` (02 R54, R56): the (j + 1)-th healthy one; a narrowed array
serves columns j and j + 32 in one. -/
def Tile.physCol (x : Tile) (j : Nat) : Option Nat := x.healthyCols[if x.narrow then j % 32 else j]?

/-- The healthy physical columns that serve none, which are gated off (02 R54). -/
def Tile.gatedCols (x : Tile) : List Nat := x.healthyCols.drop (if x.narrow then 32 else 64)

/-- DETAIL of an ARRAY fault (15 Table RCV-4): a parity error, or the physical column of the accumulator at fault and
its row. Which of these, which presented column and which row is a free value `v`. -/
def Tile.arrayDetail (x : Tile) (v : Nat) : List Byte :=
  leBytes 1 (if v.testBit 10 then 0xFF else (x.physCol (v % 64)).getD 0xFF) ++ leBytes 1 (v / 64 % 16)

/-- DETAIL of a SPAD_UE fault (15 Table RCV-4): a word address and a syndrome of seven bits, a free value `v`. -/
def spadDetail (v : Nat) : List Byte := leBytes 4 (v % 131072) ++ leBytes 1 (v / 131072 % 128)

/-- An error that cannot be corrected, ARRAY (2) or SPAD_UE (3), raises its fault; the machine finds its place. -/
def State.faultAt (s : State) (t cause : Nat) : State :=
  let v := (Config.freeValue s.freeCount).toNat
  let d := if cause = 3 then spadDetail v else (s.tile t).arrayDetail v
  ({ s with freeCount := s.freeCount + 1 } : State).tileFault t cause d

/-- A tile's unit performs its share of the present firing: an uncorrectable error raises the fault
`cause` instead (ARRAY 2, SPAD_UE 3), a corrected one is counted. -/
def State.runUnit (s : State) (t k : Nat) (err : Ecc) (cause : Nat) (sel : Entry → Bool)
    (act : TileImg → Entry → Tile → Tile) : State :=
  match s.begin t k with
  | none => s
  | some (m, e, x) =>
    if ¬ sel e then s
    else if e.clash m (s.tile t) then (s.putTile t x).tileFault t 1 []
    else
      match err with
      | .fatal => (s.putTile t x).faultAt t cause
      | .corrected => (s.putTile t ((act m e x).finish k)).corrected t
      | .ok => s.putTile t ((act m e x).finish k)

/-! ## Completion -/

/-- A result lands (02 R34). -/
def Tile.land (x : Tile) (m : TileImg) (l : Land) : Tile :=
  match l with
  | .opA b => { x with opA := bapp x.opA b }
  | .opB b => { x with opB := bapp x.opB b }
  | .scaleA b => { x with scaleA := { x.scaleA with next := bapp x.scaleA.next b } }
  | .scaleB b => { x with scaleB := { x.scaleB with next := bapp x.scaleB.next b } }
  | .drainScale w => { x with drainScale := w }
  | .outq d k => x.setOut d (x.outQ d ++ [k])
  | .vreg v ls void => { x with vregs := tmod {} x.vregs v (fun r =>
      { lanes := ls.foldl (fun t (i, w) => tset 0 t i w) r.lanes, void := void }) }
  | .xreg i vs => { x with x := tsetMany 0 x.x i vs }
  | .yout i a => { x with yout := tset {} x.yout i a }
  | .spad str ws => (x.writeStream str ws).advance m str (strideStep (m.sd str))

/-- The result lands in output copy `i` of the GEMV unit. -/
def Land.toY (l : Land) (i : Nat) : Bool :=
  match l with
  | .yout j _ => decide (j = i)
  | _ => false

/-- Results in flight without the sums of an accumulator that a later MAC's sum, which includes them, reaches first (02 R60). -/
def dropPassed : List InFlight → List InFlight
  | [] => []
  | f :: fs =>
    match f.land with
    | .yout i _ =>
      if f.left ≠ 0 ∧ fs.any (fun g => decide (g.left = 0) && g.land.toY i) then dropPassed fs else f :: dropPassed fs
    | _ => f :: dropPassed fs

/-- Every pipelined path advances by one stage; what arrives lands in the order of issue. -/
def Tile.step1 (x : Tile) (m : TileImg) : Tile :=
  let fl := dropPassed (x.flight.map (fun f => { f with left := f.left - 1 }))
  let x := { x with flight := fl.filter (fun f => decide (f.left ≠ 0)) }
  (fl.filter (fun f => decide (f.left = 0))).foldl (fun x f => x.land m f.land) x

/-- Pop a head. -/
def Tile.pop (x : Tile) (d : Dir) : Tile := x.setIn d (x.inQ d).tail

/-- The queues when a firing completes: heads popped once, tokens pushed, pipelines advanced. The late write of an RD_T and the
advance of its stream (02 R75) come after every unit of the firing in which they count as issued (log 36). -/
def Tile.settle (x : Tile) (m : TileImg) : Tile :=
  let e := x.cur m
  let f := x.firing.getD {}
  let pops := if e.isNull then [] else e.pops
  let viq := decide (¬ e.isNull ∧ e.vop = 3 ∧ e.vb = 0) && e.vpop
  let x := pops.foldl (fun x d => (x.pop d).sxAdd (1 + dirIx d) 1) x
  let x := f.pops.foldl (fun x d => x.pop d) x
  let x := if viq then ({ x with viq := x.viq.tail } : Tile).sxAdd 10 1 else x
  let x := x.step1 m
  let x := f.out.foldl (fun x o => x.setOut o.1 (x.outQ o.1 ++ [o.2])) x
  let x := { x with viq := x.viq ++ f.viq, opA := f.opA.foldl bapp x.opA, firing := none }
  ({ x with stall := tmod 0 x.stall 15 (fun n => satAdd 32 n 1) } : Tile).sxAdd 0 1

/-- Sequence control after the last firing of an entry (02 R39): loop counters and the next entry, 2,048
for none. -/
def Tile.next (x : Tile) (m : TileImg) : Tile × Nat :=
  let e := x.cur m
  match e.seq with
  | 1 =>
    let c := tget 0 x.lc e.loop
    if c + 1 < m.loops.getD e.loop 0 + 1 then ({ x with lc := tset 0 x.lc e.loop (c + 1) }, e.tgt)
    else ({ x with lc := tset 0 x.lc e.loop 0 }, x.entry + 1)
  | 3 => (x, 2048)
  | _ => (x, x.entry + 1)

/-- Go on at an entry: DONE past the end of the sequence, else WAIT. -/
def Tile.proceed (x : Tile) (m : TileImg) (n : Nat) : Tile :=
  let x := { x with entry := n, fired := 0, firing := none }
  if n = 2048 then { x with st := .done } else x.enterWait m

/-- The check record of the tile for an entry: its number within the tile and the record (05 R169). An entry with CHK = 1 that no
record names is compared with nothing (log 99). -/
def State.checkOf (s : State) (m : TileImg) (entry : Nat) : Option (Nat × CheckRec) :=
  match s.chart with
  | none => none
  | some c =>
    let rs := (c.checks.drop m.checkFirst).take m.checkCount
    (rs.zipIdx.find? (fun r => decide (r.1.entry = entry))).map (fun r => (r.2, r.1))

/-- The first count that differs from its expected value: index, expected, seen (05 R171). -/
def sxDiffer (x : Tile) (r : CheckRec) (n : Nat) : Option (Nat × Nat × Nat) :=
  ((List.range 11).map (fun j => (j, (r.first.getD j 0 + n * r.incr.getD j 0) % 2 ^ 32, tget 0 x.sx j))).find?
    (fun d => decide (d.2.1 ≠ d.2.2))

/-- The capture register as it stands in the fault record (05 Table CHRT-16). -/
def sxBytes (c : SxCap) : List Byte :=
  leBytes 4 (2 ^ 31 + c.index * 2 ^ 27 + c.record * 2 ^ 24 + c.occ % 65536) ++ leBytes 4 c.expected ++ leBytes 4 c.seen

/-- The last firing of an entry has completed: Sextant, waypoint mark, sequence control (02 R39, R40; 04
Table FLOW-1; 05 R171). -/
def State.entryDone (s : State) (t : Nat) (m : TileImg) (x : Tile) : State :=
  let e := x.cur m
  let go := fun (s : State) (x : Tile) =>
    let (x, n) := x.next m
    if e.isWpt then s.putTile t { x with st := .hold, entry := n, fired := 0, firing := none, wpts := x.wpts + 1 }
    else s.putTile t (x.proceed m n)
  if e.isChk ∧ s.variant = 8 then
    match s.checkOf m x.entry with
    | none => go s x
    | some (k, r) =>
      let n := tget 0 x.occ k
      let x := { x with occ := tset 0 x.occ k (n + 1) }
      if s.obj 0x9020 1 = 0 then go s x
      else
        match sxDiffer x r n with
        | none => go s x
        | some (j, ex, seen) =>
          let c : SxCap := ⟨j, k, n, ex, seen⟩
          ((s.putTile t { x with sxcap := some c }).bump 0x9020 2 32 1).tileFault t 5 (sxBytes c)
  else go s x

/-- The firing completes (02 R35): every unit named has done its share and every port access of the
firing has been performed. -/
def State.completeFiring (s : State) (t : Nat) : State :=
  match s.img t with
  | none => s
  | some m =>
    let x0 := s.tile t
    let e := x0.cur m
    -- an entry that starts no unit starts here, and completes at once where no port access is due
    let x := if x0.st = .wait ∧ ¬ e.isNull ∧ e.named = [] then x0.start m else x0
    match x.st, x.firing with
    | .fire, some f =>
      if ¬ (e.isNull || e.named.all (fun k => f.done.contains k)) ∨ s.doorClosed .dataflow (s.physOf (tileRegion t)) then s
      else if (List.range 8).any (fun k => x.due m k && !(x.winOf k).served) then (if x0.st = .wait then s.putTile t x else s)
      else
        let last := decide (e.rep ≤ x.fired)
        let wins := (List.range 8).foldl (fun t k => tset {} t k (x.winEnd m last k)) x.wins
        let x := (x.settle m)
        let x := { x with wins := wins, fired := x.fired + 1 }
        let s := s.progress t
        if last then s.entryDone t m x else s.putTile t (x.enterWait m)
    | _, _ => s

end Sys2Proof.Machine
end

