-- ==== Sys2Proof/Machine/Array.lean ====
section
/-! DEFINITION. The MAC array: MAC, MACZ, DRAIN_R, DRAIN_C and ZERO (02 R41-R51; 03 R81-R89, R91,
R94-R101; 04 R131). -/

namespace Sys2Proof.Machine

def Tile.plane (x : Tile) (k : Nat) : Plane := if k = 0 then x.plane0 else x.plane1
def Tile.setPlane (x : Tile) (k : Nat) (p : Plane) : Tile := if k = 0 then { x with plane0 := p } else { x with plane1 := p }
def Plane.at' (p : Plane) (row col : Nat) : Acc := tget {} p.acc (64 * row + col)

/-! ## MAC and MACZ -/

/-- The scale of row or column `i` in a record of a block-scaled format (03 Table FMT-3). -/
def recScale (c : Nat) (r : Bits) (i : Nat) : FVal :=
  if isHx c then
    let w := elemOf r.val 12 i
    hxScale (bitsOf w 7 0) (bitsOf w 11 8)
  else e8m0 (elemOf r.val 8 i)

/-- An operand element with its block scale (03 R82, R83, R86). -/
def operand (c el w : Nat) (r : Bits) (i : Nat) : FVal :=
  let v := decodeElem el w
  if isBlock c then mulV v (recScale c r i) else v

/-- The products of cell (i, j) in one firing, in increasing depth (03 R81, R88). -/
def cellProducts (c : Nat) (mix : Bool) (a b : Nat) (ra rb : Bits) (i j : Nat) : List FVal :=
  let cb := if mix then mixCode c else c
  let dp := fmtDepth c
  (List.range dp).map (fun d =>
    mulV (operand c c (elemOf a (elemBits c) (dp * i + d)) ra i)
         (operand c cb (elemOf b (elemBits c) (dp * j + d)) rb j))

/-- One accumulation in INT32 (03 R89); the entry's 32 bits are read as an integer whatever wrote them (log 88). -/
def accInt (v : Acc) (p : FVal) : Acc := satAcc v (roundInt .nearest p)

/-- One accumulation in FP32, rounded once (03 R86, R91); the entry's 32 bits are read as FP32 whatever wrote
them (log 88). -/
def accFp (v : Acc) (p : FVal) : Acc := ⟨toF32 (accSum (ofF32 v.val) p), v.sat, false⟩

/-- The accumulators of a plane after one firing's products. -/
def macPlane (c : Nat) (mix : Bool) (a b : Nat) (ra rb : Bits) (p : Plane) : Plane :=
  let n := fmtCols c
  let cells := (List.range 16).flatMap (fun i => (List.range n).map (fun j => (i, j)))
  let acc := cells.foldl (fun t (i, j) =>
      let key := 64 * i + (if isHalf c then 2 * j else j)
      tmod {} t key (fun v => (cellProducts c mix a b ra rb i j).foldl (if isInt c then accInt else accFp) v)) p.acc
  { p with acc := acc, fmt := c }

/-- The slice an operand takes: from the queue, or the first bits of the token at a head (02 R41, R42). -/
def Tile.slice (x : Tile) (src bits : Nat) (b : Bool) : Nat × Bool × Tile :=
  match dirCode src with
  | some d => ((x.headD d).data.toNat % 2 ^ bits, (x.headD d).void, x)
  | none =>
    if b then ((bhead x.opB bits).val, false, { x with opB := brest x.opB bits })
    else ((bhead x.opA bits).val, false, { x with opA := brest x.opA bits })

/-- At a block boundary the current scale record becomes the next one (02 R43); bits read beyond the record's size
are the head of the record that follows (log 89). -/
def ScaleRec.move (r : ScaleRec) (bits : Nat) : ScaleRec := { cur := bhead r.next bits, next := brest r.next bits }

/-- A MAC firing; MACZ zeroes the plane and restarts the block count first (02 R41, R47; 04 Table FLOW-7). -/
def Tile.mac (z : Bool) (_m : TileImg) (e : Entry) (x : Tile) : Tile :=
  let c := e.afmt
  let (a, va, x) := x.slice e.asrc (sliceA c) false
  let (b, vb, x) := x.slice e.bsrc (sliceB c) true
  let blk := if z then 0 else x.blk
  let x := if isBlock c ∧ blk % blockFirings c = 0 then
      { x with scaleA := x.scaleA.move (recA c), scaleB := x.scaleB.move (recB c) } else x
  let x := { x with blk := blk + 1 }
  let p := x.plane e.aplane
  let p := if z then { acc := [], fmt := c, drain := 0 } else { p with fmt := c }
  x.setPlane e.aplane (if va || vb then p else macPlane c e.mix a b x.scaleA.cur x.scaleB.cur p)

/-! ## Drains -/

/-- Presented column of output column j (02 R41). -/
def presCol (c j : Nat) : Nat := if isHalf c then 2 * j else j

/-- An accumulator as a conversion input: its value and its saturation flag. -/
def accIn (a : Acc) : FVal × Bool := (accVal a, a.sat)

/-- Elements of a row that one drain unit holds: a row, or 512 bits of it (02 R48). -/
def unitElems (c n : Nat) : Nat := min n (512 / elemBits c)

/-- The accumulators of drain unit `k`, row or column order. -/
def drainIn (p : Plane) (c : Nat) (col : Bool) (k : Nat) : List (FVal × Bool) :=
  let n := fmtCols p.fmt
  if col then (List.range 16).map (fun i => accIn (p.at' i (presCol p.fmt k)))
  else
    let u := unitElems c n
    let per := n / u
    (List.range u).map (fun j => accIn (p.at' (k / per) (presCol p.fmt (k % per * u + j))))

/-- Drain units of a plane (02 Table TILE-5), in the shape of its last MAC or MACZ; of a plane on which none has
acted, in the 16 × 64 shape (log 90). -/
def drainUnits (p : Plane) (c : Nat) (col : Bool) : Nat :=
  let n := fmtCols p.fmt
  if col then n else 16 * (n / unitElems c n)

/-- The scaled input of a drain to FP8 or INT8 (03 R101). -/
def drainScaled (c : Nat) (sc : W32) (v : FVal) : FVal := if c = 2 ∨ c = 3 ∨ c = 10 then mulV v (ofF32 sc) else v

/-- The conversion of a drain unit: its elements and, for a block format, its scale word (03 R94-R101). -/
def drainConv (c : Nat) (ds : Option (List Nat)) (sc : W32) (xs : List (FVal × Bool)) : List Conv × Nat :=
  if isBlock c then convRow c ds xs
  else (xs.zipIdx.map (fun (v, i) => convElem c (rndAt ds i) v.1 (drainScaled c sc v.1) 1 v.2), 0)

/-- One drain unit: converted, counted into the set of DSTR, moved to its destination (02 R47-R49, 03
R84, R85, R94-R101). -/
def Tile.drain (col : Bool) (m : TileImg) (e : Entry) (x : Tile) : Tile :=
  let c := e.afmt
  let p := x.plane e.aplane
  let xs := drainIn p c col p.drain
  let (ds, x) := x.draws e.arnd xs.length
  let (es, sc) := drainConv c ds x.drainScale xs
  let bits := packConv c es
  let x := x.count m e.dstr es
  let k := p.drain + 1
  let x := x.setPlane e.aplane { p with drain := (if k = drainUnits p c col then 0 else k) }
  if e.ddst = 0 then
    let words := elemBits c * xs.length / 32
    let x := (x.writeStream e.dstr (valWords words bits)).advance m e.dstr (strideStep (m.sd e.dstr))
    if isBlock c then
      (x.writeStream (e.dstr + 1) [BitVec.ofNat 32 sc]).advance m (e.dstr + 1) (strideStep (m.sd (e.dstr + 1)))
    else x
  else if e.ddst = 5 then x.modFiring (fun f => { f with viq := f.viq ++ [BitVec.ofNat 512 bits] })
  else
    match dirCode e.ddst with
    | some d => x.give d ⟨BitVec.ofNat 512 bits, false⟩
    | none => x

/-- ZERO (02 R47). -/
def Tile.zeroPlane (_m : TileImg) (e : Entry) (x : Tile) : Tile :=
  x.setPlane e.aplane { x.plane e.aplane with acc := [], drain := 0 }

/-! ## The commands -/

/-- MAC (02 R41). -/
def execMac (t : Nat) (e : Ecc) (s : State) : Host.Outcome State Fault Refusal :=
  .next (s.runUnit t 0 e 2 (fun n => decide (n.aop = 1)) (Tile.mac false))
/-- MACZ (02 R47). -/
def execMacz (t : Nat) (e : Ecc) (s : State) : Host.Outcome State Fault Refusal :=
  .next (s.runUnit t 0 e 2 (fun n => decide (n.aop = 2)) (Tile.mac true))
/-- DRAIN_R (02 R48). -/
def execDrainR (t : Nat) (e : Ecc) (s : State) : Host.Outcome State Fault Refusal :=
  .next (s.runUnit t 0 e 2 (fun n => decide (n.aop = 3)) (Tile.drain false))
/-- DRAIN_C (02 R48). -/
def execDrainC (t : Nat) (e : Ecc) (s : State) : Host.Outcome State Fault Refusal :=
  .next (s.runUnit t 0 e 2 (fun n => decide (n.aop = 4)) (Tile.drain true))
/-- ZERO (02 R47). -/
def execZero (t : Nat) (s : State) : Host.Outcome State Fault Refusal :=
  .next (s.runUnit t 0 .ok 2 (fun n => decide (n.aop = 5)) Tile.zeroPlane)

end Sys2Proof.Machine
end

