-- ==== Sys2Proof/Machine/Firing.lean ====
section
/-! DEFINITION. Passes, firings and transfers: PASS_START, FIRING_COMPLETE, NULL and MESH_TRANSFER (02 R35, R40,
R70-R76; 04 R116-R121; 05 R153, R157, R171; 13 R393). -/

namespace Sys2Proof.Machine

/-- A tile at the start of a pass: entry 0, loop counters and Sextant counts zero, streams at their base,
patterns at bit 0, ring windows at BASE. -/
def Tile.startPass (x : Tile) (m : TileImg) : Tile :=
  let str := (List.range 16).foldl (fun t i =>
      tset {} t i (⟨sdBase (m.sd i), sdBase (m.sd i), 0, 0⟩ : Stream)) ([] : Tab Stream)
  let steer := (List.range 4).foldl (fun t u => tmod {} t u (fun v : Steer => { v with pat := 0 })) x.steer
  let x := { x with entry := 0, fired := 0, lc := [], streams := str, steer := steer, sx := [], occ := [], passes := x.passes + 1 }
  (x.ringReset m).enterWait m

/-- PASS_START (R153): of an idle tile when the RUN begins, of a done one while the RUN has passes left. -/
def execPassStart (t : Nat) (s : State) : Host.Outcome State Fault Refusal :=
  match s.run, s.img t with
  | some r, some m =>
    let x := s.tile t
    if (x.st = .idle ∨ x.st = .done) ∧ x.passes < r.steps ∧ ¬ r.waiting ∧ s.rcv.phase = .idle ∧ s.wp.released
        ∧ ¬ s.doorClosed .dataflow (s.physOf (tileRegion t)) then .next ((s.putTile t (x.startPass m)).progress t)
    else .next s
  | _, _ => .next s

/-- FIRING_COMPLETE (R35). -/
def execFiringComplete (t : Nat) (s : State) : Host.Outcome State Fault Refusal := .next (s.completeFiring t)

/-- NULL (R40): the firing of a null entry starts at once. -/
def execNull (t : Nat) (s : State) : Host.Outcome State Fault Refusal :=
  match s.img t with
  | none => .next s
  | some m =>
    let x := s.tile t
    if x.st = .wait ∧ (x.cur m).isNull ∧ ¬ s.doorClosed .dataflow (s.physOf (tileRegion t)) then .next (s.putTile t (x.start m))
    else .next s

/-! ## Transfers -/

/-- The tile at the far end of a Transom crossing that enters a region at tile `t` moving toward `d`. -/
def farTile (t : Nat) (d : Dir) : Nat :=
  match d with
  | .east => t - tileCol t + 7
  | .west => t - tileCol t
  | .south => t - 8 * tileRow t + 24
  | .north => t - 8 * tileRow t

/-- Tokens that wait in a Transom crossing. -/
def State.crossing (s : State) (t : Nat) (d : Dir) : List Token := tget [] s.transom (4 * t + dirIx d)
def State.setCrossing (s : State) (t : Nat) (d : Dir) (q : List Token) : State :=
  { s with transom := tset [] s.transom (4 * t + dirIx d) q }

/-- A region the loaded chart places. -/
def State.isPlaced (s : State) (r : Nat) : Bool := s.placedRegions.contains r

/-- A tile's mesh queues work: its region runs and has not stopped. -/
def State.meshUp (s : State) (t : Nat) : Bool :=
  decide ((s.tile t).st ≠ .stopped) && !s.doorClosed .dataflow (s.physOf (tileRegion t))

/-- Give a token that crosses a mesh link to the queue it reaches: the neighbour's facing input queue, or
the Transom crossing of an empty region; none without a free slot. A parity error is the receiving tile's fault; a crossing has
none, and the token goes on without it (log 100). -/
def State.deliver (s : State) (from' : Nat) (d : Dir) (k : Token) (parity : Bool) : Option State :=
  match neighbour s.variant from' d with
  | none => none
  | some n =>
    if s.isPlaced (tileRegion n) then
      let q := (s.tile n).inQ (dirOpp d)
      if 16 ≤ q.length ∨ ¬ s.meshUp n then none
      else
        let s := s.modTile n (fun x => x.setIn (dirOpp d) (q ++ [k]))
        some (if parity then s.tileFault n 4 [] else s)
    else
      let q := s.crossing n d
      if 16 ≤ q.length then none else some (s.setCrossing n d (q ++ [k]))

/-- MESH_TRANSFER (R119): the oldest token of output queue `d` of a tile, of a tap bound to that side into
the tile's input queue `d`, or of a Transom crossing toward `d`. -/
def execMeshTransfer (t : Nat) (d : Dir) (parityError : Bool) (s : State) : Host.Outcome State Fault Refusal :=
  if ¬ s.isPlaced (tileRegion t) then
    match s.crossing t d with
    | [] => .next s
    | k :: rest =>
      (match (s.setCrossing t d rest).deliver (farTile t d) d k parityError with
       | some s' => .next s'
       | none => .next s)
  else if ¬ s.meshUp t then .next s
  else
    match s.tapAt t d with
    | some (p, vc) =>
      let x := s.port p
      (match (x.tap vc).queue with
       | [] => .next s
       | (k, last) :: rest =>
         let q := (s.tile t).inQ d
         if 16 ≤ q.length ∨ s.linkDoor p then .next s
         else
           let y := x.setTap vc { x.tap vc with queue := rest }
           let s := s.setPort p (if last then y.free vc else y)
           let s := s.modTile t (fun x => x.setIn d (q ++ [k]))
           .next (if parityError then s.tileFault t 4 [] else s))
    | none =>
      match (s.tile t).outQ d with
      | [] => .next s
      | k :: rest =>
        (match (s.modTile t (fun x => x.setOut d rest)).deliver t d k parityError with
         | some s' => .next s'
         | none => .next s)

end Sys2Proof.Machine
end

