-- ==== Sys2Proof/Machine/Image.lean ====
section
/-! DEFINITION. The chart image as the Helm reads it from device memory (05 R145, R146, R151, R156, R158, R159,
R168; 06 R194; 07 R218; 08 R257; 09 R286). What it reads of a malformed image is rejected by the checks. -/

namespace Sys2Proof.Machine

/-- A section directory entry (05 Table CHRT-2). -/
structure Sec where
  typ   : Nat
  resv  : Nat
  count : Nat
  off   : Nat
  len   : Nat
  deriving DecidableEq, Repr

/-- The image under check: where it starts, its header fields and its directory. -/
structure Image where
  base     : Nat
  size     : Nat
  regions  : Nat
  ntensors : Nat
  wps      : Nat
  id       : Nat
  secs     : List Sec
  deriving DecidableEq, Repr

/-- `n` records of `sz` bytes from an address, each read by `f`. -/
def records {α : Type} (a sz n : Nat) (f : Nat → α) : List α := (List.range n).map (fun i => f (a + sz * i))

/-- `n` numbers of `k` bytes from an address. -/
def State.nats (s : State) (a k n : Nat) : List Nat := records a k n (fun x => s.devNat x k)

/-- The header and directory. -/
def State.image (s : State) (a : Nat) : Image :=
  { base := a, size := s.devNat (a + 8) 8, regions := s.devNat (a + 0x18) 2, ntensors := s.devNat (a + 0x1A) 2,
    wps := s.devNat (a + 0x20) 4, id := s.devNat (a + 0x10) 8
    secs := records (a + 0x40) 24 (s.devNat (a + 0x1C) 2) (fun x =>
      ⟨s.devNat x 2, s.devNat (x + 2) 2, s.devNat (x + 4) 4, s.devNat (x + 8) 8, s.devNat (x + 0x10) 8⟩) }

/-- The section of a type. -/
def Image.sec (m : Image) (t : Nat) : Option Sec := m.secs.find? (fun x => decide (x.typ = t))
/-- Device address, length and record count of a section; all zero for one the image does not carry. -/
def Image.at' (m : Image) (t : Nat) : Nat := match m.sec t with | some x => m.base + x.off | none => 0
def Image.lenOf (m : Image) (t : Nat) : Nat := match m.sec t with | some x => x.len | none => 0
def Image.countOf (m : Image) (t : Nat) : Nat := match m.sec t with | some x => x.count | none => 0
def Image.has (m : Image) (t : Nat) : Bool := (m.sec t).isSome
/-- Tiles of the placement. -/
def Image.ntiles (m : Image) : Nat := 32 * m.regions

/-- A step entry (02 Table TILE-15). -/
def State.entryImg (s : State) (a : Nat) : Entry :=
  let w := fun i => BitVec.ofNat 32 (s.devNat (a + 4 * i) 4)
  { ctrl := w 0, array := w 1, gemv := w 2, vec := w 3, mem0 := w 4, mem1 := w 5, route := w 6, mem2 := w 7 }

/-- A tile image (05 Tables CHRT-5, CHRT-6). -/
def State.tileImg (s : State) (a : Nat) : TileImg :=
  { creg := s.devNat a 2, trow := s.devNat (a + 2) 1, tcol := s.devNat (a + 3) 1, mapping := s.devNat (a + 6) 1
    seed := BitVec.ofNat 64 (s.devNat (a + 8) 8), cset := s.nats (a + 0x10) 2 8, resid := s.devNat (a + 0x20) 4
    checkFirst := s.devNat (a + 0x24) 4, checkCount := s.devNat (a + 0x28) 1, pldesc := s.nats (a + 0x40) 2 16
    streams := (s.nats (a + 0x80) 8 16).map (BitVec.ofNat 64), loops := s.nats (a + 0x100) 2 8
    steer := records (a + 0x120) 16 4 (fun x => (BitVec.ofNat 64 (s.devNat x 8), BitVec.ofNat 64 (s.devNat (x + 8) 8)))
    wins := records (a + 0x160) 16 8 (fun x => s.devRead x 16), ptrs := s.nats (a + 0x200) 4 256
    entries := records (a + 0x600) 32 (s.devNat (a + 4) 2) s.entryImg }

/-- A residency image (05 R159). -/
def State.residImg (s : State) (a : Nat) : List Extent :=
  records (a + 8) 16 (s.devNat a 4) (fun x =>
    ⟨bitOf (s.devNat x 4) 31, s.devNat x 4 % 2 ^ 17, s.devNat (x + 4) 4, s.devNat (x + 8) 8⟩)

/-- A tensor record (05 Table CHRT-8). -/
def State.tensorImg (s : State) (a : Nat) : Tensor :=
  let f := s.devNat (a + 3) 1
  ⟨s.devNat (a + 2) 1, bitOf f 0, bitOf f 1, s.devNat (a + 8) 8, s.devNat (a + 0x10) 8, s.devNat (a + 0x18) 8⟩

/-- The TIER section (06 Tables TIER-3 to TIER-6, R204). -/
def State.tierImg (s : State) (a : Nat) : Tier :=
  { save := s.devNat (a + 0x10) 8
    streams := records (a + s.devNat (a + 0x18) 8) 64 (s.devNat a 4) (fun x =>
      { tile := s.devNat x 4, window := s.devNat (x + 4) 1, kind := s.devNat (x + 5) 1, space := s.devNat (x + 6) 1
        seg := s.devNat (x + 7) 1, group := s.devNat (x + 8) 4, lead := s.devNat (x + 0xC) 2, zevery := s.devNat (x + 0xE) 2
        base := s.devNat (x + 0x10) 8, alt := s.devNat (x + 0x18) 8, rowBytes := s.devNat (x + 0x20) 4
        rows := s.devNat (x + 0x24) 4, rowPitch := s.devNat (x + 0x28) 8, planes := s.devNat (x + 0x30) 4
        planePitch := s.devNat (x + 0x38) 8 })
    retains := records (a + s.devNat (a + 0x20) 8) 16 (s.devNat (a + 4) 2) (fun x =>
      ⟨s.devNat x 8, s.devNat (x + 8) 4, s.devNat (x + 0xC) 2⟩)
    lends := records (a + s.devNat (a + 0x28) 8) 8 (s.devNat (a + 6) 2) (fun x =>
      ⟨s.devNat x 1, s.devNat (x + 1) 1, s.devNat (x + 2) 1, s.devNat (x + 3) 1, s.devNat (x + 4) 2, s.devNat (x + 6) 1⟩)
    hsegs := records (a + s.devNat (a + 0x30) 8) 16 (s.devNat (a + 8) 2) (fun x =>
      ⟨s.devNat x 8, s.devNat (x + 8) 2, bitOf (s.devNat (x + 0xA) 2) 0⟩)
    lives := records (a + s.devNat (a + 0x38) 8) 16 (s.devNat (a + 0xA) 2) (fun x =>
      ⟨s.devNat x 4, s.devNat (x + 4) 4, s.devNat (x + 8) 8⟩) }

/-- The UPDATE section (07 Tables UPD-3 to UPD-6). -/
def State.updImg (s : State) (a : Nat) : Upd :=
  { commit := s.devNat (a + 8) 8, cwpt := s.devNat (a + 0x10) 4, save := s.devNat (a + 0x30) 8
    units := records (a + s.devNat (a + 0x18) 8) 64 (s.devNat a 2) (fun x =>
      { stack := s.devNat x 1, unit := s.devNat (x + 1) 1, runFirst := s.devNat (x + 4) 4, runCount := s.devNat (x + 8) 4
        blocks := s.devNat (x + 0xC) 4, map := s.devNat (x + 0x10) 8, mapLen := s.devNat (x + 0x18) 4
        poolSize := s.devNat (x + 0x1C) 4, pool := s.devNat (x + 0x20) 8, stage := s.devNat (x + 0x28) 8
        frames := s.devNat (x + 0x30) 8, frameCnt := s.devNat (x + 0x38) 2, pageWpt := s.devNat (x + 0x3A) 2 })
    groups := records (a + s.devNat (a + 0x20) 8) 64 (s.devNat (a + 2) 2) (fun x =>
      let f := fun (o : Nat) => BitVec.ofNat 32 (s.devNat (x + o) 4)
      { opt := s.devNat x 1, nesterov := bitOf (s.devNat (x + 1) 1) 0, host := bitOf (s.devNat (x + 1) 1) 1
        hseg := s.devNat (x + 2) 1, lr := f 4, b1 := f 8, b2 := f 0xC, eps := f 0x10, wd := f 0x14, gscale := f 0x18
        eps1 := f 0x1C, lrs := s.devNat (x + 0x20) 8, lrsLen := s.devNat (x + 0x28) 4, rows := s.devNat (x + 0x2C) 4
        cols := s.devNat (x + 0x30) 4, frow := s.devNat (x + 0x34) 4, fcol := s.devNat (x + 0x38) 4 })
    runs := records (a + s.devNat (a + 0x28) 8) 32 (s.devNat (a + 4) 4) (fun x =>
      ⟨s.devNat x 2, s.devNat (x + 4) 4, s.devNat (x + 8) 4, s.devNat (x + 0xC) 4, s.devNat (x + 0x10) 8⟩) }

/-- The MAP section (08 Tables MAP-2, MAP-3, MAP-6, MAP-8). -/
def State.mapImg (s : State) (a : Nat) : MapSec :=
  { len := s.nats a 1 4, pos := s.nats (a + 4) 1 4, machine := s.devNat (a + 8) 8, micro := s.devNat (a + 0x10) 2
    vchunk := s.devNat (a + 0x12) 1, layers := s.devNat (a + 0x14) 2, layersH := s.devNat (a + 0x16) 2
    heads := s.devNat (a + 0x18) 2, headsH := s.devNat (a + 0x1A) 2, experts := s.devNat (a + 0x1C) 2
    expertsH := s.devNat (a + 0x1E) 2, dmode := s.devNat (a + 0x20) 1
    taps := records (a + s.devNat (a + 0x28) 8) 16 (s.devNat (a + 0x21) 1) (fun x =>
      ⟨s.devNat x 1, s.devNat (x + 1) 1, s.devNat (x + 2) 1, s.devNat (x + 4) 4, s.devNat (x + 8) 4, s.devNat (x + 0xC) 4⟩)
    rings := records (a + s.devNat (a + 0x30) 8) 16 (s.devNat (a + 0x22) 1) (fun x =>
      ⟨s.devNat x 1, s.devNat (x + 1) 1, s.devNat (x + 2) 1, s.devNat (x + 3) 1, s.devNat (x + 4) 4, s.devNat (x + 8) 4⟩)
    disps := records (a + s.devNat (a + 0x38) 8) 16 (s.devNat (a + 0x23) 1) (fun x =>
      ⟨s.devNat x 1, s.devNat (x + 2) 2, s.devNat (x + 4) 4, s.devNat (x + 8) 2⟩) }

/-- The REDUCE section (09 Tables REDN-1, REDN-2). -/
def State.redImg (s : State) (a : Nat) : RedSec :=
  { thin := s.devNat (a + 2) 2, arec := s.devNat (a + 0x18) 8
    groups := records (a + s.devNat (a + 8) 8) 64 (s.devNat a 2) (fun x =>
      { ugroup := s.devNat x 2, axes := s.devNat (x + 2) 1, vc := s.devNat (x + 3) 1, buckets := s.devNat (x + 4) 4
        grad0 := s.devNat (x + 8) 8, grad1 := s.devNat (x + 0x10) 8, wimage := s.devNat (x + 0x18) 8
        agree := s.devNat (x + 0x20) 8, gstream := s.devNat (x + 0x28) 4, dshift := s.devNat (x + 0x2C) 1
        headroom := s.devNat (x + 0x2D) 1 })
    gtensors := s.nats (a + s.devNat (a + 0x10) 8) 2 (s.devNat (a + 4) 4) }

/-- A tile report record (05 Table CHRT-14). -/
def State.reportImg (s : State) (a : Nat) : TileRep :=
  ⟨s.devNat a 8, s.devNat (a + 8) 8, s.nats (a + 0x10) 4 10, s.devNat (a + 0x38) 2⟩

/-- A check record (05 Table CHRT-15). -/
def State.checkImg (s : State) (a : Nat) : CheckRec :=
  ⟨s.devNat a 4, s.devNat (a + 4) 2, s.nats (a + 8) 4 11, s.nats (a + 0x40) 4 11⟩

/-- The address of tile image `i` and of residency image `k`. -/
def State.tileOff (s : State) (m : Image) (i : Nat) : Nat := s.devNat (m.at' 2 + 4 * i) 4
def State.residOff (s : State) (m : Image) (k : Nat) : Nat := s.devNat (m.at' 3 + 8 * k) 8

/-- The chart that an image holds. -/
def State.readChart (s : State) (a : Nat) : Chart :=
  let m := s.image a
  let rep := m.at' 7
  { image := a, size := m.size, id := m.id, digest := [], wps := m.wps
    place := records (m.at' 1) 4 m.regions (fun x => (s.devNat x 1, s.devNat (x + 1) 1, s.devNat (x + 2) 1))
    tiles := (List.range m.ntiles).map (fun i => s.tileImg (m.at' 2 + s.tileOff m i))
    resid := (List.range (m.countOf 3)).map (fun k => s.residImg (m.at' 3 + s.residOff m k))
    tensors := records (m.at' 4) 32 m.ntensors s.tensorImg
    tally := s.devNat (m.at' 5) 8, wptArea := s.devNat (m.at' 6) 8
    summary := ⟨s.devNat rep 8, s.devNat (rep + 8) 8, s.devNat (rep + 0x10) 4, s.devNat (rep + 0x14) 4, s.devNat (rep + 0x18) 4⟩
    reports := records (rep + 64) 64 m.ntiles s.reportImg
    checks := records (rep + 64 + 64 * m.ntiles) 128 (m.countOf 7) s.checkImg
    tier := if m.has 8 then some (s.tierImg (m.at' 8)) else none
    red := if m.has 9 then some (s.redImg (m.at' 9)) else none
    upd := if m.has 10 then some (s.updImg (m.at' 10)) else none
    map := if m.has 11 then some (s.mapImg (m.at' 11)) else none
    hasTier := m.has 8 }

end Sys2Proof.Machine
end

