-- ==== Sys2Proof/Machine/ImageChecks.lean ====
section
/-! DEFINITION. Verdicts of CHART_LOAD and the image checks I01 to I08 (05 R147, Tables CHRT-4, CHRT-18, R358 of 11):
each gives nothing when the image passes. -/

namespace Sys2Proof.Machine

/-- A check that failed: its code as R356 writes it, and the chart tile it names. -/
structure Fail where
  code : Nat
  tile : Option Nat
  deriving DecidableEq, Repr

/-- What a check says. -/
abbrev Verdict := Option Fail

def codeI (n : Nat) : Nat := 0x49 * 2 ^ 24 + n
def codeT (n : Nat) : Nat := 0x54 * 2 ^ 24 + n
def codeU (n : Nat) : Nat := 0x55 * 2 ^ 24 + n
def codeM (n : Nat) : Nat := 0x4D * 2 ^ 24 + n
def codeG (n : Nat) : Nat := 0x47 * 2 ^ 24 + n
def codeV (n : Nat) : Nat := 0x56 * 2 ^ 24 + n

/-- A check that names no tile. -/
def must (code : Nat) (ok : Bool) : Verdict := if ok then none else some ⟨code, none⟩

/-- The presented tile of chart tile index `i` (05 R149). -/
def Chart.tileNo (c : Chart) (i : Nat) : Nat :=
  let (d, r, k) := c.place.getD (i / 32) (0, 0, 0)
  32 * mkRegion d r k + i % 32

/-- Global row, then global column, as one number. -/
def Chart.order (c : Chart) (v i : Nat) : Nat := 65536 * globalRow v (c.tileNo i) + globalCol v (c.tileNo i)

/-- The first of some chart tiles: the lowest global row, then the lowest global column (04 R141). -/
def Chart.first (c : Chart) (v : Nat) (is : List Nat) : Option Nat :=
  is.foldl (fun b i => match b with | none => some i | some j => if c.order v i < c.order v j then some i else some j) none

/-- A check on every chart tile, naming the first that fails. -/
def Chart.mustTiles (c : Chart) (v code : Nat) (ok : Nat → Bool) : Verdict :=
  match c.first v ((List.range c.tiles.length).filter (fun i => !ok i)) with
  | none => none
  | some i => some ⟨code, some i⟩

/-- No two of some ranges overlap. -/
def apart : List (Nat × Nat) → Bool
  | [] => true
  | x :: xs => xs.all (fun y => !overlaps x.1 x.2 y.1 y.2) && apart xs

/-- A range lies in device memory, outside the image and the journal reservation. -/
def State.freeRange (s : State) (c : Chart) (x : Nat × Nat) : Bool :=
  s.inDevice x.1 x.2 && !overlaps x.1 x.2 c.image c.size && !overlaps x.1 x.2 journalBase journalBytes

/-- Bytes [off, off + n) of a structure are zero. -/
def State.zero (s : State) (a n : Nat) : Bool := decide (s.devNat a n = 0)

/-- A table of `n` records of `sz` bytes fits its section, 64-byte aligned. -/
def tableFits (len off sz n : Nat) : Bool := decide (off % 64 = 0 ∧ off + sz * n ≤ len)

/-! ## I01 to I04 -/

/-- I01 (05 Table CHRT-1). -/
def State.headerOk (s : State) (a : Nat) : Bool :=
  decide (s.devNat a 4 = 0x54524843 ∧ s.devNat (a + 4) 2 = 2 ∧ s.devNat (a + 6) 1 = s.variant ∧ s.devNat (a + 7) 1 = 0xB1 ∧
    1 ≤ s.devNat (a + 0x18) 2 ∧ s.devNat (a + 0x18) 2 ≤ 24 * s.variant) && s.zero (a + 0x1E) 2 && s.zero (a + 0x24) 28

/-- I02: the image, its directory and its sections. -/
def State.directoryOk (s : State) (m : Image) : Bool :=
  let head := 0x40 + 24 * m.secs.length
  s.inDevice m.base m.size && decide (head ≤ m.size) &&
    m.secs.all (fun x => decide (x.resv = 0 ∧ x.off % 64 = 0 ∧ x.off + x.len ≤ m.size)) &&
    apart ((0, head) :: m.secs.map (fun x => (x.off, x.len)))

/-- I03: required sections once, no type twice, none reserved (05 Table CHRT-3). -/
def Image.sectionsOk (m : Image) : Bool :=
  let ts := m.secs.map (·.typ)
  [1, 2, 4, 5, 6, 7].all (fun t => ts.contains t) && decide ts.Nodup && ts.all (fun t => decide (1 ≤ t ∧ t ≤ 11))

/-- I04: the placement (05 R149). -/
def State.placeOk (s : State) (m : Image) (c : Chart) : Bool :=
  decide (m.countOf 1 = m.regions ∧ 4 * m.regions ≤ m.lenOf 1) &&
    c.place.all (fun (d, r, k) => decide (d < s.variant ∧ r ≤ 3 ∧ k ≤ 5)) && decide c.place.Nodup &&
    (List.range m.regions).all (fun i => s.zero (m.at' 1 + 4 * i + 3) 1)

/-! ## I05 to I07 -/

/-- The TILES section holds 32 × REGIONS offsets. -/
def Image.tilesFit (m : Image) : Bool := decide (m.countOf 2 = m.ntiles ∧ 4 * m.ntiles ≤ m.lenOf 2)

/-- I05 for one tile, without its clause on WPT entries per pass (05 Tables CHRT-5, CHRT-6). -/
def State.tileOk (s : State) (m : Image) (c : Chart) (i : Nat) : Bool :=
  let a := m.at' 2 + s.tileOff m i
  let x := c.tiles.getD i {}
  let e := x.entryAt (x.entries.length - 1)
  decide (s.tileOff m i + 0x600 + 32 * x.entries.length ≤ m.lenOf 2 ∧ 1 ≤ x.entries.length ∧ x.entries.length ≤ 2048) &&
    decide (x.creg = i / 32 ∧ x.trow = i % 32 / 8 ∧ x.tcol = i % 8) && e.isWpt && decide (e.seq = 3 ∧ x.mapping < 4) &&
    s.zero (a + 7) 1 && s.zero (a + 0x29) 23 && s.zero (a + 0x60) 32 && s.zero (a + 0x110) 16 && s.zero (a + 0x1E0) 32 &&
    x.cset.all (fun t => decide (t = 0xFFFF ∨ t < m.ntensors)) && decide (x.resid = 0xFFFFFFFF ∨ x.resid < m.countOf 3)

/-- I06 for one tile: pointer lists and entries (05 R156). -/
def TileImg.pointersOk (x : TileImg) : Bool :=
  (List.range 16).all (fun k =>
    decide (x.plFirst k + x.plLen k ≤ 256) &&
      (decide (x.pldesc.getD k 0 = 0) || x.streams.any (fun d => sdPlist d && decide (sdPlidx d = k)))) &&
    x.ptrs.all (fun p => decide (p < 2 ^ 17))

/-- Extents in ascending order without overlap. -/
def extentsRise : List Extent → Bool
  | x :: y :: r => decide (x.waddr + x.words ≤ y.waddr) && extentsRise (y :: r)
  | _ => true

/-- I07 for one residency image (05 R159). -/
def State.residOk (s : State) (m : Image) (c : Chart) (k : Nat) : Bool :=
  let a := m.at' 3 + s.residOff m k
  let es := c.resid.getD k []
  decide (s.residOff m k + 8 + 16 * es.length ≤ m.lenOf 3) && s.zero (a + 4) 4 && extentsRise es &&
    es.zipIdx.all (fun (e, j) =>
      decide (bitsOf (s.devNat (a + 8 + 16 * j) 4) 30 17 = 0 ∧ 1 ≤ e.words ∧ e.waddr + e.words ≤ 131072) &&
        (if e.live then s.freeRange c (e.source, 4 * e.words) else decide (e.source + 4 * e.words ≤ c.size)))

/-! ## I08 -/

/-- A tensor record (05 Table CHRT-8). -/
def State.tensorOk (s : State) (m : Image) (c : Chart) (i : Nat) : Bool :=
  let a := m.at' 4 + 32 * i
  let t := c.tensors.getD i ⟨0, false, false, 0, 0, 0⟩
  decide (s.devNat a 2 = i ∧ (t.fmt ≤ 0xB ∨ t.fmt = 0xFF) ∧ s.devNat (a + 3) 1 < 4) && s.zero (a + 4) 4 &&
    (!t.bound || decide (t.addr = 0)) && (t.scaled || decide (t.scale = 0))

/-- The ranges the image itself declares: tensors with an address, scale records, tally table, save areas. -/
def Chart.baseRanges (c : Chart) : List (Nat × Nat) :=
  c.tensors.filterMap (fun t => if t.bound then none else some (t.addr, t.bytes)) ++
    c.tensors.filterMap (fun t => if t.scaled then some (t.scale, 128) else none) ++
    [(c.tally, 32 * c.tensors.length), (c.wptArea, 512 * c.tiles.length)]

/-- I08. -/
def State.rangesOk (s : State) (m : Image) (c : Chart) : Bool :=
  decide (m.countOf 4 = m.ntensors ∧ 32 * m.ntensors ≤ m.lenOf 4) && (List.range m.ntensors).all (s.tensorOk m c) &&
    decide (m.countOf 5 = 1 ∧ m.lenOf 5 = 16 ∧ m.countOf 6 = 1 ∧ m.lenOf 6 = 16) &&
    decide (s.devNat (m.at' 5 + 8) 8 = 32 * m.ntensors ∧ s.devNat (m.at' 6 + 8) 8 = 512 * m.ntiles) &&
    c.baseRanges.all (s.freeRange c) && apart c.baseRanges && !overlaps c.image c.size journalBase journalBytes

/-! ## Step 1 of R479 -/

/-- The image checks I01 to I08. -/
def State.imageChecks (s : State) (a : Nat) : Verdict :=
  let m := s.image a
  let c := s.readChart a
  must (codeI 2) (s.inDevice a 64) <|> must (codeI 1) (s.headerOk a) <|> must (codeI 2) (s.directoryOk m) <|>
  must (codeI 3) m.sectionsOk <|> must (codeI 4) (s.placeOk m c) <|> must (codeI 5) m.tilesFit <|>
  c.mustTiles s.variant (codeI 5) (s.tileOk m c) <|> c.mustTiles s.variant (codeI 6) (fun i => (c.tiles.getD i {}).pointersOk) <|>
  must (codeI 7) (decide (8 * m.countOf 3 ≤ m.lenOf 3) && (List.range (m.countOf 3)).all (s.residOk m c)) <|>
  must (codeI 8) (s.rangesOk m c)

end Sys2Proof.Machine
end

