-- ==== Sys2Proof/Machine/TrainOps.lean ====
section
/-! DEFINITION. Where a training step stands (05 R153, 07 R225, 09 R285), the commit and agreement records
(07 R246, 09 R293), the owners of buckets (08 R272) and the chunks a module handles (09 R302-R304). -/

namespace Sys2Proof.Machine

/-! ## The training step in progress -/

def State.updSec (s : State) : Option Upd := match s.chart with | some c => c.upd | none => none
def State.redSec (s : State) : Option RedSec := match s.chart with | some c => c.red | none => none

/-- The next waypoint is the commit waypoint (07 Table UPD-3 CWPT). -/
def State.cwptNext (s : State) : Bool :=
  match s.updSec with
  | some u => decide (s.wptIx = u.cwpt)
  | none => false

/-- The number of the commit waypoint of the training step in progress. -/
def State.commitWpt (s : State) : Nat :=
  match s.chart, s.updSec with
  | some c, some u => s.wp.count / c.wps * c.wps + u.cwpt + 1
  | _, _ => 0

/-! ## Commit record (07 Table UPD-8) and agreement record (09 R293) -/

/-- A number of the commit record. -/
def State.commitNat (s : State) (off n : Nat) : Nat :=
  match s.updSec with
  | some u => s.devNat (u.commit + off) n
  | none => 0

/-- The training step in progress is a commit step (09 R285). -/
def State.commitStep (s : State) : Bool :=
  match s.redSec with
  | some r => decide ((s.commitNat 0x18 8 + 1) % r.thin = 0)
  | none => false

/-- S of the commit record. -/
def State.lossExp (s : State) : Int := signed 32 (s.commitNat 4 4)

/-- A listed gradient tensor's tally has recorded a non-finite value (07 R247). -/
def State.tallyBad (s : State) : Bool :=
  match s.chart, s.redSec with
  | some c, some r => r.gtensors.any (fun t => decide (s.devNat (c.tally + 32 * t + 0x14) 4 ≠ 0))
  | _, _ => false

/-- The module's non-finite bit (09 R292). -/
def State.nonfinBit (s : State) : Bool := decide (s.commitNat 1 1 = 1) || s.tallyBad || s.redn.scanBad

/-- Write the agreement record (09 R293) and keep the flag it holds. -/
def State.writeAgreement (s : State) (flag : Bool) : State :=
  match s.redSec with
  | some r =>
    let s := s.devWrite r.arec (leBytes 1 (if flag then 1 else 0) ++ zeros 7 ++ leBytes 8 (s.commitNat 0x18 8) ++ zeros 48)
    let s := s.setObj 0x5100 3 (if flag then 1 else 0)
    { s with redn := { s.redn with flag := flag, flagSet := true } }
  | none => s

/-! ## Spreading units over positions (08 R272) -/

/-- Units of position `p` when `N` units are spread over `n` positions. -/
def shareOf (N n p : Nat) : Nat := N / n + (if p < N % n then 1 else 0)
/-- The first unit of position `p`. -/
def shareStart (N n p : Nat) : Nat := p * (N / n) + min p (N % n)
/-- The position that owns unit `i`. -/
def shareOwner (N n i : Nat) : Nat :=
  let q := N / n
  let r := N % n
  if i < r * (q + 1) then i / (q + 1) else if q = 0 then r else r + (i - r * (q + 1)) / q

/-! ## Reduction groups -/

/-- The axes a group reduces over, in the order A, C, D (09 R304). -/
def RGroup.axisList (g : RGroup) : List Nat :=
  [(0, 0), (1, 2), (2, 3)].filterMap (fun (b, a) => if g.axes.testBit b then some a else none)

/-- G: the members of a group. -/
def State.groupSize (s : State) (g : RGroup) : Nat := (g.axisList.map s.runLen).foldl (· * ·) 1

/-- ⌈log2 n⌉. -/
def clog2 (n : Nat) : Nat := if n ≤ 1 then 0 else Nat.log2 (n - 1) + 1

/-- The headroom of a group (09 R295). -/
def State.headroom (s : State) (g : RGroup) : Nat := if g.headroom = 0 then clog2 (s.groupSize g) + 1 else g.headroom

def State.rgroup (s : State) (i : Nat) : Option RGroup := match s.redSec with | some r => r.groups[i]? | none => none

/-- The owner on axis A of a bucket; on C or D the owner of its sub-shard within the shard (09 R302, R304). -/
def State.bucketOwner (s : State) (g : RGroup) (axis bucket : Nat) : Nat :=
  let la := s.runLen 0
  if axis = 0 then shareOwner g.buckets la bucket
  else
    let a := shareOwner g.buckets la bucket
    shareOwner (shareOf g.buckets la a) (s.runLen axis) (bucket - shareStart g.buckets la a)

/-- This module owns a bucket on axis A. -/
def State.ownsBucket (s : State) (g : RGroup) (bucket : Nat) : Bool := decide (s.bucketOwner g 0 bucket = s.runPos 0)

/-- Chunks of a bucket half in phase 1 and elements of chunk `c` (09 R302). -/
def chunkElems (c : Nat) : Nat := if c = 170 then 32 else 48

/-- The hops a chunk has made when it reaches a module on an axis: 0 at the module that begins its chain,
L − 1 at the owner (09 R303). -/
def State.chainPlace (s : State) (axis owner half : Nat) : Nat :=
  let l := s.runLen axis
  if half = 0 then modSub l (s.runPos axis) (owner + 1) else modSub l (owner + l - 1) (s.runPos axis)

/-- Hops of a distributing run, 0 at the owner. -/
def State.runPlace (s : State) (axis owner half : Nat) : Nat :=
  let l := s.runLen axis
  if half = 0 then modSub l (s.runPos axis) owner else modSub l owner (s.runPos axis)

/-- The port on which a chunk of a half leaves on an axis: the first half travels toward +, on the S8 by
port c mod 2 of the pair (09 R302). -/
def State.chunkPort (s : State) (axis half chunk : Nat) : Nat :=
  2 * axis + (if half = 0 then 0 else 1) + (if s.variant = 8 then 8 * (chunk % 2) else 0)

/-- The message header (09 Table REDN-7). -/
def redHeader (group bucket chunk half low : Nat) : List Byte :=
  leBytes 6 (group * 2 ^ 40 + bucket * 2 ^ 16 + chunk * 2 ^ 8 + half * 2 ^ 7 + low)

/-! ## The FP32 copy and the exponents (09 R287, R291, R294, R295) -/

/-- The current copy of a group's gradients: by the generation of GSTREAM saved at the commit waypoint. -/
def State.gradCopy (s : State) (g : RGroup) : Nat :=
  match s.chart with
  | some c =>
    (match c.tier with
     | some t =>
       let gen := s.devNat (t.save + 16 * t.streams.length * (s.commitWpt % 2) + 16 * g.gstream + 8) 4
       if gen % 2 = 0 then g.grad0 else g.grad1
     | none => g.grad0)
  | none => g.grad0

/-- Element `e` of a bucket in the current copy. -/
def State.gradElem (s : State) (g : RGroup) (bucket e : Nat) : W32 :=
  BitVec.ofNat 32 (s.devNat (s.gradCopy g + 65536 * bucket + 4 * e) 4)

/-- The agreed exponent byte of a bucket. -/
def State.agreedByte (s : State) (g : RGroup) (bucket : Nat) : Nat := s.devNat (g.agree + g.buckets + bucket) 1

/-- k of 09 R295. -/
def State.shiftK (s : State) (g : RGroup) (bucket : Nat) : Int :=
  31 - (s.headroom g : Int) - ((s.agreedByte g bucket : Int) - 126)

/-- The integer a member contributes for an element (09 R295). -/
def State.qValue (s : State) (g : RGroup) (bucket e : Nat) : W32 :=
  if s.agreedByte g bucket = 0 then 0
  else BitVec.ofNat 32 (unsigned 32 (roundInt .nearest (scaleV (ofF32 (s.gradElem g bucket e)) (s.shiftK g bucket))))

/-- The reduced value of a complete sum as FP16, and whether it saturated (07 R222, 09 R296). -/
def State.stagedValue (s : State) (g : RGroup) (bucket : Nat) (sum : W32) : W16 × Bool :=
  if sum = 0 then (0, false)
  else
    let v := scaleV (intV 32 sum.toNat) (-(s.shiftK g bucket) - (g.dshift : Int))
    let w := convF fp16 .nearest v 1
    if w % 0x8000 = 0x7C00 then (BitVec.ofNat 16 (w - 1), true) else (BitVec.ofNat 16 w, false)

end Sys2Proof.Machine
end

