-- ==== Sys2Proof/Machine/Walk.lean ====
section
/-! DEFINITION. The sequence of a tile walked without its tokens (02 R33, R39; 05 R153): the entries in the
order in which a pass fires them, and what that fixes of waypoints and port accesses. -/

namespace Sys2Proof.Machine

/-- More entry executions than any pass the spec allows a chart; it bounds a walk. -/
def passFuel : Nat := 2 ^ 140

/-- Sequence control (02 R39): loop counters and the next entry, none at the end of the sequence. -/
def seqNext (m : TileImg) (i : Nat) (lc : Tab Nat) : Tab Nat × Option Nat :=
  let e := m.entryAt i
  match e.seq with
  | 1 =>
    let c := tget 0 lc e.loop
    if c < m.loops.getD e.loop 0 then (tset 0 lc e.loop (c + 1), some e.tgt) else (tset 0 lc e.loop 0, some (i + 1))
  | 3 => (lc, none)
  | _ => (lc, some (i + 1))

/-- Fold over the entries of a pass in the order they run, each with its REPEAT + 1 firings at once. -/
def foldPass {β : Type} (m : TileImg) (f : β → Nat → β) : Nat → Nat → Tab Nat → β → β
  | 0, _, _, b => b
  | n + 1, i, lc, b =>
    if m.entries.length ≤ i then b
    else
      let b := f b i
      match seqNext m i lc with
      | (_, none) => b
      | (lc', some j) => foldPass m f n j lc' b

/-- What a walk keeps of a window: open, firings of the span, port accesses so far, and their number at each
waypoint of the pass. -/
structure WinWalk where
  opened : Bool := false
  fired  : Nat := 0
  total  : Nat := 0
  cums   : List Nat := []
  deriving DecidableEq, Repr

/-- A window over one entry's firings (06 R188, R190). -/
def winStep (m : TileImg) (k : Nat) (w : WinWalk) (i : Nat) : WinWalk :=
  let b := m.win k
  let e := m.entryAt i
  let n := e.rep + 1
  let q := wdEvery b + 1
  let w := if i = wdOpen b ∧ ¬ w.opened then { w with opened := true, fired := 0 } else w
  let w := if w.opened then
      { w with total := w.total + (ceilDiv (w.fired + n) q - ceilDiv w.fired q), fired := w.fired + n } else w
  let w := if w.opened ∧ i = wdClose b then { w with opened := false, fired := 0 } else w
  if e.isWpt then { w with cums := w.cums ++ [w.total] } else w

/-- Port accesses of a window up to each waypoint of a pass. -/
def winCums (m : TileImg) (k : Nat) : List Nat := (foldPass m (winStep m k) passFuel 0 [] {}).cums

/-- The WPT entries a pass completes. -/
def wptsOf (m : TileImg) : Nat := foldPass m (fun n i => if (m.entryAt i).isWpt then n + 1 else n) passFuel 0 [] 0

end Sys2Proof.Machine
end

