-- ==== Sys2Proof/Machine/Tiers.lean ====
section
/-! DEFINITION. The memory tiers: region stores, tier streams, lent and host segments, port accesses (06 R174-R204,
R208). -/

namespace Sys2Proof.Machine

/-! ## Streams -/

def State.tierSec (s : State) : Option Tier := match s.chart with | some c => c.tier | none => none
def State.tsRec (s : State) (i : Nat) : Option TierStream := match s.tierSec with | some t => t.streams[i]? | none => none

/-- The tile of a chart tile index. -/
def State.ctile (s : State) (i : Nat) : Nat := match s.chart with | some c => c.tileList.getD i 0 | none => 0

/-- The runs of a unit record. -/
def Upd.runsOf (c : Upd) (x : UnitRec) : List RunRec := (c.runs.drop x.runFirst).take x.runCount

/-- Chunks of a walk (06 R196). -/
def TierStream.len (r : TierStream) : Nat := r.rowBytes / 64 * r.rows * r.planes

/-- The offset of chunk `c` of a walk from its base. -/
def TierStream.chunkOff (r : TierStream) (c : Nat) : Nat :=
  let per := r.rowBytes / 64
  c / (per * r.rows) * r.planePitch + c / per % r.rows * r.rowPitch + 64 * (c % per)

/-- The tag space of a stream: 0 device memory, 1 + s host segment s. -/
def TierStream.tag (r : TierStream) : Nat := if r.space = 2 then 1 + r.seg else 0

/-- The slot offset of a host segment (06 R196). -/
def State.slotOff (s : State) (r : TierStream) : Nat :=
  if r.space ≠ 2 then 0
  else
    match s.tierSec with
    | some t =>
      let h := t.hsegs.getD r.seg ⟨0, 0, false⟩
      if h.slots = 0 then 0 else h.bytes / h.slots * (s.wp.tsteps % h.slots)
    | none => 0

/-- The address of access `n` of a stream's window from a base. -/
def State.chunkAt (s : State) (r : TierStream) (base n : Nat) : Nat := base + r.chunkOff (n % r.len) + s.slotOff r

/-- The tiles of a stream: its merge group, or its own tile (06 R197). -/
def State.members (s : State) (r : TierStream) : List Nat :=
  let own := s.ctile r.tile
  if r.kind = 1 ∧ r.group ≠ 0 then (regionTiles (tileRegion own)).filter (fun t => r.group.testBit (t % 32)) else [own]

/-- The stream of a tile's window. -/
def State.streamOf (s : State) (t w : Nat) : Option (Nat × TierStream) :=
  match s.tierSec with
  | some sec =>
    (sec.streams.zipIdx.find? (fun r => decide (r.1.window = w) && (s.members r.1).contains t)).map (fun r => (r.2, r.1))
  | none => none

/-- Accesses that a chart tile's window makes in a pass up to the waypoint after the first `k`. -/
def Chart.cumAt (c : Chart) (i w k : Nat) : Nat :=
  match c.tiles[i]? with
  | some m => (winCums m w).getD k 0
  | none => 0

/-- The chart tile indices of a stream's members (06 R197). -/
def TierStream.memberIxs (r : TierStream) : List Nat :=
  if r.kind = 1 ∧ r.group ≠ 0 then ((List.range 32).filter r.group.testBit).map (fun t => r.tile / 32 * 32 + t) else [r.tile]

/-- Accesses of a stream's window in the pass up to the end of the waypoint interval in progress: those of the member
that makes the most. -/
def State.accessLimit (s : State) (r : TierStream) : Nat :=
  match s.chart with
  | some c => (r.memberIxs.map (fun i => c.cumAt i r.window s.wptIx)).foldl max 0
  | none => 0

/-- The access the slowest member makes next. -/
def State.slowest (s : State) (i : Nat) (r : TierStream) : Nat :=
  let ms := (s.members r).map (fun t => tget 0 (s.tstream i).taken (t % 32))
  ms.foldl min (ms.headD 0)

/-! ## Region store (06 R177-R181) -/

def lineAddr (a : Nat) : Nat := a / 128
def setOf (line : Nat) : Nat := line % 4096

/-- The way of a set that the repair map disables (15 R458). -/
def State.wayOff (s : State) (r set : Nat) : Option Nat :=
  let pr := s.physOf r
  (s.rcv.effective.find? (fun e => decide (e.kind = 4 ∧ 28 * e.die + 7 * e.row + e.pcol = pr ∧ e.data % 4096 = set))).map
    (fun e => e.data / 4096 % 16)

/-- Ways a region lends in each set (06 R202). -/
def State.waysLent (s : State) (r : Nat) : Nat :=
  match s.tierSec with
  | some t => sumN ((t.lends.filter (fun l => decide (mkRegion l.die l.row l.col = r))).map (fun l => 2 * l.mib))
  | none => 0

/-- The ways of a set that hold lines: neither disabled nor lent, which are the highest-numbered enabled ones. -/
def State.ways (s : State) (r set : Nat) : List Nat :=
  let on := (List.range 16).filter (fun w => decide (s.wayOff r set ≠ some w))
  on.take (on.length - s.waysLent r)

def Region.line (x : Region) (set way : Nat) : Option Line :=
  (x.lines.find? (fun e => decide (e.1 = 16 * set + way))).map (·.2)

/-- The place of a line in a region's store. -/
def Region.find (x : Region) (space line : Nat) : Option (Nat × Line) :=
  x.lines.find? (fun e => decide (e.2.space = space ∧ e.2.line = line))

/-- Keep a line at a place; the table's order is by place. -/
def putLine : Tab Line → Nat → Line → Tab Line
  | [], k, v => [(k, v)]
  | (i, x) :: t, k, v => if i = k then (k, v) :: t else if k < i then (k, v) :: (i, x) :: t else (i, x) :: putLine t k v

/-- A half of a line is valid. -/
def Line.half (l : Line) (a : Nat) : Bool := if a / 64 % 2 = 0 then l.valid0 else l.valid1
def Line.dirty (l : Line) : Bool := l.dirty0 || l.dirty1

/-- A line of a retained range of a region (06 R185). -/
def State.retained (s : State) (r space line : Nat) : Bool :=
  decide (space = 0) &&
  (match s.tierSec, s.chart with
   | some t, some c => t.retains.any (fun x => decide (c.placed.getD x.creg 0 = r ∧ x.base < 128 * line + 128 ∧ 128 * line < x.base + x.bytes))
   | _, _ => false)

/-- A line with a chunk that a member of a READ stream of the region has yet to take (06 R180, R197). -/
def State.awaited (s : State) (r space line : Nat) : Bool :=
  match s.tierSec with
  | some t =>
    t.streams.zipIdx.any (fun (x, i) =>
      decide (x.kind = 1 ∧ x.space ≠ 1 ∧ x.tag = space ∧ tileRegion (s.ctile x.tile) = r) &&
      (let lo := s.slowest i x
       (List.range ((s.tstream i).fetched - lo)).any (fun k => decide (lineAddr (s.chunkAt x x.base (lo + k)) = line))))
  | none => false

/-- A line that is never chosen as victim. -/
def State.pinned (s : State) (r : Nat) (l : Line) : Bool := s.retained r l.space l.line || s.awaited r l.space l.line

/-- The least recently used unpinned way of a set. -/
def State.victim (s : State) (r set : Nat) : Option (Nat × Line) :=
  let x := s.region r
  let cs := (s.ways r set).filterMap (fun w => (x.line set w).map (fun l => (w, l)))
  let un := cs.filter (fun c => !s.pinned r c.2)
  un.foldl (fun b c => match b with | none => some c | some d => if c.2.used < d.2.used then some c else some d) none

/-- A way that can take a new line of a set: a free one, or a clean victim's. -/
def State.freeWay (s : State) (r set : Nat) : Option Nat :=
  match (s.ways r set).find? (fun w => ((s.region r).line set w).isNone) with
  | some w => some w
  | none =>
    match s.victim r set with
    | some (w, l) => if l.dirty then none else some w
    | none => none

/-- Advance a tier counter of a region (06 Table TIER-8). -/
def State.tierCount (s : State) (r k n : Nat) : State :=
  (s.modRegion r (fun x => { x with tw := tmod 0 x.tw k (fun v => satAdd 32 v n) })).bump 0x9030 (k + 1) 64 n

/-- The bytes of a line in its tier. -/
def State.tierRead (s : State) (space a n : Nat) : List Byte :=
  if space = 0 then s.devRead a n
  else
    match s.chart with
    | some c => s.hostMem.readN (tget 0 c.hsegAt (space - 1) - 1 + a) n
    | none => []

/-- Write bytes to a tier. -/
def State.tierWrite (s : State) (space a : Nat) (bs : List Byte) : State :=
  if space = 0 then s.devWrite a bs
  else
    match s.chart with
    | some c => { s with hostMem := s.hostMem.writeN (tget 0 c.hsegAt (space - 1) - 1 + a) bs }
    | none => s

/-- Mark a line used. -/
def State.touch (s : State) (r key : Nat) (l : Line) : State :=
  s.modRegion r (fun x => { x with clock := x.clock + 1, lines := putLine x.lines key { l with used := x.clock + 1 } })

/-- Write back the dirty halves of a line, which stays valid and becomes clean (06 R181). -/
def State.cleanLine (s : State) (r key : Nat) (l : Line) : State :=
  let s := if l.dirty0 then s.tierWrite l.space (128 * l.line) (l.data.take 64) else s
  let s := if l.dirty1 then s.tierWrite l.space (128 * l.line + 64) (l.data.drop 64) else s
  s.modRegion r (fun x => { x with lines := putLine x.lines key { l with dirty0 := false, dirty1 := false } })

/-- Set a half of a line valid and dirty with a chunk (06 R179); none while its set has no way for it. -/
def State.storeChunk (s : State) (r space a : Nat) (bs : List Byte) : Option State :=
  let line := lineAddr a
  let lo := decide (a / 64 % 2 = 0)
  let put := fun (l : Line) =>
    { l with
      valid0 := l.valid0 || lo, dirty0 := l.dirty0 || lo, valid1 := l.valid1 || !lo, dirty1 := l.dirty1 || !lo,
      data := (if lo then bs ++ l.data.drop 64 else l.data.take 64 ++ bs) }
  match (s.region r).find space line with
  | some (k, l) => some (s.touch r k (put l))
  | none =>
    match s.freeWay r (setOf line) with
    | some w => some (s.touch r (16 * setOf line + w) (put ⟨space, line, false, false, false, false, zeros 128, 0⟩))
    | none => none

/-- Lent segment `seg` of a region (06 R202). -/
def Region.lent (x : Region) (seg : Nat) : Memory := if seg = 0 then x.lent0 else x.lent1
def Region.setLent (x : Region) (seg : Nat) (m : Memory) : Region := if seg = 0 then { x with lent0 := m } else { x with lent1 := m }

/-- Ask for a fill of a line that is not on its way. -/
def State.askFill (s : State) (rg space line : Nat) : State :=
  if (s.region rg).fills.any (fun f => decide (f.space = space ∧ f.line = line)) then s
  else s.modRegion rg (fun x => { x with fills := x.fills ++ [⟨space, line⟩] })

/-- DETAIL of RS_UE (15 Table RCV-4). -/
def rsDetail (place : Nat) (hi tag : Bool) : List Byte :=
  leBytes 2 (place / 16) ++ leBytes 1 (place % 16) ++ leBytes 1 (if hi then 1 else 0) ++ leBytes 1 (if tag then 1 else 0)

/-- The lender of a region's lent segment (06 R202). -/
def State.lenderOf (s : State) (r seg : Nat) : Option Nat :=
  match s.tierSec, s.chart with
  | some t, some c => (t.lends.find? (fun l => decide (c.placed.getD l.creg (24 * s.variant) = r ∧ l.seg = seg))).map (fun l => mkRegion l.die l.row l.col)
  | _, _ => none

/-- A place of a lender's store lies in the ways that it lends. -/
def State.lentPlace (s : State) (r place : Nat) : Bool :=
  decide (place / 16 < 4096 ∧ s.wayOff r (place / 16) ≠ some (place % 16)) && !(s.ways r (place / 16)).contains (place % 16)

/-- What a store's protection finds as it is read (R184), and whether the reading goes on: a corrected error is counted; a
half that cannot be corrected is discarded and fetched again where it is clean, and is RS_UE where it is dirty, as a parity
error of a tag is. A lent way holds the only copy of its data, so an error there is RS_UE of the lender (log 114). An error in a
place that holds nothing is none. -/
def State.rsEvent (s : State) (r : Nat) (ev : RsEvent) : Bool × State :=
  let at' := fun (k : Nat) => (s.region r).line (k / 16) (k % 16)
  match ev with
  | .ok => (true, s)
  | .corrected k hi =>
    match at' k with
    | some l => (true, if (if hi then l.valid1 else l.valid0) then s.bump 0x3020 0 64 1 else s)
    | none => (true, s)
  | .fatal k hi =>
    match at' k with
    | some l =>
      if ¬ (if hi then l.valid1 else l.valid0) then (true, s)
      else if (if hi then l.dirty1 else l.dirty0) then (false, s.regionFault r 0x11 clsD 3 (rsDetail k hi false))
      else
        let l' := if hi then { l with valid1 := false } else { l with valid0 := false }
        let s := s.modRegion r (fun x => { x with lines := putLine x.lines k l' })
        (true, (if (s.region r).fills.any (fun f => decide (f.space = l.space ∧ f.line = l.line)) then s
          else (s.askFill r l.space l.line).tierCount r 6 1).bump 0x3021 0 32 1)
    | none => (true, s)
  | .tag k =>
    match at' k with
    | some _ => (false, s.regionFault r 0x11 clsD 3 (rsDetail k false true))
    | none => (true, s)
  | .lentCorrected seg => (true, if (s.lenderOf r seg).isSome then s.bump 0x3020 0 64 1 else s)
  | .lentFatal seg k hi =>
    match s.lenderOf r seg with
    | some d => if s.lentPlace d k then (false, s.regionFault d 0x11 clsD 3 (rsDetail k hi false)) else (true, s)
    | none => (true, s)

/-- The host bus address of a place of a host segment's tag space. -/
def State.hostAddr (s : State) (space a : Nat) : Nat :=
  match s.chart with
  | some c => tget 0 c.hsegAt (space - 1) - 1 + a
  | none => 0

/-- HOST_ERROR of a tier engine (15 Table RCV-2): a read or write of a host segment ends with a PCI Express error. -/
def State.hostFault (s : State) (r a : Nat) : State := s.regionFault r 0x20 clsR 4 (leBytes 8 a)

/-! ## Delivery to the port-in buffers -/

/-- The bytes of access `n` of a READ stream where its region can deliver them now. -/
def State.chunkReady (s : State) (i : Nat) (r : TierStream) (n : Nat) : Option (List Byte) :=
  let rg := tileRegion (s.ctile r.tile)
  let a := s.chunkAt r r.base n
  if (s.tstream i).fetched ≤ n then none
  else if r.space = 1 then some (((s.region rg).lent r.seg).readN a 64)
  else
    match (s.region rg).find r.tag (lineAddr a) with
    | some (_, l) => if l.half a then some ((l.data.drop (a % 128)).take 64) else none
    | none => none

/-- Chunks of a window given to a member: taken by its port, or in its buffer. -/
def State.givenTo (s : State) (i : Nat) (r : TierStream) (t : Nat) : Nat :=
  tget 0 (s.tstream i).taken (t % 32) + ((s.tile t).portIn.filter (fun e => decide (e.1 = r.window))).length

/-- Slots of a member's buffer that are kept for its other PORT_IN windows: one for each that has no chunk there (log 94). -/
def State.keptSlots (s : State) (r : TierStream) (t : Nat) : Nat :=
  match s.tierSec with
  | some c =>
    (c.streams.filter (fun y => decide (y.kind = 1 ∧ y.window ≠ r.window) && (s.members y).contains t &&
      !(s.tile t).portIn.any (fun e => decide (e.1 = y.window)))).length
  | none => 0

/-- Give a member what it can take, in order, while its buffer of 8 has room. -/
def State.deliverTo (i : Nat) (r : TierStream) (t : Nat) : Nat → State → State
  | 0, s => s
  | n + 1, s =>
    if 8 ≤ (s.tile t).portIn.length + s.keptSlots r t then s
    else
      match s.chunkReady i r (s.givenTo i r t) with
      | some bs => State.deliverTo i r t n (s.modTile t (fun x => { x with portIn := x.portIn ++ [(r.window, BitVec.ofNat 512 (leVal bs))] }))
      | none => s

/-- Deliver to every member of every READ stream of a region. The buffer of a tile's several PORT_IN windows is filled in
the order of their streams' numbers, each with as many chunks as it can give, but one slot is kept for each window without a chunk, so
that none waits for ever (DESIGN CHOICE, log 94). -/
def State.deliverAll (s : State) (rg : Nat) : State :=
  match s.tierSec with
  | some t =>
    forEach (t.streams.zipIdx.filter (fun x => decide (x.1.kind = 1 ∧ tileRegion (s.ctile x.1.tile) = rg))) s
      (fun s x => forEach (s.members x.1) s (fun s tl => State.deliverTo x.2 x.1 tl 8 s))
  | none => s

/-! ## The commands -/

/-- A region's tier engine runs: its door is open and no fault is handled. -/
def State.tierUp (s : State) (rg : Nat) : Bool :=
  !s.doorClosed .tier (s.physOf rg) && !s.doorClosed .dataflow (s.physOf rg) && decide (s.rcv.phase = .idle) && s.running

/-- Ask for the fill of a line: a hit or a fill in flight serves `n` deliveries, else a fill begins. -/
def State.request (s : State) (rg space line n : Nat) (hit : Bool) : State :=
  if hit ∨ (s.region rg).fills.any (fun f => decide (f.space = space ∧ f.line = line)) then s.tierCount rg 7 n
  else ((s.askFill rg space line).tierCount rg 6 1).tierCount rg 7 (n - 1)

/-- LINE_FETCH (R198): the next line of a READ stream's walk, within LEAD lines of the one its slowest member
consumes next, and within the accesses of the interval. -/
def execLineFetch (stream : Nat) (ev : RsEvent) (s : State) : Host.Outcome State Fault Refusal :=
  match s.tsRec stream with
  | none => .next s
  | some r =>
    let rg := tileRegion (s.ctile r.tile)
    let n := (s.tstream stream).fetched
    let lim := s.accessLimit r
    let lineOf := fun (k : Nat) => lineAddr (s.chunkAt r r.base k)
    let lo := s.slowest stream r
    let ahead := ((List.range (n - lo)).filter (fun k => decide (lineOf (lo + k + 1) ≠ lineOf (lo + k)))).length
    let (goes, s') := s.rsEvent rg ev
    if r.kind ≠ 1 ∨ ¬ s.tierUp rg ∨ ¬ s.wp.released ∨ lim ≤ n ∨ r.lead < ahead then .next s
    else if ¬ goes then .next s'
    else
      let s := s'
      -- the chunks of the walk that follow one another on this line
      let more := decide (n + 1 < lim ∧ lineOf (n + 1) = lineOf n)
      let last := if more then n + 1 else n
      let hit := [n, last].all (fun k =>
        match (s.region rg).find r.tag (lineOf k) with
        | some (_, l) => l.half (s.chunkAt r r.base k)
        | none => false)
      let s := if r.space = 1 then s else s.request rg r.tag (lineOf n) (s.members r).length hit
      let s := match (s.region rg).find r.tag (lineOf n) with | some (k, l) => if r.space = 1 then s else s.touch rg k l | none => s
      let s := s.setTstream stream { s.tstream stream with fetched := last + 1, accessed := true }
      .next (s.deliverAll rg)

/-- A door drops a reply and counts it (15 R431, R432). -/
def State.doorDrop (s : State) : State := s.bump 0x6402 0 64 1

/-- LINE_FILL (R178, R184): a fill returns; the whole line is taken but for a half that is valid and dirty. A
fill without a way waits. A PCI Express error is HOST_ERROR, an uncorrectable error of the stack STACK_UE (15 R433). The region's door drops a fill that meets it
closed, and one asked for before the last reset (15 R431, R432), which a number beyond the fills in flight names. -/
def execLineFill (r fill : Nat) (ev : RsEvent) (hostError ue : Bool) (s : State) : Host.Outcome State Fault Refusal :=
  match (s.region r).fills[fill]? with
  | none =>
    if 0 < (s.region r).stale then
      .next (s.modRegion r (fun x => { x with stale := x.stale - 1 })).doorDrop
    else .next s
  | some f =>
    if s.doorClosed .tier (s.physOf r) || s.doorClosed .dataflow (s.physOf r) then
      .next (s.modRegion r (fun x => { x with fills := x.fills.eraseIdx fill })).doorDrop
    else if ¬ s.tierUp r ∨ s.stackHeld f.space (128 * f.line) 128 then .next s
    else if hostError ∧ f.space ≠ 0 then .next (s.hostFault r (s.hostAddr f.space (128 * f.line)))
    else if ue ∧ f.space = 0 then .next (s.stackUe (128 * f.line))
    else
      let old := (s.region r).find f.space f.line
      let key := match old with | some (k, _) => some k | none => (s.freeWay r (setOf f.line)).map (fun w => 16 * setOf f.line + w)
      match key with
      | none => .next s
      | some k =>
        let bs := s.tierRead f.space (128 * f.line) 128
        let l : Line := match old with
          | some (_, l) =>
            { l with valid0 := true, valid1 := true,
                     data := (if l.valid0 && l.dirty0 then l.data.take 64 else bs.take 64) ++ (if l.valid1 && l.dirty1 then l.data.drop 64 else bs.drop 64) }
          | none => ⟨f.space, f.line, true, true, false, false, bs, 0⟩
        let s := s.touch r k l
        let s := s.modRegion r (fun x => { x with fills := x.fills.eraseIdx fill })
        let (goes, s) := s.rsEvent r ev
        .next (if goes then s.deliverAll r else s)

/-- What holds the chunk that a tile's window waits for: 0 a stack of the region's die, 1 another die's, 2 a lent
segment, 3 a host segment (06 R208). -/
def State.heldBy (s : State) (i : Nat) (r : TierStream) (t : Nat) : Nat :=
  let rg := tileRegion (s.ctile r.tile)
  if r.space = 1 then 2
  else if r.space = 2 then 3
  else if s.chunkAt r r.base (tget 0 (s.tstream i).taken (t % 32)) / 2 ^ 36 / 4 = regionDie rg then 0 else 1

/-- Charge a waiting port access once (06 R208). -/
def State.chargeWait (s : State) (t w k : Nat) : State :=
  let x := s.tile t
  if (x.winOf w).charged then s
  else (s.setTile t { x with wins := tset {} x.wins w { x.winOf w with charged := true } }).tierCount (tileRegion t) k 1

/-- A window after an access: the pointer 16 words on, back at BASE past the end of a ring. -/
def Win.stepped (w : Win) (b : List Byte) : Win :=
  let p := w.ptr + 16
  { w with served := true, ptr := (if p = wdBase b + wdWords b ∧ wdRing b then wdBase b else p) }

/-- PORT_ACCESS (R190, R191, R193): in a firing of the window's span that has one, with the chunk or a slot. The port's read
of the scratchpad meets `e` (02 R68); the deliveries that a freed buffer slot lets in meet `ev` in the region store. -/
def execPortAccess (t window : Nat) (e : Ecc) (ev : RsEvent) (s : State) : Host.Outcome State Fault Refusal :=
  match s.img t, s.streamOf t window with
  | some m, some (i, r) =>
    let x := s.tile t
    let b := m.win window
    let w := x.winOf window
    if x.st ≠ .fire ∨ ¬ x.due m window ∨ w.served ∨ ¬ s.tierUp (tileRegion t) then .next s
    else if ¬ (wdBase b ≤ w.ptr ∧ w.ptr + 16 ≤ wdBase b + wdWords b) then .next (s.tileFault t 6 [])
    else
      let took := fun (s : State) =>
        let y := s.tstream i
        s.setTstream i { y with taken := tmod 0 y.taken (t % 32) (· + 1), accessed := true }
      if wdMode b = 2 then
        match x.portIn.find? (fun e => decide (e.1 = window)) with
        | some (k, pay) =>
          let x := { x with
            portIn := x.portIn.erase (k, pay), spad := x.spad.writeN w.ptr (valWords 16 pay.toNat),
            wins := tset {} x.wins window (w.stepped b) }
          let (goes, s) := ((took (s.setTile t x)).progress t).rsEvent (tileRegion t) ev
          .next (if goes then s.deliverAll (tileRegion t) else s)
        | none => .next (s.chargeWait t window (s.heldBy i r t))
      else if 8 ≤ x.portOut.length then .next (s.chargeWait t window 4)
      else if e = .fatal then .next (s.faultAt t 3)
      else
        let s := if e = .corrected then s.corrected t else s
        let pay : Payload := BitVec.ofNat 512 (wordsVal (x.spad.readN w.ptr 16))
        let x := { x with portOut := x.portOut ++ [(window, pay)], wins := tset {} x.wins window (w.stepped b) }
        .next ((took (s.setTile t x)).progress t)
  | _, _ => .next s

/-- Sixteen FP32 values of an ACCUM chunk added to the old ones (06 R199). -/
def accumChunk (old new : List Byte) : List Byte :=
  (List.range 16).flatMap (fun k =>
    leBytes 4 (f32Add (BitVec.ofNat 32 (fieldAt old (4 * k) 4)) (BitVec.ofNat 32 (fieldAt new (4 * k) 4))).toNat)

/-- The tier engine takes the first chunk of a port-out buffer, when its destination accepts it; an ACCUM chunk asks for its
old values where the store does not have them: a hit, or a fill that serves it, counts once for each line of its walk (R178). -/
def State.takeChunk (s : State) (t : Nat) : Host.Outcome State Fault Refusal :=
  let x := s.tile t
  let rg := tileRegion t
  match x.portOut with
  | [] => .next s
  | (w, pay) :: rest =>
    match s.streamOf t w with
    | none => .next s
    | some (i, r) =>
      if ¬ s.tierUp rg then .next s
      else
        let y := s.tstream i
        let bs := leBytes 64 pay.toNat
        let done := fun (s : State) => (s.modTile t (fun x => { x with portOut := rest })).setTstream i { y with given := y.given + 1 }
        if r.kind = 3 then
          let from' := if y.gen % 2 = 0 then r.base else r.alt
          let old := s.chunkAt r from' y.given
          let new := s.chunkAt r (if y.gen % 2 = 0 then r.alt else r.base) y.given
          if r.space = 1 then
            let m := (s.region rg).lent r.seg
            let was := if r.zevery ≠ 0 ∧ y.gen % r.zevery = 0 then zeros 64 else m.readN old 64
            .next (done (s.modRegion rg (fun z => z.setLent r.seg (m.writeN new (accumChunk was bs)))))
          else if r.zevery ≠ 0 ∧ y.gen % r.zevery = 0 then
            .next (match s.storeChunk rg r.tag new (accumChunk (zeros 64) bs) with | some s => done s | none => s)
          else
            let onLine := decide (lineAddr (s.chunkAt r from' (y.given + 1)) = lineAddr old)
            let inFlight := (s.region rg).fills.any (fun f => decide (f.space = r.tag ∧ f.line = lineAddr old))
            let ask := if y.asked ∧ inFlight then s
              else (s.request rg r.tag (lineAddr old) 1 false).setTstream i { y with asked := true }
            match (s.region rg).find r.tag (lineAddr old) with
            | some (k, l) =>
              if l.half old then
                let s' := (if y.asked then s else s.tierCount rg 7 1).touch rg k l
                .next (match s'.storeChunk rg r.tag new (accumChunk ((l.data.drop (old % 128)).take 64) bs) with
                  | some u => (done u).setTstream i { y with given := y.given + 1, asked := onLine }
                  | none => s)
              else .next ask
            | none => .next ask
        else
          let a := s.chunkAt r r.base y.given
          if r.space = 1 then
            .next (done (s.modRegion rg (fun z => z.setLent r.seg ((z.lent r.seg).writeN a bs))))
          else .next (match s.storeChunk rg r.tag a bs with | some s => done s | none => s)

/-- PORT_OUT_CHUNK_TAKE (R191, R199): an ACCUM chunk's read of its old values meets `ev` in the region store. -/
def execPortOutChunkTake (t : Nat) (ev : RsEvent) (s : State) : Host.Outcome State Fault Refusal :=
  if (s.tile t).portOut.isEmpty ∨ ¬ s.tierUp (tileRegion t) then .next s
  else
    let (goes, u) := s.rsEvent (tileRegion t) ev
    if goes then u.takeChunk t else .next u

/-- The line that the first chunk of a tile's port-out buffer goes to, with its tag space (R199). -/
def State.chunkTarget (s : State) (t : Nat) : Option (Nat × Nat) :=
  match (s.tile t).portOut with
  | [] => none
  | (w, _) :: _ =>
    match s.streamOf t w with
    | some (i, r) =>
      let y := s.tstream i
      if r.space = 1 then none
      else some (r.tag, lineAddr (s.chunkAt r (if r.kind = 3 ∧ y.gen % 2 = 0 then r.alt else r.base) y.given))
    | none => none

/-- An eviction from a set is due (R180, R181): a fill, or a chunk to be written, waits for a way in it. -/
def State.evictionDue (s : State) (r set : Nat) : Bool :=
  (s.region r).fills.any (fun f => decide (setOf f.line = set) && ((s.region r).find f.space f.line).isNone) ||
    (regionTiles r).any (fun t =>
      match s.chunkTarget t with
      | some (space, line) => decide (setOf line = set) && ((s.region r).find space line).isNone
      | none => false)

/-- WRITE_BACK (R181): on eviction, the dirty victim of a set without a free way for which a fill or a chunk waits. A write into a
host segment that ends with a PCI Express error is HOST_ERROR. -/
def execWriteBack (r set way : Nat) (ev : RsEvent) (hostError : Bool) (s : State) : Host.Outcome State Fault Refusal :=
  if ¬ s.tierUp r ∨ ¬ s.evictionDue r set ∨ (s.ways r set).any (fun w => ((s.region r).line set w).isNone) then .next s
  else
    match s.victim r set with
    | some (w, l) =>
      if w = way ∧ l.dirty ∧ ¬ s.stackHeld l.space (128 * l.line) 128 then
        let (goes, u) := s.rsEvent r ev
        if ¬ goes then .next u
        else if hostError ∧ l.space ≠ 0 then .next (u.hostFault r (u.hostAddr l.space (128 * l.line)))
        else
          -- a half that the reading has discarded stays so
          match (u.region r).line set w with
          | some l => .next (u.cleanLine r (16 * set + w) l)
          | none => .next u
      else .next s
    | none => .next s

end Sys2Proof.Machine
end

