-- ==== Sys2Proof/Machine/Trace.lean ====
section
/-! DEFINITION. A pass of one tile firing by firing, without its tokens: the streams, windows and steering units it finds,
the scratchpad accesses it makes (02 R52, R63-R67, R75; 06 R188, R190), the tokens it takes and gives and where its
results land (02 R34; 04 R117). Everything here is fixed by the chart. -/

namespace Sys2Proof.Machine

/-! ## Scratchpad accesses -/

/-- An access of the scratchpad: a write or a read, its words, whether it is a MEM WIN write, whether it takes
the slot of every bank (RD_T), and whether its words lie in one aligned run. -/
structure Access where
  wr    : Bool
  words : List Nat
  win   : Bool := false
  all   : Bool := false
  deriving DecidableEq, Repr

/-- `n` words from an address. -/
def wordRun (a n : Nat) : List Nat := (List.range n).map (fun i => (a + i) % 131072)

/-- The access of one stream. -/
def Tile.accessOf (x : Tile) (m : TileImg) (wr : Bool) (i : Nat) : Access := ⟨wr, wordRun (x.stream i).ptr (sdWidth (m.sd i)), false, false⟩

/-- The rows of a transposing read. -/
def Tile.rowsOf (x : Tile) (m : TileImg) (i : Nat) : List Nat :=
  (List.range 16).map (fun r => ((x.stream i).ptr + r * strideStep (m.sd i)) % 131072)

/-- The operation reads a scale stream beside its weights (02 R59). -/
def Entry.gscaled (e : Entry) : Bool := decide (e.gop = 1 ∨ e.gop = 2) && isBlock e.gfmt

/-- The accesses of a memory slot. -/
def Entry.memAccess (e : Entry) (m : TileImg) (x : Tile) (i : Nat) : List Access :=
  match e.mop i with
  | 0 => []
  | 7 => [x.accessOf m true (e.str i)]
  | 8 => [⟨false, x.rowsOf m (e.str i), false, true⟩]
  | 9 => [{ x.accessOf m true (e.str i) with win := true }]
  | _ => [x.accessOf m false (e.str i)]

/-- The accesses a firing of an entry issues. -/
def Entry.accesses (e : Entry) (m : TileImg) (x : Tile) : List Access :=
  (if e.isDrain ∧ e.ddst = 0 then
    x.accessOf m true e.dstr :: (if isBlock e.afmt then [x.accessOf m true (e.dstr + 1)] else []) else []) ++
  (match e.gop with
   | 1 | 2 => x.accessOf m false e.wstr :: (if isBlock e.gfmt then [x.accessOf m false (e.wstr + 1)] else [])
   | 3 => [x.accessOf m true e.xstr]
   | 4 => [x.accessOf m false e.xstr]
   | _ => []) ++
  (if e.vop = 1 then [x.accessOf m false e.vstr] else if e.vop = 2 then [x.accessOf m true e.vstr] else []) ++
  (List.range 3).flatMap (e.memAccess m x)

/-- The streams a firing advances, each with its step. -/
def Entry.advances (e : Entry) (m : TileImg) : List (Nat × Nat) :=
  let st := fun (i : Nat) => (i, strideStep (m.sd i))
  (if e.isDrain ∧ e.ddst = 0 then st e.dstr :: (if isBlock e.afmt then [st (e.dstr + 1)] else []) else []) ++
  (match e.gop with
   | 1 | 2 => st e.wstr :: (if isBlock e.gfmt then [st (e.wstr + 1)] else [])
   | 3 => [st e.xstr]
   | 4 => [st e.xstr]
   | _ => []) ++
  (if e.vop = 1 ∨ e.vop = 2 then [st e.vstr] else []) ++
  (List.range 3).flatMap (fun i =>
    if e.mop i ≠ 0 ∧ e.adv i then [(e.str i, if e.mop i = 8 then 1 else strideStep (m.sd (e.str i)))] else [])

/-! ## Results -/

/-- What a result lands in, or a firing reads or writes of the tile's own state. -/
inductive Dst where
  | opA | opB | scaleA | scaleB | drainScale
  | out (d : Nat)
  | viq
  | vreg (v half : Nat)
  | x (i : Nat)
  | y (i : Nat)
  | acc (i : Nat)
  | plane (k : Nat)
  | word (a : Nat)
  deriving DecidableEq, Repr

/-- Results of a firing: where each lands and after how many steps, with its bits for a bit queue. -/
def Entry.results (e : Entry) (m : TileImg) (x : Tile) (steer : List Dir) : List (Dst × Nat × Nat) :=
  if e.isNull then []
  else
    let a := fun (i : Nat) => (x.stream i).ptr
    (if e.isDrain ∧ e.ddst = 5 then [(Dst.viq, 1, 1)] else []) ++
    (if e.isDrain then (dirCode e.ddst).toList.map (fun d => (Dst.out (dirIx d), 1, 1)) else []) ++
    (if e.gop = 1 ∨ e.gop = 2 then [(Dst.y e.yacc, if eastHalf (a e.wstr) then 5 else 8, 1)] else []) ++
    (if e.gop = 4 then [(Dst.x e.xidx, latEast (a e.xstr), 1)] else []) ++
    (if e.setsVd then e.vdHalves.map (fun h => (Dst.vreg e.vd h, vlat e.vop (a e.vstr), 1)) else []) ++
    (if e.vop = 4 then (dirCode (e.vb % 8)).toList.map (fun d => (Dst.out (dirIx d), 1, 1)) else []) ++
    (if e.vop = 5 then [(Dst.opA, 1, sendaBits e.vfmt)] else []) ++
    (List.range 3).flatMap (fun i =>
      let bits := 32 * sdWidth (m.sd (e.str i))
      match e.mop i with
      | 1 => [(Dst.opA, latWest (a (e.str i)), bits)]
      | 2 => [(Dst.opB, latWest (a (e.str i)), bits)]
      | 3 => [(Dst.scaleA, latWest (a (e.str i)), bits)]
      | 4 => [(Dst.scaleB, latWest (a (e.str i)), bits)]
      | 5 => [(Dst.drainScale, latWest (a (e.str i)), 1)]
      | 6 => [(Dst.out (dirIx (e.mport i)), latEast (a (e.str i)), 1)]
      | 8 =>
        (match e.tdst i with
         | 0 => [(Dst.opA, 7, 512)]
         | 1 => [(Dst.opB, 7, 512)]
         | 2 => [(Dst.out (dirIx (e.mport i)), 7, 1)]
         | _ => [])
      | _ => []) ++
    (dirs.filter (fun d => decide (e.osel d ≠ 0))).map (fun d => (Dst.out (dirIx d), 1, 1)) ++
    steer.map (fun d => (Dst.out (dirIx d), 1, 1))

/-! ## A firing -/

/-- What the chart fixes of one firing of a pass: its entry, whether it is the entry's last, the accesses it
issues, the port accesses performed in it as (window, address), the windows open in it, its results, the heads its
entry pops, and for each steering unit it fires the unit with its firing number in the instance. -/
structure Fire where
  entry : Nat
  last  : Bool
  acc   : List Access
  ports : List (Nat × Nat)
  opens : List Nat
  res   : List (Dst × Nat × Nat)
  pops  : List Dir
  units : List (Nat × Nat)
  deriving DecidableEq, Repr

/-- The port access of a due window advances its pointer (06 R190). -/
def Tile.portTaken (x : Tile) (m : TileImg) (k : Nat) : Tile :=
  let b := m.win k
  { x with wins := tmod {} x.wins k (fun w : Win =>
      { w with ptr := (if w.ptr + 16 = wdBase b + wdWords b ∧ wdRing b then wdBase b else w.ptr + 16) }) }

/-- The writes of transposing reads that count as issued by this firing (02 R52). -/
def Tile.lateWrites (x : Tile) (m : TileImg) : List Access :=
  x.flight.filterMap (fun f => match f.left, f.land with
    | 1, .spad i _ => some (x.accessOf m true i)
    | _, _ => none)

/-- The next firing of a steering unit: LOOP counts the firings of its instance (04 R130). -/
def stepUnit (d : W64 × W64) (n : Nat) : Nat := if stMode d = 3 then (if n = stTrip d then 0 else n + 1) else 0

/-- One firing, and the tile after it. -/
def Tile.walkFire (x : Tile) (m : TileImg) : Fire × Tile :=
  let e := x.cur m
  let last := decide (e.rep ≤ x.fired)
  let x := { x with wins := (List.range 8).foldl (fun t k => tset {} t k (x.winStart m k)) x.wins }
  let opens := (List.range 8).filter (fun k => decide (wdMode (m.win k) ≠ 0) && (x.winOf k).isOpen)
  let due := (List.range 8).filter (x.due m)
  let units := if e.isNull then [] else e.units.map (fun u => (u, (x.unitOf u).firing))
  let steer := units.flatMap (fun u => steerFills (m.steerOf u.1) u.2)
  let own := if e.isNull then [] else e.accesses m x
  let res := e.results m x steer
  let ports := due.map (fun k => (k, (x.winOf k).ptr))
  let x1 := (if e.isNull then [] else e.advances m).foldl (fun y a => y.advance m a.1 a.2) x
  let late := x1.lateWrites m
  let back := (if e.isNull then [] else (List.range 3).filter (fun i => decide (e.mop i = 8 ∧ e.tdst i = 3)))
  let x2 := (back.foldl (fun (y : Tile) i => y.send 7 (.spad (e.str2 i) [])) x1).step1 m
  let x3 := due.foldl (fun y k => y.portTaken m k) x2
  let x4 := { x3 with wins := (List.range 8).foldl (fun t k => tset {} t k (x3.winEnd m last k)) x3.wins }
  let x5 := units.foldl (fun y u => y.setUnitOf u.1 { y.unitOf u.1 with firing := stepUnit (m.steerOf u.1) u.2 }) x4
  (⟨x.entry, last, own ++ late, ports, opens, res, if e.isNull then [] else e.pops, units⟩, x5)

/-- The firings of a pass from a tile on. -/
def traceFrom (m : TileImg) : Nat → Tile → List Fire
  | 0, _ => []
  | n + 1, x =>
    if m.entries.length ≤ x.entry then []
    else
      let (f, y) := x.walkFire m
      if f.last then
        let (y, j) := y.next m
        let y := if (x.cur m).isWpt then y.ringReset m else y
        if j = 2048 then [f] else f :: traceFrom m n { y with entry := j, fired := 0 }
      else f :: traceFrom m n { y with fired := x.fired + 1 }

/-- A tile at the start of a pass. -/
def TileImg.atStart (m : TileImg) : Tile :=
  let str := (List.range 16).foldl (fun t i => tset {} t i (⟨sdBase (m.sd i), sdBase (m.sd i), 0, 0⟩ : Stream)) ([] : Tab Stream)
  (({ streams := str } : Tile).ringReset m)

/-- The firings of a pass. -/
def TileImg.trace (m : TileImg) : List Fire := traceFrom m passFuel m.atStart

/-! ## What a pass adds up to -/

/-- An entry of the image completes its share of a waypoint with this firing. -/
def TileImg.wptAt (m : TileImg) (f : Fire) : Bool := f.last && (m.entryAt f.entry).isWpt

/-- Tokens a firing takes from the head of a side: by its entry, by a steering unit's data queue or IN1, and a
bearing token at its first bearing; `bears` counts the bearings each unit has used (05 Table CHRT-11). -/
def TileImg.takes (m : TileImg) (f : Fire) (bears : Tab Nat) (d : Dir) : Nat :=
  (if f.pops.contains d then 1 else 0) +
    sumN (f.units.map (fun u =>
      let s := m.steerOf u.1
      let first := decide (stMode s ≠ 3 ∨ u.2 = 0)
      (if first ∧ dirCode (stDin s) = some d then 1 else 0) +
      (if (stMode s = 2 ∨ (stMode s = 3 ∧ u.2 ≠ 0)) ∧ dirCode (stIn1 s) = some d then 1 else 0) +
      (if (stMode s ≠ 3 ∨ u.2 ≠ 0) ∧ dirCode (stBsrc s) = some d ∧ tget 0 bears u.1 % stBpt s = 0 then 1 else 0)))

/-- Bearings a firing takes, by unit. -/
def TileImg.bearUnits (m : TileImg) (f : Fire) : List Nat :=
  (f.units.filter (fun u => decide (stMode (m.steerOf u.1) ≠ 3 ∨ u.2 ≠ 0))).map (·.1)

/-- Tokens a firing gives to the output queue of a side, counted at the issuing firing. -/
def Fire.gives (f : Fire) (d : Dir) : Nat := (f.res.filter (fun r => decide (r.1 = Dst.out (dirIx d)))).length

/-- A firing pops the vector input queue. -/
def TileImg.popsViq (m : TileImg) (f : Fire) : Bool :=
  let e := m.entryAt f.entry
  !e.isNull && decide (e.vop = 3 ∧ e.vb = 0) && e.vpop

/-- The Sextant counts after a firing (05 Table CHRT-11), and the bearings each unit has used. -/
structure Counts where
  sx    : List Nat := List.replicate 11 0
  bears : Tab Nat := []
  deriving DecidableEq, Repr

def TileImg.count (m : TileImg) (c : Counts) (f : Fire) : Counts :=
  let bs := m.bearUnits f
  let add := [1] ++ dirs.map (m.takes f c.bears) ++ dirs.map f.gives ++ [bs.length, if m.popsViq f then 1 else 0]
  { sx := (c.sx.zip add).map (fun p => p.1 + p.2), bears := bs.foldl (fun t u => tmod 0 t u (· + 1)) c.bears }

/-- Running counts: the counts after each firing. -/
def TileImg.countsFrom (m : TileImg) : Counts → List Fire → List Counts
  | _, [] => []
  | c, f :: fs => let c' := m.count c f; c' :: m.countsFrom c' fs

/-- The counts of a pass. -/
def TileImg.passCounts (m : TileImg) (fs : List Fire) : Counts := fs.foldl m.count {}

end Sys2Proof.Machine
end

