-- ==== Sys2Proof/Machine/TierChecks.lean ====
section
/-! DEFINITION. The TIER checks T01 to T09 (06 R207, Table TIER-7), with the clause of T04 on accesses per pass apart. -/

namespace Sys2Proof.Machine

/-- The sequence of a tile is a well-formed one (04 V02): no loop end ahead of its start, no two open loops on one
loop table entry, SEQ not reserved. -/
def TileImg.seqOk (m : TileImg) : Bool :=
  let loops := m.entries.zipIdx.filter (fun x => decide (x.1.seq = 1))
  m.entries.all (fun e => decide (e.seq ≠ 2)) && loops.all (fun x => decide (x.1.tgt ≤ x.2)) &&
    loops.all (fun x => loops.all (fun y =>
      decide (x.2 = y.2 ∨ x.1.loop ≠ y.1.loop ∨ x.2 < y.1.tgt ∨ y.2 < x.1.tgt)))

/-- The firings of a pass; none of a tile whose sequence V02 refuses. -/
def TileImg.firings (m : TileImg) : List Fire := if m.seqOk then m.trace else []

/-! ## T01: records and windows -/

/-- Window descriptors (06 Table TIER-2, R187). -/
def TileImg.windowOk (m : TileImg) (k : Nat) : Bool :=
  let b := m.win k
  let lo := fieldAt b 0 4
  let n := fieldAt b 4 4
  if wdMode b = 0 then decide (b = zeros 16)
  else
    decide (wdMode b ≤ 3 ∧ lo < 2 ^ 17 ∧ lo % 16 = 0 ∧ n % 16 = 0 ∧ 16 ≤ n ∧ n ≤ 65536 ∧ wdOpen b ≤ 2047 ∧ wdClose b ≤ 2047 ∧
      fieldAt b 13 1 < 16 ∧ fieldAt b 14 1 < 2 ∧ fieldAt b 15 1 = 0 ∧ lo / 65536 = (lo + n - 1) / 65536) &&
    bitOf m.mapping (if eastHalf lo then 1 else 0) && (decide (wdMode b ≠ 1) || decide (fieldAt b 13 2 = 0))

/-- Every window of a tile, and no two of one tile overlap. -/
def TileImg.windowsOk (m : TileImg) : Bool :=
  (List.range 8).all m.windowOk &&
    apart (((List.range 8).filter (fun k => decide (wdMode (m.win k) ≠ 0))).map (fun k => (wdBase (m.win k), wdWords (m.win k))))

/-- A tier stream record (06 Table TIER-4). ALT is aligned as BASE is, which the table does not say (DESIGN CHOICE, log 115). -/
def streamOk (c : Chart) (r : TierStream) : Bool :=
  decide (r.tile < c.tiles.length ∧ r.window ≤ 7 ∧ 1 ≤ r.kind ∧ r.kind ≤ 3 ∧ r.space ≤ 2 ∧ r.base % 64 = 0 ∧ r.alt % 64 = 0 ∧
    r.rowBytes % 64 = 0 ∧ 64 ≤ r.rowBytes ∧ 1 ≤ r.rows ∧ 1 ≤ r.planes) &&
  (match r.space with | 0 => decide (r.seg = 0) | 1 => decide (r.seg ≤ 1) | _ => decide (r.seg ≤ 15)) &&
  (if r.kind = 1 then r.group.testBit (r.tile % 32) && decide (1 ≤ r.lead ∧ r.lead ≤ 4095) else decide (r.group = 0 ∧ r.lead = 0)) &&
  (decide (r.kind = 3) || decide (r.zevery = 0 ∧ r.alt = 0))

/-- The lend records (06 Table TIER-6, R202). -/
def lendsOk (v : Nat) (c : Chart) (ls : List Lend) : Bool :=
  ls.all (fun l =>
    decide (l.die < v ∧ l.row ≤ 3 ∧ l.col ≤ 5 ∧ 1 ≤ l.mib ∧ l.mib ≤ 6 ∧ l.creg < c.place.length ∧ l.seg ≤ 1) &&
    decide ((c.place.getD l.creg (0, 0, 0)).1 = l.die)) &&
  decide (ls.map (fun l => (l.creg, l.seg))).Nodup &&
  ls.all (fun l => ls.all (fun k => decide (mkRegion l.die l.row l.col ≠ mkRegion k.die k.row k.col ∨ l.creg = k.creg)))

/-- The TIER section itself (06 Table TIER-3). -/
def State.tierOk (s : State) (m : Image) (c : Chart) (t : Tier) : Bool :=
  let a := m.at' 8
  let off := fun (o : Nat) => s.devNat (a + o) 8
  decide (64 ≤ m.lenOf 8) && s.zero (a + 0xC) 4 && decide (t.hsegs.length ≤ 16) &&
    tableFits (m.lenOf 8) (off 0x18) 64 t.streams.length && tableFits (m.lenOf 8) (off 0x20) 16 t.retains.length &&
    tableFits (m.lenOf 8) (off 0x28) 8 t.lends.length && tableFits (m.lenOf 8) (off 0x30) 16 t.hsegs.length &&
    tableFits (m.lenOf 8) (off 0x38) 16 t.lives.length && s.freeRange c (t.save, 32 * t.streams.length) &&
    t.streams.all (streamOk c) && (List.range t.streams.length).all (fun i => s.zero (a + off 0x18 + 64 * i + 0x34) 4) &&
    t.retains.all (fun r => decide (r.bytes % 128 = 0 ∧ r.creg < c.place.length)) &&
    (List.range t.retains.length).all (fun i => s.zero (a + off 0x20 + 16 * i + 0xE) 2) &&
    lendsOk s.variant c t.lends && (List.range t.lends.length).all (fun i => s.zero (a + off 0x28 + 8 * i + 7) 1) &&
    t.hsegs.all (fun h => decide (h.bytes % 4096 = 0)) &&
    (List.range t.hsegs.length).all (fun i => s.zero (a + off 0x30 + 16 * i + 0xC) 4 && decide (s.devNat (a + off 0x30 + 16 * i + 0xA) 2 < 2))

/-! ## T02, T03: spans -/

/-- T02 for one tile. -/
def TileImg.spansOk (m : TileImg) : Bool :=
  (List.range 8).all (fun k =>
    let b := m.win k
    decide (wdMode b = 0) ||
      (decide (wdOpen b ≤ wdClose b ∧ wdClose b < m.entries.length) &&
        (List.range (wdClose b + 1 - wdOpen b)).all (fun j =>
          let e := m.entryAt (wdOpen b + j)
          !e.isWpt && !(decide (e.seq = 1 ∧ e.tgt < wdOpen b)))))

/-- The words of a window. -/
def TileImg.inWindow (m : TileImg) (k a : Nat) : Bool := decide (wdBase (m.win k) ≤ a ∧ a < wdBase (m.win k) + wdWords (m.win k))

/-- T03 for one tile (R192, R189). -/
def TileImg.accessOk (m : TileImg) (fs : List Fire) : Bool :=
  fs.all (fun f =>
    f.acc.all (fun a =>
      (!a.win || f.opens.any (fun k => decide (wdMode (m.win k) = 1) && a.words.all (m.inWindow k))) &&
      f.opens.all (fun k => (a.win && decide (wdMode (m.win k) = 1)) || a.words.all (fun w => !m.inWindow k w))) &&
    f.ports.all (fun p => m.inWindow p.1 p.2 && m.inWindow p.1 (p.2 + 15)))

/-! ## T04 to T06 -/

/-- T04: every port window belongs to one stream of its direction. -/
def Chart.windowsOwned (c : Chart) (i : Nat) : Bool :=
  let m := c.tiles.getD i {}
  let ss : List TierStream := match c.tier with | some t => t.streams | none => []
  (List.range 8).all (fun k =>
    let own := ss.filter (fun r => decide (r.window = k) && r.memberIxs.contains i)
    match wdMode (m.win k) with
    | 2 => decide (own.length = 1) && own.all (fun r => decide (r.kind = 1))
    | 3 => decide (own.length = 1) && own.all (fun r => decide (r.kind ≠ 1))
    | _ => decide (own.length = 0))

/-- The lend record of a borrower's segment. -/
def Tier.lendOf (t : Tier) (creg seg : Nat) : Option Lend := t.lends.find? (fun l => decide (l.creg = creg ∧ l.seg = seg))

/-- A chunk at an offset or address lies where T05 asks. -/
def State.chunkOk (s : State) (c : Chart) (t : Tier) (r : TierStream) (a : Nat) : Bool :=
  match r.space with
  | 0 => s.freeRange c (a, 64)
  | 1 => (match t.lendOf (r.tile / 32) r.seg with | some l => decide (a + 64 ≤ l.mib * 2 ^ 20) | none => false)
  | _ =>
    (match t.hsegs[r.seg]? with
     | some h =>
       let far := if h.slots = 0 then 0 else h.bytes / h.slots * (h.slots - 1)
       decide (a + far + 64 ≤ h.bytes) && (decide (r.kind = 1) || h.writable)
     | none => false)

/-- T05. -/
def State.walksOk (s : State) (c : Chart) (t : Tier) : Bool :=
  t.streams.all (fun r => (List.range r.len).all (fun n =>
    s.chunkOk c t r (r.base + r.chunkOff n) && (decide (r.kind ≠ 3) || s.chunkOk c t r (r.alt + r.chunkOff n))))

/-- T06: what a region lends and retains. -/
def Chart.pressureOk (c : Chart) (v : Nat) (t : Tier) : Bool :=
  (List.range (24 * v)).all (fun r =>
    decide (sumN ((t.lends.filter (fun l => decide (mkRegion l.die l.row l.col = r))).map (fun l => 2 * l.mib)) +
      sumN ((t.retains.filter (fun x => decide (c.placed.getD x.creg (24 * v) = r))).map (fun x => ceilDiv x.bytes 524288 + 1)) ≤ 12))

/-! ## T07, T08: lines in a waypoint interval -/

/-- The accesses of a stream's window in interval `k` of a pass: the first, and how many. -/
def Chart.accessSpan (c : Chart) (r : TierStream) (k : Nat) : Nat × Nat :=
  let cums := winCums (c.tiles.getD r.tile {}) r.window
  let lo := if k = 0 then 0 else cums.getD (k - 1) 0
  (lo, cums.getD k 0 - lo)

/-- Chunk numbers of the walk that a stream accesses in interval `k`. -/
def Chart.chunksIn (c : Chart) (r : TierStream) (k : Nat) : List Nat :=
  let (lo, n) := c.accessSpan r k
  (List.range n).map (fun j => r.chunkOff ((lo + j) % r.len))

/-- The generation of an ACCUM stream in interval `k` of pass `p` (R199). -/
def Chart.genAt (c : Chart) (r : TierStream) (p k : Nat) : Nat :=
  let used := fun (n : Nat) => ((List.range n).filter (fun j => decide (0 < (c.accessSpan r j).2))).length
  p * used c.wps + used k

/-- A use of a line: its tag space and number, whether it writes, and the presented region. -/
structure Use where
  tag    : Nat
  line   : Nat
  wr     : Bool
  region : Nat
  deriving DecidableEq, Repr

/-- The slots of the host segment of a stream: one where it has none. -/
def Chart.slotsOf (c : Chart) (r : TierStream) : Nat := if r.space = 2 then max 1 ((c.tier.getD {}).hsegs.getD r.seg ⟨0, 0, false⟩).slots else 1

/-- The offset of slot `j` of the segment a stream accesses (R196). -/
def Chart.slotAt (c : Chart) (r : TierStream) (j : Nat) : Nat :=
  let n := c.slotsOf r
  if n = 1 then 0 else ((c.tier.getD {}).hsegs.getD r.seg ⟨0, 0, false⟩).bytes / n * (j % n)

/-- The uses of a stream in interval `k` of pass `p`, in slot `j` of its host segment. -/
def Chart.usesOf (c : Chart) (r : TierStream) (p k j : Nat) : List Use :=
  let reg := tileRegion (c.tileNo r.tile)
  if r.space = 1 then []
  else
    let u := fun (base : Nat) (wr : Bool) => (c.chunksIn r k).map (fun o => (⟨r.tag, lineAddr (base + o + c.slotAt r j), wr, reg⟩ : Use))
    if r.kind = 1 then u r.base false
    else if r.kind = 2 then u r.base true
    else
      let g := c.genAt r p k
      u (if g % 2 = 0 then r.base else r.alt) false ++ u (if g % 2 = 0 then r.alt else r.base) true

/-- The uses of every stream. -/
def Chart.uses (c : Chart) (t : Tier) (p k j : Nat) : List Use := t.streams.flatMap (fun r => c.usesOf r p k j)

/-- The most slots of any host segment. -/
def Tier.slots (t : Tier) : Nat := (t.hsegs.map (·.slots)).foldl max 1

/-- A use touches one of some ranges of a tag space: 0 device memory, 1 + s host segment s. -/
def Use.hits (x : Use) (tag : Nat) (rs : List (Nat × Nat)) : Bool := decide (x.tag = tag) && rs.any (fun r => overlaps (128 * x.line) 128 r.1 r.2)

/-- A retained range touches one of some ranges: none is ever written (T07). -/
def Tier.retainsAny (t : Tier) (rs : List (Nat × Nat)) : Bool := t.retains.any (fun x => rs.any (fun r => overlaps x.base x.bytes r.1 r.2))

/-- From interval `lo` of a training step on, the streams leave alone what other agents write in a tag space and only read what
they read; and no retained range is written (T07). -/
def Chart.rangesApart (c : Chart) (t : Tier) (lo tag : Nat) (writes reads : List (Nat × Nat)) : Bool :=
  !(decide (tag = 0) && t.retainsAny writes) &&
    [0, 1].all (fun p => ((List.range c.wps).filter (fun k => decide (lo ≤ k))).all (fun k =>
      (List.range t.slots).all (fun j => (c.uses t p k j).all (fun x => !x.hits tag writes && !(x.wr && x.hits tag reads)))))

/-- The same between the commit waypoint and the step end of a commit step, in device memory. -/
def Chart.commitApart (c : Chart) (t : Tier) (cwpt : Nat) (writes reads : List (Nat × Nat)) : Bool := c.rangesApart t (cwpt + 1) 0 writes reads

/-- The blocks of a HOST group in its segment: slots 2q and 2q + 1 of each position q of its runs (07 R243). -/
def Upd.hostRanges (u : Upd) (g : Nat) : List (Nat × Nat) :=
  (u.runs.filter (fun r => decide (r.group = g))).map (fun r => (8192 * r.gpos, 8192 * r.count))

/-- T07 of what the update units and their paging reach: the running records are written for every waypoint, the page frames
from PAGE_WPT on, block maps and pool rings from the commit waypoint on; HOST blocks are read from PAGE_WPT on and written
from the commit waypoint on (07 R219, R227, R228, R244). -/
def Chart.unitsApart (c : Chart) (t : Tier) : Bool :=
  match c.upd with
  | none => true
  | some u =>
    c.rangesApart t 0 0 [(u.save, 524288)] [] &&
      c.commitApart t u.cwpt (u.units.flatMap (fun x => [(x.map, 8 * x.mapLen), (x.pool, 4 * x.poolSize)])) [] &&
      u.units.all (fun x => decide (x.frameCnt = 0) ||
        (c.rangesApart t (x.pageWpt + 1) 0 [(x.frames, 4096 * x.frameCnt)] [] &&
          (u.groups.zipIdx.filter (fun g => g.1.host && (u.runsOf x).any (fun r => decide (r.group = g.2)))).all (fun g =>
            c.rangesApart t (x.pageWpt + 1) (1 + g.1.hseg) [] (u.hostRanges g.2)))) &&
      (u.groups.zipIdx.filter (fun g => g.1.host)).all (fun g => c.rangesApart t (u.cwpt + 1) (1 + g.1.hseg) (u.hostRanges g.2) [])

/-- What the link engines and the Helm write in a commit (07 R247; 09 R293, R294), update sections apart: the agreement
record, the exponent vectors, the commit record. -/
def Chart.linkWrites (c : Chart) : List (Nat × Nat) :=
  (match c.red with | some r => (r.arec, 64) :: r.groups.map (fun g => (g.agree, 2 * g.buckets)) | none => []) ++
    (match c.upd with | some u => [(u.commit, 64)] | none => [])

/-- What the link engines read: the gradient buffers (09 R290). -/
def Chart.linkReads (c : Chart) : List (Nat × Nat) :=
  match c.red with
  | some r => r.groups.flatMap (fun g => [(g.grad0, 65536 * g.buckets), (g.grad1, 65536 * g.buckets)])
  | none => []

/-- T07. The generations of two successive passes show every role a copy can take, and every slot is tried. The ranges that the
UPDATE and REDUCE sections declare count with the streams; the journal writer's lie in no chart's (11 R358). -/
def Chart.linesOk (c : Chart) (t : Tier) : Bool :=
  [0, 1].all (fun p => (List.range c.wps).all (fun k => (List.range t.slots).all (fun j =>
    let us := c.uses t p k j
    us.all (fun x => !x.wr ||
      (us.all (fun y => decide (x.tag ≠ y.tag ∨ x.line ≠ y.line) || (y.wr && decide (x.region = y.region))) &&
        t.retains.all (fun r => decide (x.tag ≠ 0) || !overlaps (128 * x.line) 128 r.base r.bytes)))))) &&
    c.commitApart t (match c.upd with | some u => u.cwpt | none => c.wps) c.linkWrites c.linkReads && c.unitsApart t

/-- The steps at which a window makes its accesses, each with its waypoint interval. -/
def TileImg.portSteps (m : TileImg) (k : Nat) : List (Nat × Nat) :=
  let fs := m.firings
  (fs.zipIdx.filter (fun x => x.1.ports.any (fun p => decide (p.1 = k)))).map (fun x => (x.2, ((fs.take x.2).filter m.wptAt).length))

/-! ## T09 -/

/-- Every extent of every tile: tile, extent number, extent. -/
def Chart.extents (c : Chart) : List (Nat × Nat × Extent) :=
  c.tiles.zipIdx.flatMap (fun x => (c.resid.getD x.1.resid []).zipIdx.map (fun e => (x.2, e.2, e.1)))

/-- The ranges of LIVE copies: copy 0 of each extent, copy 1 of each record. -/
def Chart.liveRanges (c : Chart) (t : Tier) : List (Nat × Nat) :=
  let live := c.extents.filter (fun x => x.2.2.live)
  live.map (fun x => (x.2.2.source, 4 * x.2.2.words)) ++
    live.flatMap (fun x => (t.lives.filter (fun l => decide (l.tile = x.1 ∧ l.extent = x.2.1))).map (fun l => (l.alt, 4 * x.2.2.words)))

/-- The ranges the UPDATE section declares, weight images apart (07 Tables UPD-3 to UPD-6). -/
def Upd.ranges (u : Upd) : List (Nat × Nat) :=
  [(u.commit, 64), (u.save, 524288)] ++
    u.units.flatMap (fun x => [(x.map, 8 * x.mapLen), (x.pool, 4 * x.poolSize), (x.stage, 1024 * x.blocks), (x.frames, 4096 * x.frameCnt)]) ++
    u.groups.map (fun g => (g.lrs, if g.lrs = 0 then 0 else 4 * g.lrsLen))

/-- The ranges of the REDUCE section (09 Tables REDN-1, REDN-2). -/
def RedSec.ranges (r : RedSec) : List (Nat × Nat) :=
  (r.arec, 64) :: r.groups.flatMap (fun g =>
    [(g.grad0, 65536 * g.buckets), (g.grad1, 65536 * g.buckets), (g.wimage, 32768 * g.buckets), (g.agree, 2 * g.buckets)])

/-- The ranges of the UPDATE and REDUCE sections. -/
def Chart.sectionRanges (c : Chart) : List (Nat × Nat) :=
  (match c.upd with | some u => u.ranges | none => []) ++ (match c.red with | some r => r.ranges | none => [])

/-- T09. -/
def State.livesOk (s : State) (c : Chart) (t : Tier) : Bool :=
  let live := c.extents.filter (fun x => x.2.2.live)
  live.all (fun x => decide ((t.lives.filter (fun l => decide (l.tile = x.1 ∧ l.extent = x.2.1))).length = 1)) &&
    decide (t.lives.length = live.length) && (c.liveRanges t).all (s.freeRange c) &&
    apart (c.liveRanges t) && (c.liveRanges t).all (fun x => (c.baseRanges ++ [(t.save, 32 * t.streams.length)] ++ c.sectionRanges).all (fun y => !overlaps x.1 x.2 y.1 y.2))

/-- T04's clause on accesses per pass: each member as many as the owner, a positive multiple of the walk. -/
def Chart.accessesOk (c : Chart) (i : Nat) : Bool :=
  match c.tier with
  | none => true
  | some t =>
    t.streams.all (fun r =>
      let n := fun (k : Nat) => (winCums (c.tiles.getD k {}) r.window).getLast?.getD 0
      !(r.memberIxs.contains i) || (decide (n i = n r.tile) && decide (0 < n r.tile ∧ n r.tile % r.len = 0)))

end Sys2Proof.Machine
end

