-- ==== Sys2Proof/Machine/Update.lean ====
section
/-! DEFINITION. The update units: staging, the commit, the optimisers and paging (07 R212-R249). -/

namespace Sys2Proof.Machine

/-! ## What a unit works on -/

/-- The unit record of an update unit and its number, if the chart has one. -/
def State.unitRec (s : State) (u : Nat) : Option (Nat × UnitRec) :=
  match s.updSec with
  | some c => (c.units.zipIdx.find? (fun x => decide (2 * x.1.stack + x.1.unit = u))).map (fun x => (x.2, x.1))
  | none => none

/-- An element of the commit sequence (07 R226): group, map index, what it is (0 a state block, 1 a
row-factor block, 2 a column-factor block), its number among the factor blocks or its group position, its
staging index, and its weight image. -/
structure CElem where
  grp : Nat
  ix  : Nat
  fac : Nat
  q   : Nat
  j   : Nat
  wi  : Nat
  deriving DecidableEq, Repr

/-- The elements of one run whose first block has staging index `j0`. -/
def Upd.runElems (c : Upd) (r : RunRec) (j0 : Nat) : List CElem :=
  let g := c.groups.getD r.group {}
  let fac := fun (k first n : Nat) => (List.range n).map (fun i => (⟨r.group, first + i, k, i, 0, 0⟩ : CElem))
  (if g.opt = 4 then fac 1 g.frow (ceilDiv g.rows 1024) ++ fac 2 g.fcol (ceilDiv g.cols 1024) else []) ++
  (List.range r.count).map (fun i => (⟨r.group, r.first + i, 0, r.gpos + i, j0 + i, r.wimage + 1024 * i⟩ : CElem))

/-- The commit sequence of a list of runs. -/
def Upd.seqFrom (c : Upd) : List RunRec → Nat → List CElem
  | [], _ => []
  | r :: rs, j => c.runElems r j ++ c.seqFrom rs (j + r.count)

/-- The commit sequence of a unit (07 R226). -/
def Upd.commitSeq (c : Upd) (x : UnitRec) : List CElem := c.seqFrom (c.runsOf x) 0

/-- The HOST elements of a commit sequence, in order. -/
def Upd.hostElems (c : Upd) (x : UnitRec) : List CElem := (c.commitSeq x).filter (fun e => (c.groups.getD e.grp {}).host)

/-- The base address of a stack (01 R25). -/
def stackBase (st : Nat) : Nat := st * 2 ^ 36

/-! ## Block-map entries (07 Table UPD-2) -/
def meKind (e : Nat) : Nat := bitsOf e 63 62
def meStep (e : Nat) : Nat := bitsOf e 61 48
def mePrev (e : Nat) : Nat := bitsOf e 47 24
def meCur (e : Nat) : Nat := bitsOf e 23 0
def mkEntry (kind step prev cur : Nat) : Nat := kind * 2 ^ 62 + step % 16384 * 2 ^ 48 + prev % 2 ^ 24 * 2 ^ 24 + cur % 2 ^ 24

/-! ## Weights (07 R213) -/

/-- The master weight that W and REM encode. -/
def decodeWeight (w rem : Nat) : W32 := BitVec.ofNat 32 (w * 65536 + unsigned 32 (signed 16 rem))

/-- W, REM and whether the weight saturated. -/
def encodeWeight (w : W32) : Nat × Nat × Bool :=
  let mag := w.toNat % 2 ^ 31
  let sat := decide (0x7F7F8000 ≤ mag ∧ mag < 0x7F800000)
  let b := if sat then w.toNat / 2 ^ 31 * 2 ^ 31 + 0x7F7F7FFF else w.toNat
  ((b + 0x8000) / 65536 % 65536, b % 65536, sat)

/-! ## Optimisers (07 R235-R240) -/

/-- Moments and weight of a parameter as FP32. -/
structure Param where
  w : W32
  m : W32
  v : W32
  deriving DecidableEq, Repr

/-- AdamW (07 R237). -/
def adamW (g : GroupRec) (c : GConst) (gr : W32) (p : Param) : Param :=
  let m := f32Fma g.b1 p.m (f32Mul c.omb1 gr)
  let t := f32Mul c.omb2 (f32Mul gr gr)
  let v := f32Fma g.b2 p.v t
  let d := f32Add (f32Sqrt (f32Mul v c.c2)) g.eps
  let u := f32Div (f32Mul m c.c1) d
  ⟨f32Fma (f32Neg c.lr) (f32Fma g.wd p.w u) p.w, m, v⟩

/-- SGD with momentum (07 R238). -/
def sgd (g : GroupRec) (c : GConst) (gr : W32) (p : Param) : Param :=
  let g1 := f32Fma g.wd p.w gr
  let m := f32Fma g.b1 p.m g1
  let u := if g.nesterov then f32Fma g.b1 m g1 else m
  ⟨f32Fma (f32Neg c.lr) u p.w, m, 0⟩

/-- The sign Lion takes (07 R239). -/
def signF32 (c : W32) : W32 :=
  if isNan (ofF32 c) then f32Nan else if f32Gt c 0 then f32One else if f32Gt 0 c then 0xBF800000 else 0

/-- Lion (07 R239). -/
def lion (g : GroupRec) (c : GConst) (gr : W32) (p : Param) : Param :=
  let t := f32Fma g.b1 p.m (f32Mul c.omb1 gr)
  let u := signF32 t
  ⟨f32Fma (f32Neg c.lr) (f32Fma g.wd p.w u) p.w, f32Fma g.b2 p.m (f32Mul c.omb2 gr), 0⟩

/-- Pass 2 of the factored second moment (07 R240), with the factors of the parameter's row and column. -/
def factored (g : GroupRec) (c : GConst) (r cl rmean gr : W32) (p : Param) : Param :=
  let m := f32Fma g.b1 p.m (f32Mul c.omb1 gr)
  let vh := f32Mul (f32Div (f32Mul r cl) rmean) c.c2
  let u := f32Div (f32Mul m c.c1) (f32Add (f32Sqrt vh) g.eps)
  ⟨f32Fma (f32Neg c.lr) (f32Fma g.wd p.w u) p.w, m, 0⟩

/-! ## Gradients of a unit -/

/-- The staged gradient of parameter `p` of block `j`, times GSCALE × 2^−s (07 R236). -/
def State.stagedGrad (s : State) (x : UnitRec) (c : GConst) (j p : Nat) : W32 :=
  f32Mul (toF32 (decodeF fp16 (s.devNat (x.stage + 1024 * j + 2 * p) 2))) c.gs

/-- Staging index of the block at a group position of a unit. -/
def stageIx (runs : List RunRec) (grp q : Nat) : Nat → Option Nat
  | j0 =>
    match runs with
    | [] => none
    | r :: rs =>
      if r.group = grp ∧ r.gpos ≤ q ∧ q < r.gpos + r.count then some (j0 + (q - r.gpos))
      else stageIx rs grp q (j0 + r.count)

/-- The gradient at row `i`, column `j` of a factored group. -/
def State.matGrad (s : State) (cu : Upd) (x : UnitRec) (c : GConst) (grp i j : Nat) : W32 :=
  let g := cu.groups.getD grp {}
  let q := i * (g.cols / 512) + j / 512
  match stageIx (cu.runsOf x) grp q 0 with
  | some b => s.stagedGrad x c b (j % 512)
  | none => 0

/-- The sum over a row, and over a column, of the squared gradients (07 R240, pass 1). -/
def State.rowSum (s : State) (cu : Upd) (x : UnitRec) (c : GConst) (grp i : Nat) : W32 :=
  let g := cu.groups.getD grp {}
  (List.range g.cols).foldl (fun a j => let v := s.matGrad cu x c grp i j; f32Add a (f32Fma v v g.eps1)) 0
def State.colSum (s : State) (cu : Upd) (x : UnitRec) (c : GConst) (grp j : Nat) : W32 :=
  let g := cu.groups.getD grp {}
  (List.range g.rows).foldl (fun a i => let v := s.matGrad cu x c grp i j; f32Add a (f32Fma v v g.eps1)) 0

/-- A block-map entry of a unit. -/
def State.mapEntry (s : State) (x : UnitRec) (ix : Nat) : Nat := s.devNat (x.map + 8 * ix) 8

/-- A factor element from the block its entry names. -/
def State.factorAt (s : State) (x : UnitRec) (first i : Nat) : W32 :=
  let e := s.mapEntry x (first + i / 1024)
  BitVec.ofNat 32 (s.devNat (stackBase x.stack + meCur e * 4096 + 4 * (i % 1024)) 4)

/-- The new values of factor block `q`, rows or columns (07 R240). Elements of the last block beyond ROWS or COLS keep their old
values, for which the rule gives no new ones (DESIGN CHOICE, log 119). -/
def State.newFactors (s : State) (cu : Upd) (x : UnitRec) (c : GConst) (e : CElem) : List W32 :=
  let g := cu.groups.getD e.grp {}
  let n := if e.fac = 1 then g.rows else g.cols
  let first := if e.fac = 1 then g.frow else g.fcol
  (List.range 1024).map (fun k =>
    let i := 1024 * e.q + k
    if n ≤ i then s.factorAt x first i
    else
      let mean := if e.fac = 1 then f32Mul (s.rowSum cu x c e.grp i) (f32Div f32One (f32OfNat g.cols))
        else f32Mul (s.colSum cu x c e.grp i) (f32Div f32One (f32OfNat g.rows))
      f32Fma g.b2 (s.factorAt x first i) (f32Mul c.omb2 mean))

/-- The mean of the new row factors (07 R240). -/
def State.rowMean (s : State) (x : UnitRec) (g : GroupRec) : W32 :=
  f32Mul ((List.range g.rows).foldl (fun a i => f32Add a (s.factorAt x g.frow i)) 0) (f32Div f32One (f32OfNat g.rows))

/-! ## A new block -/

/-- A new block, how many of its parameters are not finite and the first of them, and how many saturated. -/
structure NewBlock where
  bytes  : List Byte
  bad    : List Nat
  sats   : Nat
  deriving DecidableEq, Repr

def bf16Of (w : W32) : Nat := convF bf16 .nearest (ofF32 w) 1
def bf16Bad (w : Nat) : Bool := !isFin (ofBf16 w)

/-- The new state block of an element from the old one's bytes (07 R212, R236-R241). A moment counts as non-finite by the BF16
value that is stored, so one that rounds to an infinity counts (R241; DEDUCED, log 120). A padding block of a factored group, at a position
from ROWS × COLS ÷ 512 on (R223), uses the row-factor element that its position gives, beyond ROWS (DESIGN CHOICE, log 119). -/
def State.newState (s : State) (cu : Upd) (x : UnitRec) (c : GConst) (e : CElem) (old : List Byte) : NewBlock :=
  let g := cu.groups.getD e.grp {}
  let rm := if g.opt = 4 then s.rowMean x g else 0
  let per := g.cols / 512
  let ps := (List.range 512).map (fun p =>
    let pr : Param := ⟨decodeWeight (fieldAt old (2 * p) 2) (fieldAt old (0x400 + 2 * p) 2),
      toF32 (ofBf16 (fieldAt old (0x800 + 2 * p) 2)), toF32 (ofBf16 (fieldAt old (0xC00 + 2 * p) 2))⟩
    let gr := s.stagedGrad x c e.j p
    match g.opt with
    | 1 => adamW g c gr pr
    | 2 => sgd g c gr pr
    | 3 => lion g c gr pr
    | _ => factored g c (s.factorAt x g.frow (e.q / per)) (s.factorAt x g.fcol (512 * (e.q % per) + p)) rm gr pr)
  let en := ps.map (fun p => encodeWeight p.w)
  let bad := (List.range 512).filter (fun i =>
    match ps[i]? with
    | some p => !isFin (ofF32 p.w) || bf16Bad (bf16Of p.m) || (decide (g.opt = 1) && bf16Bad (bf16Of p.v))
    | none => false)
  ⟨en.flatMap (fun w => leBytes 2 w.1) ++ en.flatMap (fun w => leBytes 2 w.2.1) ++
     ps.flatMap (fun p => leBytes 2 (bf16Of p.m)) ++
     ps.flatMap (fun p => leBytes 2 (if g.opt = 1 then bf16Of p.v else 0)),
   bad, (en.filter (fun w => w.2.2)).length⟩

/-- The new block of an element that is not committed (07 Table UPD-10 acts 2, 3). -/
def State.newBlock (s : State) (cu : Upd) (x : UnitRec) (c : GConst) (e : CElem) (old : List Byte) : NewBlock :=
  if e.fac = 0 then s.newState cu x c e old
  else
    let ws := s.newFactors cu x c e
    let g := cu.groups.getD e.grp {}
    let n := if e.fac = 1 then g.rows else g.cols
    let bad := (List.range 1024).filter (fun k => decide (1024 * e.q + k < n) && !isFin (ofF32 (ws.getD k 0)))
    ⟨ws.flatMap (fun w => leBytes 4 w.toNat), bad, 0⟩

/-- Count what a new block's parameters gave (07 R213, R241). -/
def State.countBlock (s : State) (u : Nat) (e : CElem) (b : NewBlock) : State :=
  let s := (s.bump 0x9041 3 64 b.bad.length).bump 0x9041 4 64 b.sats
  match b.bad with
  | [] => s
  | p :: _ =>
    if s.upd.nonfin then s
    else ({ s with upd := { s.upd with nonfin := true } } : State).event (srcStack (u / 8)) 0x3A21 (leBytes 1 u ++ leBytes 4 e.ix ++ leBytes 2 p)

/-! ## The pool (07 R228) -/

/-- The location at the head of a unit's pool ring. -/
def State.poolHead (s : State) (u : Nat) (x : UnitRec) : Nat := s.devNat (x.pool + 4 * ((s.unit u).whead % x.poolSize)) 4 % 2 ^ 24

/-- Push a location and advance HEAD and TAIL. -/
def State.poolPush (s : State) (u : Nat) (x : UnitRec) (loc : Nat) : State :=
  let y := s.unit u
  let s := s.devWrite (x.pool + 4 * (y.wtail % x.poolSize)) (leBytes 4 (loc % 2 ^ 24))
  s.setUnit u { y with whead := (y.whead + 1) % 2 ^ 32, wtail := (y.wtail + 1) % 2 ^ 32 }

/-! ## HOST blocks (07 R243, R244) -/

/-- The host bus address of a slot of a group's segment. -/
def State.hostSlot (s : State) (g : GroupRec) (slot : Nat) : Nat :=
  match s.chart with
  | some c => (tget 0 c.hsegAt g.hseg - 1) + 4096 * slot
  | none => 0

/-- The device address of the frame of the `h`-th HOST element. -/
def UnitRec.frame (x : UnitRec) (h : Nat) : Nat := x.frames + 4096 * (h % x.frameCnt)

/-- The number of HOST elements before a place in the commit sequence. -/
def Upd.hostBefore (c : Upd) (x : UnitRec) (pos : Nat) : Nat :=
  (((c.commitSeq x).take pos).filter (fun e => (c.groups.getD e.grp {}).host)).length

/-- Advance to the next element. -/
def State.nextElem (s : State) (u : Nat) : State :=
  let y := s.unit u
  s.setUnit u { y with pos := y.pos + 1, filled := false, backed := false }

/-- Write W of a block to its weight image (07 Table UPD-10 act 8). -/
def State.weightImage (s : State) (e : CElem) (block : List Byte) : State :=
  if e.fac = 0 then s.devWrite e.wi (block.take 1024) else s

/-- An element of a group in the stack (07 Table UPD-10, R228). -/
def State.stackElem (s : State) (u : Nat) (cu : Upd) (x : UnitRec) (e : CElem) : State :=
  let y := s.unit u
  let k1 := y.k + 1
  let ent := s.mapEntry x e.ix
  let at' := fun (loc : Nat) => stackBase x.stack + 4096 * loc
  let f := s.poolHead u x
  if meStep ent = k1 % 16384 then
    if f ≠ meCur ent then s.unitFault u 0x30 (leBytes 4 e.ix ++ leBytes 4 f ++ leBytes 4 (meCur ent))
    else
      let s := s.poolPush u x (mePrev ent)
      let s := s.weightImage e (s.devRead (at' (meCur ent)) 1024)
      (s.bump 0x9041 1 64 1).nextElem u
  else
    let b := s.newBlock cu x (y.consts.getD e.grp {}) e (s.devRead (at' (meCur ent)) 4096)
    let s := (s.countBlock u e b).devWrite (at' f) b.bytes
    let s := s.devWrite (x.map + 8 * e.ix) (leBytes 8 (mkEntry (meKind ent) k1 (meCur ent) f))
    let s := s.poolPush u x (meCur ent)
    ((s.weightImage e b.bytes).bump 0x9041 0 64 1).nextElem u

/-- The region [dk:r,3] that pages the HOST blocks of a unit's stack (06 R209). -/
def pagerOf (u : Nat) : Nat := mkRegion (u / 8) (u / 2 % 4) 3

/-- Charge a commit that waits for paging to the region that pages: once, whichever of the stack's two units waits (06 R209). -/
def State.chargePage (s : State) (u : Nat) : State :=
  let y := s.unit u
  if y.waited ∨ (s.unit (u ^^^ 1)).waited then s
  else
    (s.tierCount (pagerOf u) 5 1).setUnit u { y with waited := true }

/-- An element of a HOST group: acts 1 to 3 into its frame; acts 6 to 8 once the frame is written back. -/
def State.hostElem (s : State) (u : Nat) (cu : Upd) (x : UnitRec) (e : CElem) : State :=
  let y := s.unit u
  let k1 := y.k + 1
  let ent := s.mapEntry x e.ix
  let h := cu.hostBefore x y.pos
  if y.paged ≤ h then s.chargePage u
  else
    let fr := x.frame h
    if meStep ent = k1 % 16384 then
      let s := s.weightImage e (s.devRead fr 1024)
      (s.bump 0x9041 1 64 1).nextElem u
    else if ¬ y.filled then
      let b := s.newBlock cu x (y.consts.getD e.grp {}) e (s.devRead fr 4096)
      let s := (s.countBlock u e b).devWrite fr b.bytes
      s.setUnit u { s.unit u with filled := true }
    else if y.backed then
      let s := s.devWrite (x.map + 8 * e.ix) (leBytes 8 (mkEntry (meKind ent) k1 (meCur ent) (meCur ent ^^^ 1)))
      ((s.weightImage e (s.devRead fr 1024)).bump 0x9041 0 64 1).nextElem u
    else s

/-! ## The commands -/

/-- A unit works: its door is open and the module handles no fault. -/
def State.unitUp (s : State) (u : Nat) : Bool := !s.doorClosed .update u && decide (s.rcv.phase = .idle)

/-- STAGING_BUCKET_RECEIVE (R222, R296): the complete sums of an owned bucket enter the staging of the unit
that has its blocks, as FP16. -/
def execStagingBucketReceive (u group bucket : Nat) (s : State) : Host.Outcome State Fault Refusal :=
  match s.updSec, s.unitRec u, s.rgroup group with
  | some cu, some (_, x), some g =>
    let y := s.unit u
    let last := g.axisList.length
    let parts := fun (h : Nat) => (List.range 171).map (fun c =>
      s.redn.sums.find? (fun p => decide (p.group = group ∧ p.bucket = bucket ∧ p.half = h ∧ p.chunk = c ∧ p.axis = last)))
    let all := parts 0 ++ parts 1
    match stageIx (cu.runsOf x) group (32 * bucket) 0 with
    | none => .next s
    | some j =>
      if s.running ∧ s.unitUp u ∧ ¬ s.doorClosed .stack x.stack ∧ y.accept ∧ ¬ y.staged.contains (group, bucket) ∧ all.all Option.isSome then
        let vals := (all.flatMap (fun p => match p with | some q => q.sums | none => [])).map (s.stagedValue g bucket)
        let s := (s.devWrite (x.stage + 1024 * j) (vals.flatMap (fun v => leBytes 2 v.1.toNat))).bump 0x9041 2 64 (vals.filter (·.2)).length
        let s := s.setUnit u { s.unit u with staged := y.staged ++ [(group, bucket)] }
        .next { s with redn := { s.redn with sums := s.redn.sums.filter (fun p => !(decide (p.group = group ∧ p.bucket = bucket))) } }
      else .next s
  | _, _, _ => .next s

/-- Staging of a unit is complete (07 R222); with the agreed flag 1 it is, without data (09 R290). -/
def State.stagingDone (s : State) (x : UnitRec) : Bool :=
  s.redn.flag || decide (x.blocks ≤ 32 * (s.unit (2 * x.stack + x.unit)).staged.length)

/-- The constants of a group for the commit after K (07 R226). -/
def State.groupConst (s : State) (y : UpdUnit) (g : GroupRec) (i : Nat) : GConst :=
  let b1 := f32Mul (tget f32One y.b1pow i) g.b1
  let b2 := f32Mul (tget f32One y.b2pow i) g.b2
  { b1pow := b1, b2pow := b2
    c1 := f32Div f32One (f32Sub f32One b1)
    c2 := f32Div f32One (f32Sub f32One b2)
    lr := (if g.lrs = 0 then g.lr else BitVec.ofNat 32 (s.devNat (g.lrs + 4 * min y.k (g.lrsLen - 1)) 4))
    gs := f32Mul g.gscale (f32Pow2 (-s.lossExp))
    omb1 := f32Sub f32One g.b1
    omb2 := f32Sub f32One g.b2 }

/-- A unit begins its commit: constants, the pool from its running record (07 R226, R228). -/
def State.beginUnit (s : State) (cu : Upd) (u : Nat) : State :=
  let y := s.unit u
  s.setUnit u { y with
    active := true, pos := 0, whead := y.head, wtail := y.tail, filled := false, backed := false,
    consts := cu.groups.zipIdx.map (fun g => s.groupConst y g.1 g.2) }

/-- What the start of a commit reads: the commit record and, in each group's table, the rate of every unit. -/
def State.constReads (s : State) (cu : Upd) : List (Nat × Nat) :=
  (cu.commit, 64) :: cu.units.flatMap (fun x => (cu.groups.filter (fun g => decide (g.lrs ≠ 0))).map (fun g =>
    (g.lrs + 4 * min (s.unit (2 * x.stack + x.unit)).k (g.lrsLen - 1), 4)))

/-- COMMIT_START (R225): after the release of the commit waypoint of a commit step, with every unit's
staging complete, the Helm writes the decision where it finds none, and each unit begins; a skip begins
nothing, nor does a commit that has been finished already (R234). The record's write waits at its stack's door (15 R431); the reads of the
record and of the rate tables may meet a stack error (15 R433). -/
def execCommitStart (ue : Option Nat) (s : State) : Host.Outcome State Fault Refusal :=
  match s.updSec with
  | none => .next s
  | some cu =>
    if s.running ∧ s.commitOpen ∧ s.commitStep ∧ ¬ s.upd.started ∧ decide (s.rcv.phase = .idle) ∧ cu.units.all s.stagingDone
        ∧ ¬ s.stackHeld 0 cu.commit 64 then
      if let some a := ueIn ue (s.constReads cu) then .next (s.stackUe a)
      else
      let ph := s.commitNat 0 1
      let s := if ph = 0 ∧ s.upd.finished = 0 then s.devWrite cu.commit [if s.redn.flag then 2 else 1] else s
      let s := { s with upd := { s.upd with started := true } }
      if s.commitNat 0 1 = 2 ∨ s.upd.finished ≠ 0 then .next s
      else .next (forEach cu.units s (fun s x => s.beginUnit cu (2 * x.stack + x.unit)))
    else .next s

/-- The reads and writes of an element wait at a stack's door: its unit's own, or that of its weight image (15 R431). -/
def State.elemHeld (s : State) (x : UnitRec) (e : CElem) : Bool :=
  s.doorClosed .stack x.stack || (decide (e.fac = 0) && s.stackHeld 0 e.wi 1024)

/-- The block that an element reads first: its state or factor block in the stack, or its page frame. -/
def State.elemSource (s : State) (cu : Upd) (x : UnitRec) (e : CElem) (pos : Nat) : Nat :=
  if (cu.groups.getD e.grp {}).host then x.frame (cu.hostBefore x pos) else stackBase x.stack + 4096 * meCur (s.mapEntry x e.ix)

/-- COMMIT_ELEMENT (R227); `ue`: the unit's read meets an uncorrectable error of the stack (15 R433). -/
def execCommitElement (u : Nat) (ue : Bool) (s : State) : Host.Outcome State Fault Refusal :=
  match s.updSec, s.unitRec u with
  | some cu, some (_, x) =>
    let y := s.unit u
    if y.active ∧ s.unitUp u then
      match (cu.commitSeq x)[y.pos]? with
      | some e =>
        if s.elemHeld x e then .next s
        else if ue then .next (s.stackUe (s.elemSource cu x e y.pos))
        else .next (if (cu.groups.getD e.grp {}).host then s.hostElem u cu x e else s.stackElem u cu x e)
      | none => .next s
    else .next s
  | _, _ => .next s

/-- PAGE_IN (R244): the frame of the block at hand is written back and read again, or the next HOST block
is copied into its frame, once waypoint PAGE_WPT of a commit step has been released. A PCI Express error is the
tier engine's HOST_ERROR (06 R201); a read of the frame may meet a stack error (15 R433). -/
def execPageIn (u : Nat) (hostError : Bool) (ue : Option Nat) (s : State) : Host.Outcome State Fault Refusal :=
  match s.updSec, s.unitRec u with
  | some cu, some (_, x) =>
    let y := s.unit u
    let hs := cu.hostElems x
    let hereH := cu.hostBefore x y.pos
    if ¬ (s.running ∧ s.unitUp u ∧ s.tierUp (pagerOf u) ∧ s.commitStep ∧ s.pw.stacksUp ∧ ¬ s.doorClosed .stack x.stack
        ∧ (x.pageWpt + 1 < s.wptIx ∨ (x.pageWpt + 1 = s.wptIx ∧ s.wp.released))) then .next s
    else if y.active ∧ y.filled ∧ ¬ y.backed then
      match hs[hereH]? with
      | some e =>
        let g := cu.groups.getD e.grp {}
        let slot := meCur (s.mapEntry x e.ix) ^^^ 1
        if hostError then .next (s.hostFault (pagerOf u) (s.hostSlot g slot))
        else if let some a := ueIn ue [(x.frame hereH, 4096)] then .next (s.stackUe a)
        else
        let s := { s with hostMem := s.hostMem.writeN (s.hostSlot g slot) (s.devRead (x.frame hereH) 4096) }
        .next (s.setUnit u { y with backed := true })
      | none => .next s
    else
      match hs[y.paged]? with
      | some e =>
        if y.paged < hereH + x.frameCnt then
          let g := cu.groups.getD e.grp {}
          let slot := meCur (s.mapEntry x e.ix)
          if hostError then .next (s.hostFault (pagerOf u) (s.hostSlot g slot))
          else
          let s := s.devWrite (x.frame y.paged) (s.hostMem.readN (s.hostSlot g slot) 4096)
          .next (s.setUnit u { y with paged := y.paged + 1 })
        else .next s
      | none => .next s
  | _, _ => .next s

/-! ## Running records (07 Table UPD-7) -/

/-- A running record as bytes. -/
def runningRecord (y : UpdUnit) (groups : Nat) : List Byte :=
  leBytes 8 y.k ++ leBytes 4 y.head ++ leBytes 4 y.tail ++ zeros 16 ++
    (List.range groups).flatMap (fun g => leBytes 4 (tget f32One y.b1pow g).toNat ++ leBytes 4 (tget f32One y.b2pow g).toNat)

/-- The address of a unit's record in a copy of the save area (07 R219). -/
def Upd.recordAt (c : Upd) (copy i : Nat) : Nat := c.save + 262144 * copy + 4096 * i

/-- Load a unit's running record from a copy; the commit in progress is forgotten, staging is kept. -/
def State.loadRecord (s : State) (c : Upd) (copy i : Nat) (x : UnitRec) : State :=
  let a := c.recordAt copy i
  let u := 2 * x.stack + x.unit
  let pows := fun (off : Nat) => (List.range c.groups.length).foldl (fun t g =>
    tset f32One t g (BitVec.ofNat 32 (s.devNat (a + 0x20 + off + 8 * g) 4))) ([] : Tab W32)
  let y := s.unit u
  s.setUnit u { k := s.devNat a 8, head := s.devNat (a + 8) 4, tail := s.devNat (a + 0xC) 4, b1pow := pows 0, b2pow := pows 4, staged := y.staged, accept := y.accept }

/-- The record of a unit after the commit it has completed (07 R231). -/
def UpdUnit.committed (y : UpdUnit) : UpdUnit :=
  { y with
    k := y.k + 1, head := y.whead, tail := y.wtail, active := false, consts := [],
    b1pow := (y.consts.zipIdx.foldl (fun t c => tset f32One t c.2 c.1.b1pow) ([] : Tab W32)),
    b2pow := (y.consts.zipIdx.foldl (fun t c => tset f32One t c.2 c.1.b2pow) ([] : Tab W32)) }

/-- The number of the waypoint that ends the training step in which waypoint w lies. -/
def Chart.stepEndOf (c : Chart) (w : Nat) : Nat := (w / c.wps + 1) * c.wps

/-- The copy of the running records that a restore of waypoint w reads. -/
def State.unitCopy (s : State) (c : Chart) (w : Nat) : Nat := if s.upd.finished = 1 then c.stepEndOf w % 2 else w % 2

/-- Restore the running records of update units (07 R219), page frames held are gone: from copy w mod 2, or, where the commit of
this training step has been finished already, from the copy that the finish has written (R234). -/
def State.restoreUnits (s : State) (c : Chart) (w : Nat) (only : Nat → Bool) : State :=
  match c.upd with
  | none => s
  | some u => forEach u.units.zipIdx s (fun s x => if only (2 * x.1.stack + x.1.unit) then s.loadRecord u (s.unitCopy c w) x.2 x.1 else s)

/-! ## Finishing a commit (R234) -/

/-- A HOST block read into its frame for its element (07 R243, R244). -/
def State.pageElem (s : State) (u : Nat) (cu : Upd) (x : UnitRec) (e : CElem) : State :=
  let y := s.unit u
  let h := cu.hostBefore x y.pos
  let src := s.hostSlot (cu.groups.getD e.grp {}) (meCur (s.mapEntry x e.ix))
  (s.devWrite (x.frame h) (s.hostMem.readN src 4096)).setUnit u { y with paged := h + 1 }

/-- A HOST block written back from its frame. -/
def State.backElem (s : State) (u : Nat) (cu : Upd) (x : UnitRec) (e : CElem) : State :=
  let y := s.unit u
  let dst := s.hostSlot (cu.groups.getD e.grp {}) (meCur (s.mapEntry x e.ix) ^^^ 1)
  ({ s with hostMem := s.hostMem.writeN dst (s.devRead (x.frame (cu.hostBefore x y.pos)) 4096) } : State).setUnit u { y with backed := true }

/-- One element of a commit from beginning to end. -/
def State.wholeElem (s : State) (u : Nat) (cu : Upd) (x : UnitRec) (e : CElem) : State :=
  if (cu.groups.getD e.grp {}).host then
    let s := (s.pageElem u cu x e).hostElem u cu x e
    if (s.unit u).filled then (s.backElem u cu x e).hostElem u cu x e else s
  else s.stackElem u cu x e

/-- The error that the finish of a commit meets at an element. -/
def State.finishFault (s : State) (u : Nat) (cu : Upd) (x : UnitRec) (e : CElem) (host : Bool) : State :=
  let g := cu.groups.getD e.grp {}
  if host ∧ g.host then s.hostFault (pagerOf u) (s.hostSlot g (meCur (s.mapEntry x e.ix))) else s.stackUe (s.elemSource cu x e (s.unit u).pos)

/-- The elements of a commit from where the unit stands, and whether all are done: an element that raises a fault ends the work. -/
def State.wholeCommit (u : Nat) (cu : Upd) (x : UnitRec) (err : Option FinishErr) : Nat → State → Bool × State
  | 0, s => (true, s)
  | n + 1, s =>
    let p := (s.unit u).pos
    match (cu.commitSeq x)[p]? with
    | none => (true, s)
    | some e =>
      match err.filter (fun r => decide (r.unit = u ∧ r.elem = p)) with
      | some r => (false, s.finishFault u cu x e r.host)
      | none =>
        let t := s.wholeElem u cu x e
        if (t.unit u).pos = p then (false, t) else State.wholeCommit u cu x err n t

/-- One unit finishes its commit and saves its running record in a copy of the save area. -/
def State.finishUnit (s : State) (u : Upd) (copy : Nat) (err : Option FinishErr) (x : UnitRec × Nat) : Bool × State :=
  let n := 2 * x.1.stack + x.1.unit
  let r := State.wholeCommit n u x.1 err (u.commitSeq x.1).length (s.beginUnit u n)
  if r.1 then
    let y := (r.2.unit n).committed
    (true, (r.2.devWrite (u.recordAt copy x.2) (runningRecord y u.groups.length)).setUnit n y)
  else r

/-- The units in order, up to one that a fault stops. -/
def State.finishUnits (u : Upd) (copy : Nat) (err : Option FinishErr) : List (UnitRec × Nat) → State → Bool × State
  | [], s => (true, s)
  | x :: xs, s =>
    let r := s.finishUnit u copy err x
    if r.1 then State.finishUnits u copy err xs r.2 else r

/-- The commit record holds a decision whose step-end waypoint has not completed (R234). -/
def State.commitPending (s : State) : Bool :=
  s.chart.isSome && (decide (s.commitNat 0 1 = 1) || decide (s.commitNat 0 1 = 2))

/-- A decided commit is finished as on replay, every unit saves its running record for the step-end waypoint, and the Helm
writes PHASE 0 with K + 1 for a commit, K for a skip (R234); a skip finished so records no EV 0x3A20, which the step end of R249
records (log 95). What was decided is remembered for a RUN that goes on from here (log 95). Where `err` or a POOL_MISMATCH
stops it the fault is raised, the commit record keeps its decision and the first part of the answer is false (log 121). -/
def State.finishCommit (s : State) (c : Chart) (err : Option FinishErr) : Bool × State :=
  match c.upd with
  | none => (true, s)
  | some u =>
    let ph := s.devNat u.commit 1
    if ph = 1 ∨ ph = 2 then
      let r := if ph = 1 then
          State.finishUnits u (c.stepEndOf s.wp.count % 2) err u.units.zipIdx (s.restoreUnits c s.wp.count (fun _ => true))
        else (true, s)
      if r.1 then
        let k := r.2.devNat (u.commit + 8) 8
        let t := (r.2.devWrite u.commit [0]).devWrite (u.commit + 8) (leBytes 8 (if ph = 1 then k + 1 else k))
        (true, { t with upd := { t.upd with finished := ph } })
      else r
    else (true, s)

/-- A command that a fault has kept from finishing a commit: after a fault of class R it waits and tries again, after another it
completes with FAULT, DETAIL the record (log 121). -/
def State.finishFails (s : State) (seq : Nat) : State :=
  match s.rcv.faults.getLast? with
  | some f => if f.cls = clsR then s else s.endCmd seq 0x0D f.number 0
  | none => s

/-! ## Readiness -/

/-- UPDATE_UNIT_READY (R231): at the waypoint that ends a commit step a unit is ready when its commit
sequence is complete, or with the skip decided or the commit finished before (R234); at every other waypoint at once. It saves its running
record. -/
def execUpdateUnitReady (u : Nat) (s : State) : Host.Outcome State Fault Refusal :=
  match s.updSec, s.unitRec u with
  | some cu, some (i, x) =>
    let y := s.unit u
    let ends := s.stepEndNext && s.commitStep
    let done := decide ((cu.commitSeq x).length ≤ y.pos)
    if ¬ s.running ∨ y.ready ∨ ¬ s.unitUp u then .next s
    else if ends ∧ ¬ (s.upd.started ∧ (s.commitNat 0 1 = 2 ∨ s.upd.finished ≠ 0 ∨ (y.active ∧ done))) then .next s
    else if s.stackHeld 0 (cu.recordAt (s.nextWpt % 2) i) 4096 then .next s
    else
      let y := if ends ∧ y.active then y.committed else y
      let s := s.devWrite (cu.recordAt (s.nextWpt % 2) i) (runningRecord y cu.groups.length)
      .next (s.setUnit u { y with ready := true })
  | _, _ => .next s

end Sys2Proof.Machine
end

