-- ==== Sys2Proof/Machine/SectionChecks.lean ====
section
/-! DEFINITION. The UPDATE checks U01 to U07 (07 R221, Table UPD-9), the MAP checks M01 to M07 (08 R259, Table MAP-4) and
the REDUCE checks G01 to G07 (09 R289, Table REDN-4). -/

namespace Sys2Proof.Machine

/-! ## UPDATE -/

/-- U01: header and records (07 Tables UPD-3 to UPD-6). HSEG is at most 15 with HOST 0 too, and NESTEROV is set with OPT 2 alone (DESIGN CHOICE,
log 133). -/
def State.updRecordsOk (s : State) (m : Image) (c : Chart) (u : Upd) : Bool :=
  let a := m.at' 10
  let off := fun (o : Nat) => s.devNat (a + o) 8
  let z := fun (o sz i r n : Nat) => s.zero (a + off o + sz * i + r) n
  decide (64 ≤ m.lenOf 10 ∧ 1 ≤ u.units.length ∧ u.units.length ≤ 64 ∧ 1 ≤ u.groups.length ∧ u.groups.length ≤ 256) &&
    s.zero (a + 0x14) 4 && s.zero (a + 0x38) 8 && tableFits (m.lenOf 10) (off 0x18) 64 u.units.length &&
    tableFits (m.lenOf 10) (off 0x20) 64 u.groups.length && tableFits (m.lenOf 10) (off 0x28) 32 u.runs.length &&
    decide (u.units.map (fun x => (x.stack, x.unit))).Nodup &&
    u.units.zipIdx.all (fun (x, i) =>
      decide (x.stack < 4 * s.variant ∧ x.unit ≤ 1 ∧ x.runFirst + x.runCount ≤ u.runs.length ∧ x.blocks % 32 = 0 ∧
        x.blocks = sumN ((u.runsOf x).map (·.count)) ∧ (x.frameCnt = 0 ∨ (2 ≤ x.frameCnt ∧ x.frameCnt ≤ 256)) ∧ x.pageWpt < c.wps) &&
      (decide (x.frames = 0) || (u.runsOf x).any (fun r => (u.groups.getD r.group {}).host)) &&
      (u.runsOf x).all (fun r => decide (r.first + r.count ≤ x.mapLen)) && z 0x18 64 i 2 2 && z 0x18 64 i 0x3C 4) &&
    u.runs.zipIdx.all (fun (r, i) => decide (r.group < u.groups.length) && z 0x28 32 i 2 2 && z 0x28 32 i 0x18 8) &&
    u.groups.zipIdx.all (fun (g, i) =>
      decide (1 ≤ g.opt ∧ g.opt ≤ 4 ∧ s.devNat (a + off 0x20 + 64 * i + 1) 1 < 4 ∧ g.hseg ≤ 15) &&
      (!g.nesterov || decide (g.opt = 2)) && z 0x20 64 i 3 1 && z 0x20 64 i 0x3C 4)

/-- U02. That COMMIT, SAVE, page frames and learning-rate tables lie in device memory outside the image too is asked here, where
Table UPD-9 names no check for it (DESIGN CHOICE, log 116). -/
def State.unitPlacesOk (s : State) (c : Chart) (u : Upd) : Bool :=
  u.units.zipIdx.all (fun (x, i) =>
    let own := fun (a n : Nat) => decide (stackBase x.stack ≤ a ∧ a + n ≤ stackBase (x.stack + 1))
    let d := (s.devNat (u.recordAt 0 i + 0xC) 4 + 2 ^ 32 - s.devNat (u.recordAt 0 i + 8) 4) % 2 ^ 32
    own x.map (8 * x.mapLen) && own x.pool (4 * x.poolSize) && own x.stage (1024 * x.blocks) && decide (16 ≤ d ∧ d ≤ x.poolSize)) &&
    u.ranges.all (s.freeRange c) && apart (u.units.flatMap (fun x => [(x.map, 8 * x.mapLen), (x.pool, 4 * x.poolSize), (x.stage, 1024 * x.blocks)]))

/-- The map indices that a unit's runs name, and its groups' FROW and FCOL ranges, each group's once, each with the KIND its use
requires (07 R215, R240). -/
def Upd.named (u : Upd) (x : UnitRec) : List (Nat × Nat) :=
  (u.runsOf x).flatMap (fun r => (List.range r.count).map (fun j => (r.first + j, if (u.groups.getD r.group {}).host then 2 else 1))) ++
    ((u.runsOf x).map (·.group)).eraseDups.flatMap (fun i =>
      let g := u.groups.getD i {}
      if g.opt = 4 then
        (List.range (ceilDiv g.rows 1024)).map (fun j => (g.frow + j, 3)) ++ (List.range (ceilDiv g.cols 1024)).map (fun j => (g.fcol + j, 3))
      else [])

/-- U03. -/
def State.mapOk (s : State) (u : Upd) : Bool :=
  u.units.all (fun x =>
    let ns := u.named x
    decide (ns.map (·.1)).Nodup && ns.all (fun n => decide (n.1 < x.mapLen ∧ meKind (s.mapEntry x n.1) = n.2)))

/-- U04. -/
def Upd.factoredOk (u : Upd) : Bool :=
  u.groups.zipIdx.all (fun (g, i) =>
    decide (g.opt ≠ 4) ||
      decide ((u.runs.filter (fun r => decide (r.group = i))).length = 1 ∧ g.cols % 512 = 0 ∧ 0 < g.cols ∧ g.cols ≤ 65536 ∧ ¬ g.host))

/-- U05: room for two slots of each block, at twice its group position (07 R243). No segment is bound when CHART_LOAD applies the
check; the TIER section must have it, and RUN asks for its binding (06 R201; DEDUCED, log 116). -/
def Chart.hostGroupsOk (c : Chart) (u : Upd) : Bool :=
  let hs := (c.tier.getD {}).hsegs
  u.groups.zipIdx.all (fun (g, i) =>
    !g.host ||
      (match hs[g.hseg]? with
       | some h => h.writable && (u.runs.filter (fun r => decide (r.group = i))).all (fun r => decide (8192 * (r.gpos + r.count) ≤ h.bytes))
       | none => false) &&
      u.units.all (fun x => decide (2 ≤ x.frameCnt) || (u.runsOf x).all (fun r => decide (r.group ≠ i))))

/-- U06: from the commit waypoint to the step end the units write weight images and staging areas and read the
learning-rate tables, and the all-gather writes the group's whole weight image (09 R306), as check T07 would have it of streams. -/
def Chart.unitLinesOk (c : Chart) (u : Upd) : Bool :=
  c.commitApart (c.tier.getD {}) u.cwpt
    (u.runs.map (fun r => (r.wimage, 1024 * r.count)) ++ (match c.red with | some r => r.groups.map (fun g => (g.wimage, 32768 * g.buckets)) | none => []) ++
      u.units.map (fun x => (x.stage, 1024 * x.blocks)))
    (u.groups.map (fun g => (g.lrs, if g.lrs = 0 then 0 else 4 * g.lrsLen)))

/-- U07. -/
def State.commitOk (s : State) (c : Chart) (u : Upd) : Bool :=
  decide (u.cwpt + 1 < c.wps) &&
    (decide (s.devNat u.commit 1 = 0) ||
      (decide (s.devNat u.commit 1 ≤ 2) && (List.range u.units.length).all (fun i => decide (s.devNat (u.recordAt 0 i) 8 = s.devNat (u.commit + 8) 8))))

/-- The UPDATE checks. -/
def State.updChecks (s : State) (m : Image) (c : Chart) : Verdict :=
  match c.upd with
  | none => none
  | some u =>
    must (codeU 1) (s.updRecordsOk m c u) <|> must (codeU 2) (s.unitPlacesOk c u) <|> must (codeU 3) (s.mapOk u) <|>
    must (codeU 4) u.factoredOk <|> must (codeU 5) (c.hostGroupsOk u) <|> must (codeU 6) (c.unitLinesOk u) <|>
    must (codeU 7) (s.commitOk c u)

/-! ## MAP -/

/-- M01. -/
def State.torusMatch (s : State) (p : MapSec) : Bool :=
  let ones := decide (p.len = [1, 1, 1, 1])
  p.len.all (fun l => decide (1 ≤ l ∧ l ≤ 32)) && decide (prodN p.len ≤ 65536) && (p.pos.zip p.len).all (fun x => decide (x.1 < x.2)) &&
    decide (s.variant ≠ 2 ∨ (p.len.getD 2 0 = 1 ∧ p.len.getD 3 0 = 1)) &&
    (ones || (s.established && decide (p.len = s.link.len ∧ p.pos = s.link.pos)))

/-- The axis a tap's USE requires (08 Table MAP-3). -/
def useAxis (u : Nat) : Nat := match u with | 1 => 1 | 2 => 2 | _ => 3

/-- M02 (08 R254, R260). -/
def State.tapsOk (s : State) (m : Image) (c : Chart) (p : MapSec) : Bool :=
  let a := m.at' 11
  let off := fun (o : Nat) => s.devNat (a + o) 8
  decide (64 ≤ m.lenOf 11) && s.zero (a + 0x13) 1 && s.zero (a + 0x24) 4 &&
    decide (p.dmode ≤ 2 ∧ p.taps.length ≤ 32 ∧ p.rings.length ≤ 2 ∧ p.disps.length ≤ 1) &&
    tableFits (m.lenOf 11) (off 0x28) 16 p.taps.length && tableFits (m.lenOf 11) (off 0x30) 16 p.rings.length &&
    tableFits (m.lenOf 11) (off 0x38) 16 p.disps.length &&
    p.taps.all (fun t =>
      decide (t.port < 2 * s.variant ∧ 1 ≤ t.use ∧ t.use ≤ 4 ∧ t.side ≤ 3 ∧ t.tile < c.tiles.length ∧ portAxis t.port = useAxis t.use ∧
        tileRegion (c.tileNo t.tile) = mkRegion (t.port / 2) (if t.port % 2 = 0 then 0 else 3) 0)) &&
    (List.range p.taps.length).all (fun i => s.zero (a + off 0x28 + 16 * i + 3) 1) &&
    decide (p.taps.map (fun t => (t.port, tapVc t))).Nodup && decide (p.taps.map (fun t => (t.tile, t.side))).Nodup

/-- M03. -/
def MapSec.scheduleOk (p : MapSec) : Bool :=
  let b := p.len.getD 1 1
  decide (1 ≤ p.micro ∧ p.micro ≤ 4096 ∧ 1 ≤ p.vchunk ∧ p.vchunk ≤ 8 ∧ (b = 1 → p.vchunk = 1) ∧ (1 < p.vchunk → p.micro % b = 0) ∧ b * p.vchunk ≤ p.layers)

/-- M04: the distribution of R272. -/
def MapSec.sharesOk (p : MapSec) : Bool :=
  let b := p.len.getD 1 1
  let d := p.len.getD 3 1
  let here := fun (n : Nat) => shareOf n d (p.pos.getD 3 0)
  decide (p.layersH = sumN ((List.range p.vchunk).map (fun v => shareOf p.layers (b * p.vchunk) (v * b + p.pos.getD 1 0)))) &&
    decide (if p.dmode = 1 then p.headsH = here p.heads else p.heads = 0 ∧ p.headsH = 0) &&
    decide (if p.dmode = 2 then p.expertsH = here p.experts else p.experts = 0 ∧ p.expertsH = 0)

/-- M05 (08 Table MAP-6). Two records with one RING number are refused here, where the table names no check for them (DESIGN
CHOICE, log 117). -/
def State.ringsOk (s : State) (m : Image) (p : MapSec) : Bool :=
  let a := m.at' 11 + s.devNat (m.at' 11 + 0x30) 8
  let tapped := fun (q : Nat) => p.taps.any (fun t => decide (t.port = q ∧ t.use = 2))
  (decide (p.len.getD 2 1 ≠ 1) || p.rings.isEmpty) && decide (p.rings.map (·.ring)).Nodup &&
    p.rings.zipIdx.all (fun (r, i) =>
      decide (r.ring ≤ 1 ∧ r.split ≤ 1 ∧ 1 ≤ r.kvTok ∧ r.kvTok ≤ 32768 ∧ 1 ≤ r.dkvTok ∧ r.dkvTok ≤ 65536 ∧
        portAxis r.send = 2 ∧ r.send % 2 = 0 ∧ portAxis r.recv = 2 ∧ r.recv % 2 = 1) &&
      tapped r.send && tapped r.recv && s.zero (a + 16 * i + 0xC) 4)

/-- M06 (08 Table MAP-8). -/
def State.dispatchOk (s : State) (m : Image) (c : Chart) (p : MapSec) : Bool :=
  let a := m.at' 11 + s.devNat (m.at' 11 + 0x38) 8
  decide (p.disps.length = (if p.dmode = 2 then 1 else 0)) && (decide (p.dmode ≠ 2) || decide (p.len.getD 3 1 ≤ p.experts)) &&
    p.disps.zipIdx.all (fun (d, i) =>
      decide (1 ≤ d.topk ∧ d.topk ≤ 8 ∧ 1 ≤ d.cap ∧ d.cap ≤ 65535 ∧ d.tally < c.tensors.length) &&
      s.zero (a + 16 * i + 1) 1 && s.zero (a + 16 * i + 0xA) 6)

/-- The MAP checks M01 to M06; a chart without a MAP section runs with every length 1 (08 R257). -/
def State.mapChecks (s : State) (m : Image) (c : Chart) : Verdict :=
  match c.map with
  | none => none
  | some p =>
    must (codeM 1) (s.torusMatch p) <|> must (codeM 2) (s.tapsOk m c p) <|> must (codeM 3) p.scheduleOk <|>
    must (codeM 4) p.sharesOk <|> must (codeM 5) (s.ringsOk m p) <|> must (codeM 6) (s.dispatchOk m c p)

/-- M07 for one tile: the counts of its taps. -/
def Chart.tapCountsOk (c : Chart) (i : Nat) : Bool :=
  let m := c.tiles.getD i {}
  let sx := (m.passCounts m.firings).sx
  c.taps.all (fun t => decide (t.tile ≠ i) || decide (t.tokens = sx.getD (5 + t.side) 0 ∧ t.rtokens = sx.getD (1 + t.side) 0))

/-! ## REDUCE -/

/-- The lengths and position a chart is built for. -/
def Chart.axes (c : Chart) : List Nat × List Nat := match c.map with | some p => (p.len, p.pos) | none => ([1, 1, 1, 1], [0, 0, 0, 0])

/-- Members of a group (09 R287). -/
def Chart.members (c : Chart) (g : RGroup) : Nat := prodN (g.axisList.map (fun a => c.axes.1.getD a 1))

/-- G01 (09 Tables REDN-1, REDN-2). -/
def State.redRecordsOk (s : State) (m : Image) (c : Chart) (r : RedSec) : Bool :=
  let a := m.at' 9
  let off := fun (o : Nat) => s.devNat (a + o) 8
  decide (64 ≤ m.lenOf 9 ∧ 1 ≤ r.thin ∧ r.thin ≤ 1024 ∧ r.groups.length = (c.upd.getD {}).groups.length) && s.zero (a + 0x20) 32 &&
    tableFits (m.lenOf 9) (off 8) 64 r.groups.length && tableFits (m.lenOf 9) (off 0x10) 2 r.gtensors.length &&
    r.gtensors.all (fun t => decide (t < c.tensors.length)) &&
    r.groups.zipIdx.all (fun (g, i) =>
      decide (g.ugroup = i ∧ g.axes < 8 ∧ 3 ≤ g.vc ∧ g.vc ≤ 6 ∧ g.dshift ≤ 31 ∧ g.headroom ≤ 16 ∧ g.gstream < (c.tier.getD {}).streams.length) &&
      s.zero (a + off 8 + 64 * i + 0x2E) 18)

/-- G02 (09 Table REDN-3). Without a cut on D every parameter is replicated there (08 R253); which parameters a cut leaves
whole the chart does not say. -/
def Chart.groupAxesOk (c : Chart) (g : RGroup) : Bool :=
  let l := fun (a : Nat) => c.axes.1.getD a 1
  let cut := match c.map with | some p => decide (p.dmode ≠ 0) | none => false
  g.axes.testBit 0 && decide (g.axes.testBit 1 = decide (1 < l 2)) &&
    (if cut then !g.axes.testBit 2 || decide (1 < l 3) else decide (g.axes.testBit 2 = decide (1 < l 3))) &&
    decide (g.vc = 3 + g.axes / 2) && (decide (g.headroom = 0) || decide (clog2 (c.members g) + 1 ≤ g.headroom ∧ g.headroom ≤ 16))

/-- The buckets that the runs of a group cover, in run order; none when a run is not whole buckets. -/
def Upd.bucketsOf (u : Upd) (g : Nat) : Option (List Nat) :=
  let rs := u.runs.filter (fun r => decide (r.group = g))
  if rs.all (fun r => decide (r.gpos % 32 = 0 ∧ r.count % 32 = 0)) then
    some (rs.flatMap (fun r => (List.range (r.count / 32)).map (fun j => r.gpos / 32 + j)))
  else none

/-- G03. -/
def Chart.shardOk (c : Chart) (u : Upd) (i : Nat) (g : RGroup) : Bool :=
  let la := c.axes.1.getD 0 1
  let p := c.axes.2.getD 0 0
  match u.bucketsOf i with
  | none => false
  | some bs =>
    let own := (List.range (shareOf g.buckets la p)).map (fun j => shareStart g.buckets la p + j)
    decide (bs.Nodup ∧ bs.length = own.length) && own.all (fun b => bs.contains b)

/-- G04. -/
def State.redPlacesOk (s : State) (c : Chart) (u : Upd) (r : RedSec) : Bool :=
  let t := c.tier.getD {}
  let others := c.baseRanges ++ [(t.save, 32 * t.streams.length)] ++ c.liveRanges t ++ u.ranges
  r.ranges.all (s.freeRange c) && apart r.ranges && r.ranges.all (fun x => others.all (fun y => !overlaps x.1 x.2 y.1 y.2))

/-- The walk of a stream lies in a range: some chunk of a copy does (G05; DEDUCED, log 118). -/
def TierStream.walksIn (r : TierStream) (a n : Nat) : Bool :=
  decide (r.space = 0) &&
    (List.range r.len).any (fun k => overlaps (r.base + r.chunkOff k) 64 a n || overlaps (r.alt + r.chunkOff k) 64 a n)

/-- G05: an ACCUM stream on a gradient buffer runs in the interval that ends at the commit waypoint alone, and so does
GSTREAM where there is such a stream, so their generations agree at every waypoint. -/
def Chart.accumOk (c : Chart) (u : Upd) (r : RedSec) (g : RGroup) : Bool :=
  let t := c.tier.getD {}
  let n := 65536 * g.buckets
  let once := fun (x : TierStream) => (List.range c.wps).all (fun k => decide (k = u.cwpt ↔ 0 < (c.accessSpan x k).2))
  t.streams.all (fun x => decide (x.kind ≠ 3) || !(x.walksIn g.grad0 n || x.walksIn g.grad1 n) ||
    (decide (x.zevery = r.thin) && once x && once (t.streams.getD g.gstream {})))

/-- The REDUCE checks. -/
def State.redChecks (s : State) (m : Image) (c : Chart) : Verdict :=
  must (codeG 1) (decide (c.red.isSome = c.upd.isSome)) <|>
  match c.red, c.upd with
  | some r, some u =>
    must (codeG 1) (s.redRecordsOk m c r) <|> must (codeG 2) (r.groups.all c.groupAxesOk) <|>
    must (codeG 3) (r.groups.zipIdx.all (fun (g, i) => c.shardOk u i g)) <|> must (codeG 4) (s.redPlacesOk c u r) <|>
    must (codeG 5) (r.groups.all (c.accumOk u r)) <|>
    must (codeG 6) (u.runs.all (fun x => decide (x.wimage = (r.groups.getD x.group {}).wimage + 1024 * x.gpos))) <|>
    must (codeG 7) (decide (s.devNat (u.commit + 0x18) 8 % r.thin = 0))
  | _, _ => none

end Sys2Proof.Machine
end

