-- ==== Sys2Proof/Machine/TileRules.lean ====
section
/-! DEFINITION. The validator rules that look at one tile (04 R142, Table FLOW-10): V01 to V11. -/

namespace Sys2Proof.Machine

/-! ## V01 to V03 -/

/-- The operations of 02 Table TILE-9. -/
def vopKnown (op : Nat) : Bool :=
  decide (op ≤ 5 ∨ (8 ≤ op ∧ op ≤ 0x11) ∨ (0x18 ≤ op ∧ op ≤ 0x1C) ∨ (0x20 ≤ op ∧ op ≤ 0x22) ∨ op = 0x28)

/-- The operation names a format in VC. -/
def Entry.hasVfmt (e : Entry) : Bool := decide ((1 ≤ e.vop ∧ e.vop ≤ 5) ∨ e.vop = 0x28)

/-- V01 for a step entry (02 Tables TILE-16 to TILE-22, R62, R77); V02 names the reserved SEQ 0b10 too. -/
def Entry.codesOk (e : Entry) : Bool :=
  decide (slotBits e.ctrl 12 12 = 0 ∧ e.seq ≠ 2 ∧ e.aop ≤ 5 ∧ e.afmt < 12 ∧ e.asrc ≤ 4 ∧ e.bsrc ≤ 4 ∧ e.ddst ≤ 5 ∧ slotBits e.array 7 0 = 0) &&
    decide (e.gop ≤ 4 ∧ e.gfmt < 12) && vopKnown e.vop && (!e.hasVfmt || decide (e.vfmt < 12)) &&
    (decide (e.vop ≠ 3) || decide (e.vb ≤ 4)) && (decide (e.vop ≠ 4) || (dirCode (e.vb % 8)).isSome) &&
    (List.range 3).all (fun i => decide (e.mop i ≤ 9 ∧ slotBits (e.mem i) 15 14 = 0 ∧ slotBits (e.mem i) 10 0 = 0)) &&
    dirs.all (fun d => decide (e.osel d ≤ 4)) && decide (slotBits e.route 15 0 = 0)

/-- V01 for a steering descriptor (04 Table FLOW-5). -/
def steerCodesOk (d : W64 × W64) : Bool :=
  decide (stMode d ≤ 4 ∧ stDin d ≤ 4 ∧ stIn1 d ≤ 4 ∧ stBsrc d ≤ 4 ∧ stOut0 d ≤ 4 ∧ stOut1 d ≤ 4 ∧
    bitsOf d.1.toNat 41 40 = 0 ∧ bitsOf d.1.toNat 26 0 = 0 ∧ bitsOf d.2.toNat 63 32 = 0) &&
    (decide (stMode d = 0) || decide (stOut0 d ≠ 0))

/-- V01 for one tile. -/
def TileImg.codesOk (m : TileImg) : Bool :=
  m.entries.all (·.codesOk) && m.streams.all (fun d => decide (bitsOf d.toNat 5 0 = 0 ∧ sdWidthCode d ≤ 5)) && m.steer.all steerCodesOk

/-- V03: null entries (02 R40). -/
def TileImg.nullsOk (m : TileImg) : Bool :=
  m.entries.all (fun e => !e.isNull ||
    decide (e.array = 0 ∧ e.gemv = 0 ∧ e.vec = 0 ∧ e.mem0 = 0 ∧ e.mem1 = 0 ∧ e.route = 0 ∧ e.mem2 = 0))

/-! ## V04: results used before their latency -/

/-- Bits of the operand queues and the next scale records that have landed, the block count, and the step of the first landing
in each block of the x register and each output copy of the GEMV unit, once a firing has issued it. -/
structure OpState where
  a   : Nat := 0
  b   : Nat := 0
  sa  : Nat := 0
  sb  : Nat := 0
  blk : Nat := 0
  gemv : List (Dst × Nat) := []
  ok  : Bool := true
  deriving DecidableEq, Repr

/-- The least step at which a destination has a result. -/
def firstLanding (ls : List (Dst × Nat)) (d : Dst) (n : Nat) : List (Dst × Nat) :=
  match ls.find? (fun l => decide (l.1 = d)) with
  | some l => if n < l.2 then (d, n) :: ls.filter (fun l => decide (l.1 ≠ d)) else ls
  | none => (d, n) :: ls

/-- The elements of the x register that a GEMV MAC uses, as the LDX results of 64 that hold them. -/
def Entry.xparts (e : Entry) : List Dst := (List.range (ceilDiv (1024 / elemBits e.gfmt) 64)).map (fun k => Dst.x (64 * (e.xidx / 64 + k)))

/-- What a GEMV operation uses that pipelines bring (02 R60): a MAC its x elements, STORE every accumulator. -/
def Entry.gemvUses (e : Entry) : List Dst :=
  if e.gop = 1 ∨ e.gop = 2 then e.xparts else if e.gop = 3 then (List.range 16).map Dst.y else []

/-- Results of the GEMV unit that a firing at step `n` issues: the first landing of each destination is kept. -/
def OpState.issue (o : OpState) (f : Fire) (n : Nat) : OpState :=
  { o with gemv := f.res.foldl (fun ls r => match r.1 with
      | .x _ => firstLanding ls r.1 (n + r.2.1)
      | .y _ => firstLanding ls r.1 (n + r.2.1)
      | _ => ls) o.gemv }

/-- No use of the GEMV unit at step `n` is of a destination whose only results are still in flight; an older result is used until a
later one lands (02 R34). -/
def OpState.gemvOk (o : OpState) (e : Entry) (n : Nat) : Bool :=
  e.isNull || e.gemvUses.all (fun d => o.gemv.all (fun l => decide (l.1 ≠ d ∨ l.2 ≤ n)))

/-- Every result of a pass with the step from which it is usable: destination, step, bits. -/
def landings (fs : List Fire) : List (Dst × Nat × Nat) :=
  fs.zipIdx.flatMap (fun x => x.1.res.map (fun r => (r.1, x.2 + r.2.1, r.2.2)))

/-- Bits that land in a destination at a step. -/
def landed (ls : List (Dst × Nat × Nat)) (d : Dst) (n : Nat) : Nat :=
  sumN ((ls.filter (fun l => decide (l.1 = d ∧ l.2.1 = n))).map (·.2.2))

/-- What a firing takes of the operand queues and scale records (02 R42, R43); a format that the array does not have
has no slice (V09 refuses it). -/
def OpState.step (m : TileImg) (ls : List (Dst × Nat × Nat)) (o : OpState) (x : Fire × Nat) : OpState :=
  let e := m.entryAt x.1.entry
  let g := fun (d : Dst) => landed ls d x.2
  let o := { o with a := o.a + g .opA, b := o.b + g .opB, sa := o.sa + g .scaleA, sb := o.sb + g .scaleB, ok := o.ok && o.gemvOk e x.2 }
  let o := o.issue x.1 x.2
  if !e.isNull && e.isMac then
    let c := e.afmt
    let valid := decide (c ≤ 10 ∧ (¬ e.mix ∨ (2 ≤ c ∧ c ≤ 5)))
    let na := if valid ∧ e.asrc = 0 then sliceA c else 0
    let nb := if valid ∧ e.bsrc = 0 then sliceB c else 0
    let blk := if e.aop = 2 then 0 else o.blk
    let start := isBlock c && decide (blk % blockFirings c = 0)
    let ra := if start then recA c else 0
    let rb := if start then recB c else 0
    { a := o.a - na, b := o.b - nb, sa := o.sa - ra, sb := o.sb - rb, blk := blk + 1, gemv := o.gemv
      ok := o.ok && decide (na ≤ o.a ∧ nb ≤ o.b ∧ ra ≤ o.sa ∧ rb ≤ o.sb) }
  else o

/-- V04 for one tile: every slice has been read and every scale record is complete when a MAC takes it, and the GEMV unit uses no
result whose latency has not elapsed (02 R60). -/
def TileImg.latencyOk (m : TileImg) (fs : List Fire) : Bool := (fs.zipIdx.foldl (OpState.step m (landings fs)) {}).ok

/-! ## V05: one producer, one result, one access -/

/-- The banks an access takes. -/
def Access.banks (a : Access) (mapping : Nat) : List Nat := if a.all then List.range 16 else (a.words.map (bankOf mapping)).dedup

/-- The bank slots: accesses issued in one firing with the port accesses performed in the next (02 R65, 06 R190). -/
def bankSlots (fs : List Fire) : List (List Access) :=
  (([] : List Access) :: fs.map (·.acc)).zip (fs.map (fun f => f.ports.map (fun p => (⟨true, wordRun p.2 16, false, false⟩ : Access))) ++ [[]])
    |>.map (fun x => x.1 ++ x.2)

/-- V05 for one tile (02 R34, R38), over two passes on end: a result can land in the pass after its own. -/
def TileImg.ownersOk (m : TileImg) (fs : List Fire) : Bool :=
  fs.all (fun f => dirs.all (fun d => decide (f.gives d ≤ 1))) &&
    decide ((landings (fs ++ fs)).map (fun l => (l.1, l.2.1))).Nodup &&
    (bankSlots (fs ++ fs)).all (fun as => decide (as.flatMap (fun a => a.banks m.mapping)).Nodup)

/-! ## V06, V07 -/

/-- V06 for an access (02 R52, R64). -/
def Access.fits (a : Access) (mapping : Nat) : Bool :=
  if a.all then decide (a.words.map (bankOf mapping)).Nodup
  else
    let lo := a.words.headD 0
    let n := a.words.length
    decide (lo % n = 0) && (decide (n ≤ 4) || bitOf mapping (if eastHalf lo then 1 else 0))

/-- V06 for one tile; a memory slot moves at most 512 bits (02 Table TILE-11). -/
def TileImg.widthsOk (m : TileImg) (fs : List Fire) : Bool :=
  m.entries.all (fun e => e.isNull || (List.range 3).all (fun i =>
    decide (e.mop i = 0 ∨ e.mop i = 8) || decide (sdWidth (m.sd (e.str i)) ≤ 16))) &&
    fs.all (fun f => f.acc.all (fun a => a.fits m.mapping))

/-- What V07 and V09 follow of the planes: each plane's format and drain position. -/
structure PlaneState where
  p0 : Plane := {}
  p1 : Plane := {}
  ok : Bool := true
  deriving DecidableEq, Repr

def PlaneState.get (s : PlaneState) (k : Nat) : Plane := if k = 0 then s.p0 else s.p1
def PlaneState.set (s : PlaneState) (k : Nat) (p : Plane) : PlaneState := if k = 0 then { s with p0 := p } else { s with p1 := p }

/-- Words of a drain unit, and the smallest permitted width that holds them (02 R48). -/
def unitWidth (p : Plane) (e : Entry) : Nat :=
  let n := (if e.aop = 4 then 16 else unitElems e.afmt (fmtCols p.fmt)) * elemBits e.afmt
  let w := ceilDiv n 32
  ([1, 2, 4, 8, 16].find? (fun k => decide (w ≤ k))).getD 32

/-- A plane after an array operation, and whether `ok` holds of it. -/
def PlaneState.step (m : TileImg) (ok : Plane → Entry → Bool) (s : PlaneState) (f : Fire) : PlaneState :=
  let e := m.entryAt f.entry
  if e.isNull ∨ e.aop = 0 then s
  else
    let p := s.get e.aplane
    let s := { s with ok := s.ok && ok p e }
    if e.isMac then s.set e.aplane { fmt := e.afmt, drain := (if e.aop = 2 then 0 else p.drain) }
    else if e.aop = 5 then s.set e.aplane { p with drain := 0 }
    else
      let k := p.drain + 1
      s.set e.aplane { p with drain := (if k = drainUnits p e.afmt (decide (e.aop = 4)) then 0 else k) }

/-- A property of every array operation of two passes on end, given the plane it finds: a plane outlives its pass. -/
def TileImg.planes (m : TileImg) (fs : List Fire) (ok : Plane → Entry → Bool) : Bool := ((fs ++ fs).foldl (PlaneState.step m ok) {}).ok

/-- V07 for one tile (02 R50). -/
def TileImg.drainsWhole (m : TileImg) (fs : List Fire) : Bool := m.planes fs (fun p e => e.isDrain || decide (p.drain = 0))

/-! ## V08: the boundary of the grid -/

/-- What lies at a side of a tile: nothing, a bound tap, or a chart tile, with the empty regions crossed on the
way (01 R20; 05 R150; 08 R255). -/
inductive Side where
  | edge
  | tap (k : Nat)
  | tile (j crossed : Nat)
  deriving DecidableEq, Repr

/-- The chart tile index of a presented tile. -/
def Chart.ixOf (c : Chart) (t : Nat) : Option Nat := (c.cregOf (tileRegion t)).map (fun g => 32 * g + t % 32)

/-- The placed tile that a link reaches, through empty regions. -/
def Chart.reaches (c : Chart) (v : Nat) (d : Dir) : Nat → Nat → Nat → Option (Nat × Nat)
  | 0, _, _ => none
  | n + 1, t, k =>
    match neighbour v t d with
    | none => none
    | some u =>
      match c.ixOf u with
      | some j => some (j, k)
      | none => c.reaches v d n (farTile u d) (k + 1)

/-- The tap bound to a side of a tile. -/
def Chart.tapOn (c : Chart) (i : Nat) (d : Dir) : Option Nat := c.taps.findIdx? (fun t => decide (t.tile = i ∧ t.side = dirIx d))

/-- What lies at a side. -/
def Chart.side (c : Chart) (v i : Nat) (d : Dir) : Side :=
  match c.tapOn i d with
  | some k => .tap k
  | none =>
    match c.reaches v d 64 (c.tileNo i) 0 with
    | none => .edge
    | some (j, k) => if (c.tapOn j (dirOpp d)).isSome then .edge else .tile j k

/-- The heads that steering units own (04 R127). -/
def ownedHeads (d : W64 × W64) : List Dir :=
  if stMode d = 0 then [] else (dirCode (stDin d)).toList ++ (dirCode (stIn1 d)).toList ++ (dirCode (stBsrc d)).toList

/-- V08 for one tile: its own port in no OSEL, nothing to or from the boundary. -/
def Chart.boundaryOk (c : Chart) (v i : Nat) : Bool :=
  let m := c.tiles.getD i {}
  let used := (m.entries.filter (fun e => !e.isNull)).flatMap (fun e => e.heads ++ e.fills) ++
    (m.steer.filter (fun d => decide (stMode d ≠ 0))).flatMap (fun d => ownedHeads d ++ (dirCode (stOut0 d)).toList ++ (dirCode (stOut1 d)).toList)
  m.entries.all (fun e => dirs.all (fun d => decide (dirCode (e.osel d) ≠ some d))) && used.all (fun d => decide (c.side v i d ≠ Side.edge))

/-! ## V09: formats and widths -/

/-- Elements of a GEMV chunk, and the width of its scale stream (02 Table TILE-8, 03 Table FMT-3). -/
def chunkElems' (c : Nat) : Nat := if isHalf c then 64 else if c = 8 ∨ c = 9 then 256 else 128
def scaleWidth (c : Nat) : Nat := match c with | 8 => 2 | 9 => 4 | _ => 1

/-- Words that LD and ST move (02 R477). -/
def ldWords (c : Nat) : Nat := if c = 11 then 32 else if isHalf c then 16 else 8

/-- Formats of vector ST, SEND and RECV, and of SENDA (02 Table TILE-18). -/
def vfmtOk (c : Nat) : Bool := decide (c ≤ 3 ∨ c = 10 ∨ c = 11)

/-- V09 for an entry, without what the plane decides; the 16 words that RD_OUT, WR_IN and WIN need are counted to it
(02, after Table TILE-20; log 92). -/
def Entry.formatsOk (m : TileImg) (e : Entry) : Bool :=
  let w := fun (i : Nat) => sdWidth (m.sd i)
  let arr := (!e.isMac || (decide (e.afmt ≤ 10) && (!e.mix || decide (2 ≤ e.afmt ∧ e.afmt ≤ 5)))) &&
    (!(e.isDrain && isBlock e.afmt) || decide (e.aop = 3 ∧ e.ddst = 0 ∧ e.dstr % 2 = 0 ∧ w (e.dstr + 1) = 1))
  let gm := match e.gop with
    | 1 | 2 =>
      decide (e.gfmt ≤ 10 ∧ e.gfmt ≠ 6 ∧ e.gfmt ≠ 7 ∧ e.xidx % chunkElems' e.gfmt = 0 ∧ e.xidx + chunkElems' e.gfmt ≤ 4096 ∧ w e.wstr = 32) &&
        (!isBlock e.gfmt || decide (e.wstr % 2 = 0 ∧ w (e.wstr + 1) = scaleWidth e.gfmt))
    | 3 => decide ((e.gfmt = 0 ∧ w e.xstr = 8) ∨ (e.gfmt = 11 ∧ w e.xstr = 16))
    | 4 => decide (e.xidx % 64 = 0 ∧ w e.xstr = 32)
    | _ => true
  let vec := if e.vop = 5 then decide (e.vfmt ≤ 3)
    else !e.hasVfmt || (vfmtOk e.vfmt && (decide (e.vop ≠ 1 ∧ e.vop ≠ 2) || decide (w e.vstr = ldWords e.vfmt)))
  let mem := (List.range 3).all (fun i => match e.mop i with
    | 5 => decide (w (e.str i) = 1)
    | 6 | 7 | 9 => decide (w (e.str i) = 16)
    | 8 => decide (e.tdst i ≠ 3) || decide (w (e.str2 i) = 16)
    | _ => true)
  e.isNull || (arr && gm && vec && mem)

/-- V09 for one tile, with drain widths (R48) and the banks of scale words (03 R85). -/
def TileImg.formatsOk (m : TileImg) (fs : List Fire) : Bool :=
  m.entries.all (Entry.formatsOk m) &&
    m.planes fs (fun p e => !(e.isDrain && decide (e.ddst = 0)) || decide (sdWidth (m.sd e.dstr) = unitWidth p e)) &&
    fs.all (fun f =>
      let e := m.entryAt f.entry
      !(!e.isNull && e.isDrain && isBlock e.afmt) ||
        (match f.acc with
         | a :: b :: _ => (b.banks m.mapping).all (fun k => !(a.banks m.mapping).contains k)
         | _ => true))

/-! ## V10, V11: steering -/

/-- V10 for a descriptor (04 R126, R129). -/
def steerShapeOk (d : W64 × W64) : Bool :=
  let two := decide (stMode d = 2 ∨ stMode d = 3)
  let out := decide (stMode d = 1 ∨ stMode d = 3)
  (decide (stMode d = 0) || decide (stDin d ≠ 0)) && decide ((stIn1 d ≠ 0) = (two = true)) && decide ((stOut1 d ≠ 0) = (out = true)) &&
    (!out || decide (stOut0 d ≠ stOut1 d))

/-- V10 for one tile. -/
def TileImg.steerOk (m : TileImg) : Bool :=
  m.steer.all steerShapeOk && m.entries.all (fun e => e.isNull || e.units.all (fun u => decide (stMode (m.steerOf u) ≠ 0)))

/-- V11 for one tile (04 R127); a unit that names one head twice is refused too (log 93). -/
def TileImg.headsOk (m : TileImg) : Bool :=
  let owned := m.steer.flatMap ownedHeads
  decide owned.Nodup && m.entries.all (fun e => e.isNull || e.heads.all (fun d => !owned.contains d))

end Sys2Proof.Machine
end

