-- ==== Sys2Proof/Machine/PathMarks.lean ====
section
/-! DEFINITION. Where the data of a path stands inside a tile, firing by firing (04 R122, R143): what the tile's own units put into a
queue carries data of the path or not, and has come through the vector input queue or through token slots of the scratchpad. -/

namespace Sys2Proof.Machine

/-- What a value inside a tile carries of a path: data of its tokens, whether it has come through the vector input queue, and the
token slots of the scratchpad, by their first word, that it has come through. -/
structure Mark where
  data  : Bool := false
  viq   : Bool := false
  slots : List Nat := []
  deriving DecidableEq, Repr

/-- A value made of two. -/
def Mark.join (a b : Mark) : Mark := if b.data then ⟨true, a.viq || b.viq, (a.slots ++ b.slots).dedup⟩ else a

/-- The marks of a tile: operand queues with the bits of each part, planes, the GEMV unit, the vector input queue and registers,
scratchpad words, tokens of transposing reads on their way back, and what the firing at hand puts into queues. -/
structure Marks where
  opA    : List (Nat × Mark) := []
  opB    : List (Nat × Mark) := []
  planes : Tab Mark := []
  y      : Tab Mark := []
  x      : Mark := {}
  viq    : List Mark := []
  vregs  : Tab Mark := []
  words  : Tab Mark := []
  back   : List Mark := []
  out    : List (Dst × Mark) := []
  deriving DecidableEq, Repr

/-- Take bits of an operand queue. -/
def takeBits : List (Nat × Mark) → Nat → Mark × List (Nat × Mark)
  | [], _ => ({}, [])
  | (b, k) :: r, n =>
    if n = 0 then ({}, (b, k) :: r)
    else if n < b then (k, (b - n, k) :: r)
    else
      let (k', r') := takeBits r (n - b)
      (k.join k', r')

def Marks.read (k : Marks) (ws : List Nat) : Mark := ws.foldl (fun (a : Mark) w => a.join (tget {} k.words w)) {}
def Marks.write (k : Marks) (ws : List Nat) (v : Mark) : Marks := { k with words := ws.foldl (fun t w => tset {} t w v) k.words }
def Marks.give (k : Marks) (d : Dst) (v : Mark) : Marks := { k with out := k.out ++ [(d, v)] }
def Marks.giveDir (k : Marks) (d : Option Dir) (v : Mark) : Marks :=
  match d with
  | some d => k.give (.out (dirIx d)) v
  | none => k

/-- The words of a firing's `i`-th access. -/
def Fire.words (f : Fire) (i : Nat) : List Nat := match f.acc[i]? with | some a => a.words | none => []

/-- Accesses that the array, the GEMV unit and the vector unit issue, in this order before those of the memory slots. -/
def Entry.arrayAcc (e : Entry) : Nat := if e.isDrain ∧ e.ddst = 0 then (if isBlock e.afmt then 2 else 1) else 0
def Entry.gemvAcc (e : Entry) : Nat := match e.gop with | 0 => 0 | 3 | 4 => 1 | _ => if isBlock e.gfmt then 2 else 1
def Entry.vecAcc (e : Entry) : Nat := if e.vop = 1 ∨ e.vop = 2 then 1 else 0
/-- The access of memory slot `i`, and with 3 their number. -/
def Entry.slotAcc (e : Entry) (i : Nat) : Nat :=
  e.arrayAcc + e.gemvAcc + e.vecAcc + ((List.range i).filter (fun k => decide (e.mop k ≠ 0))).length

/-- The vector registers that an operation reads (02 Table TILE-9). -/
def Entry.vsources (e : Entry) : List Nat :=
  match e.vop with
  | 0 | 1 | 3 | 0x28 => []
  | 8 | 9 | 0xA | 0xC | 0xD | 0x11 => [e.va, e.vb]
  | 0xB | 0xF => [e.va, e.vb, e.vc]
  | 0xE => [e.vd, e.va]
  | _ => [e.va]

/-- The array: a MAC takes its slices, a drain gives its plane. -/
def Marks.array (k : Marks) (e : Entry) (f : Fire) (hd : Dir → Mark) : Marks :=
  if e.isMac then
    let (a, qa) := match dirCode e.asrc with | some d => (hd d, k.opA) | none => takeBits k.opA (sliceA e.afmt)
    let (b, qb) := match dirCode e.bsrc with | some d => (hd d, k.opB) | none => takeBits k.opB (sliceB e.afmt)
    let old : Mark := if e.aop = 2 then {} else tget {} k.planes e.aplane
    { k with opA := qa, opB := qb, planes := tset {} k.planes e.aplane ((old.join a).join b) }
  else if e.isDrain then
    let v := tget {} k.planes e.aplane
    if e.ddst = 0 then (List.range e.arrayAcc).foldl (fun k i => k.write (f.words i) v) k
    else if e.ddst = 5 then
      let v := { v with viq := v.data }
      ({ k with viq := k.viq ++ [v] } : Marks).give .viq v
    else k.giveDir (dirCode e.ddst) v
  else if e.aop = 5 then { k with planes := tset {} k.planes e.aplane ({} : Mark) }
  else k

/-- The GEMV unit. -/
def Marks.gemv (k : Marks) (e : Entry) (f : Fire) : Marks :=
  let w := f.words e.arrayAcc
  match e.gop with
  | 0 => k
  | 3 => k.write w ((List.range 16).foldl (fun (a : Mark) i => a.join (tget {} k.y i)) {})
  | 4 => { k with x := k.x.join (k.read w) }
  | g => { k with y := tset {} k.y e.yacc (((if g = 2 then ({} : Mark) else tget {} k.y e.yacc).join (k.read w)).join k.x) }

/-- The vector unit. -/
def Marks.vec (k : Marks) (e : Entry) (f : Fire) (hd : Dir → Mark) : Marks :=
  let w := f.words (e.arrayAcc + e.gemvAcc)
  let v : Mark :=
    if e.vop = 1 then k.read w
    else if e.vop = 3 then (match dirCode e.vb with | some d => hd d | none => k.viq.headD {})
    else e.vsources.foldl (fun (a : Mark) r => a.join (tget {} k.vregs r)) {}
  let k := if e.vop = 3 ∧ e.vb = 0 ∧ e.vpop then { k with viq := k.viq.tail } else k
  if e.vop = 2 then k.write w v
  else if e.vop = 4 then k.giveDir (dirCode (e.vb % 8)) v
  else if e.vop = 5 then { k with opA := k.opA ++ [(sendaBits e.vfmt, v)] }
  else if e.setsVd then
    { k with vregs := tset {} k.vregs e.vd (if e.vdHalves.length = 1 then (tget {} k.vregs e.vd).join v else v) }
  else k

/-- A memory slot: RD_A, RD_B, RD_T and RD_OUT read, WR_IN and WIN write a head's token, whose words are then a token slot. -/
def Marks.mem (e : Entry) (f : Fire) (hd : Dir → Mark) (k : Marks) (i : Nat) : Marks :=
  let w := f.words (e.slotAcc i)
  match e.mop i with
  | 1 => { k with opA := k.opA ++ [(32 * w.length, k.read w)] }
  | 2 => { k with opB := k.opB ++ [(32 * w.length, k.read w)] }
  | 6 => k.giveDir (some (e.mport i)) (k.read w)
  | 7 | 9 => let v := hd (e.mport i); k.write w { v with slots := if v.data then [w.headD 0] else [] }
  | 8 =>
    (match e.tdst i with
     | 0 => { k with opA := k.opA ++ [(512, k.read w)] }
     | 1 => { k with opB := k.opB ++ [(512, k.read w)] }
     | 2 => k.giveDir (some (e.mport i)) (k.read w)
     | _ => { k with back := k.back ++ [k.read w] })
  | _ => k

/-- One firing; `hd` has the marks of the tokens at the heads. Writes of transposing reads land after its own accesses. -/
def Marks.step (m : TileImg) (k : Marks) (f : Fire) (hd : Dir → Mark) : Marks :=
  let e := m.entryAt f.entry
  let k := { k with out := [] }
  let late := fun (n : Nat) (k : Marks) => (f.acc.drop n).foldl (fun (k : Marks) a =>
    let k' := k.write a.words (k.back.headD {})
    { k' with back := k'.back.tail }) k
  if e.isNull then late 0 k
  else late (e.slotAcc 3) ((List.range 3).foldl (Marks.mem e f hd) (((k.array e f hd).gemv e f).vec e f hd))

/-- What each firing puts into queues, from the units of the tile. -/
def Marks.run (m : TileImg) (hd : Nat → Dir → Mark) : List (Fire × Nat) → Marks → List (List (Dst × Mark))
  | [], _ => []
  | (f, n) :: r, k =>
    let k' := k.step m f (hd n)
    k'.out :: Marks.run m hd r k'

end Sys2Proof.Machine
end

