-- ==== Sys2Proof/Machine/ChartRules.lean ====
section
/-! DEFINITION. The validator rules that look at the chart as a whole (04 R142-R144): V12 count balance, V13 short
paths, V14 ordered accesses, V15 the abstract execution. -/

namespace Sys2Proof.Machine

/-- The firings of every chart tile. -/
def Chart.allFirings (c : Chart) : List (List Fire) := c.tiles.map (·.firings)

def Chart.img (c : Chart) (i : Nat) : TileImg := c.tiles.getD i {}

/-! ## V12: counts -/

/-- The counts of a tile at each waypoint of a pass. -/
def TileImg.wptCounts (m : TileImg) (fs : List Fire) : List Counts :=
  ((fs.zip (m.countsFrom {} fs)).filter (fun x => m.wptAt x.1)).map (·.2)

/-- Two lists agree as far as both go. -/
def agree (xs ys : List Nat) : Bool := (xs.zip ys).all (fun p => decide (p.1 = p.2))

/-- Bits given to a queue less bits taken by some firings. -/
def TileImg.queued (m : TileImg) (fs : List Fire) (d : Dst) (take : Entry → Nat) : Int :=
  (sumN ((fs.flatMap (·.res)).map (fun r => if r.1 = d then r.2.2 else 0)) : Int) -
    (sumN (fs.map (fun f => let e := m.entryAt f.entry; if e.isNull then 0 else take e)) : Int)

/-- The entries a firing takes from the vector input queue (02 R62). -/
def Entry.viqTaken (e : Entry) : Nat := if e.vop = 3 ∧ e.vb = 0 ∧ e.vpop then 1 else 0

/-- A tile's queues balance: what each neighbour pushes it takes, at every waypoint; the vector input queue gives out what
drains put in; bearing tokens are used up and no LOOP instance is open at the pass end (04 R130). -/
def Chart.balanced (c : Chart) (v i : Nat) : Bool :=
  let m := c.img i
  let fs := m.firings
  let at' := m.wptCounts fs
  dirs.all (fun d =>
    match c.side v i d with
    | .tile j _ =>
      let n := c.img j
      agree (at'.map (fun x => x.sx.getD (1 + dirIx d) 0)) ((n.wptCounts n.firings).map (fun x => x.sx.getD (5 + dirIx (dirOpp d)) 0))
    | _ => true) &&
  decide (m.queued fs .viq Entry.viqTaken = 0) &&
  (List.range 4).all (fun u =>
    let d := m.steerOf u
    at'.all (fun x => decide (stBsrc d = 0) || decide (tget 0 x.bears u % stBpt d = 0)) &&
      (decide (stMode d ≠ 3) ||
        (match (fs.flatMap (fun f => (f.units.filter (fun y => decide (y.1 = u))).map (·.2))).getLast? with
         | some k => decide (k = stTrip d)
         | none => true)))

/-! ## Tokens by firing -/

/-- The firings, in queue order, whose completion puts a token into an output queue (04 R117). -/
def pushSteps (fs : List Fire) (d : Dir) : List Nat :=
  ((fs.zipIdx.flatMap (fun x => (x.1.res.filter (fun r => decide (r.1 = Dst.out (dirIx d)))).map (fun r => x.2 + r.2.1 - 1)))).mergeSort (fun a b => decide (a ≤ b))

/-- The firing that takes each token of an input head. -/
def TileImg.takeSteps (m : TileImg) (fs : List Fire) (d : Dir) : List Nat :=
  let cs := ({} : Counts) :: m.countsFrom {} fs
  (fs.zip cs).zipIdx.flatMap (fun x => List.replicate (m.takes x.1.1 x.1.2.bears d) x.2)

/-! ## V13: reconvergent pairs (R143) -/

/-- Where data stands inside a tile: at a head, in an operand queue, in an accumulator plane, in the vector input queue, in the
vector registers, in the GEMV unit, in the scratchpad, in an output queue. -/
inductive Spot where
  | head (d : Dir)
  | opA | opB
  | plane (k : Nat)
  | viq | vregs | gemv | spad
  | out (d : Dir)
  deriving DecidableEq, Repr

/-- What the units of an entry move, through-routes and steering apart (02 Tables TILE-17 to TILE-21). -/
def Entry.moves (e : Entry) : List (Spot × Spot) :=
  let src := fun (c : Nat) (q : Spot) => if c = 0 then [q] else (dirCode c).toList.map Spot.head
  (if e.isMac then (src e.asrc .opA ++ src e.bsrc .opB).map (fun a => (a, Spot.plane e.aplane)) else []) ++
    (if e.isDrain then
      ((if e.ddst = 0 then [Spot.spad] else if e.ddst = 5 then [Spot.viq] else (dirCode e.ddst).toList.map Spot.out).map
        (fun b => (Spot.plane e.aplane, b))) else []) ++
    (match e.gop with
     | 0 => []
     | 3 => [(.gemv, .spad)]
     | _ => [(.spad, .gemv)]) ++
    (match e.vop with
     | 1 => [(.spad, .vregs)]
     | 2 => [(.vregs, .spad)]
     | 3 => (src e.vb .viq).map (fun a => (a, Spot.vregs))
     | 4 => (dirCode (e.vb % 8)).toList.map (fun d => (Spot.vregs, Spot.out d))
     | 5 => [(.vregs, .opA)]
     | _ => []) ++
    (List.range 3).flatMap (fun i => match e.mop i with
      | 1 => [(Spot.spad, Spot.opA)]
      | 2 => [(.spad, .opB)]
      | 6 => [(.spad, .out (e.mport i))]
      | 7 | 9 => [(.head (e.mport i), .spad)]
      | 8 => (match e.tdst i with
        | 0 => [(.spad, .opA)]
        | 1 => [(.spad, .opB)]
        | 2 => [(.spad, .out (e.mport i))]
        | _ => [])
      | _ => [])

/-- The spots that data reaches by some moves; no more rounds than there are spots. -/
def spotsFrom (ms : List (Spot × Spot)) : Nat → List Spot → List Spot
  | 0, s => s
  | n + 1, s => spotsFrom ms n (s ++ (ms.filter (fun a => s.contains a.1 && !s.contains a.2)).map (·.2)).dedup

/-- The moves of a tile's entries. -/
def TileImg.moves (m : TileImg) : List (Spot × Spot) := ((m.entries.filter (fun e => !e.isNull)).flatMap Entry.moves).dedup

/-- The tile's own units take data from a head to a spot. -/
def TileImg.unitsCarry (m : TileImg) (x : Dir) (b : Spot) : Bool := (spotsFrom m.moves 16 [.head x]).contains b

/-- A step of a path: it enters a tile at a head and leaves by an output queue, or ends in the tile's vector input queue. -/
structure Hop where
  tile : Nat
  inp  : Dir
  out  : Option Dir
  deriving DecidableEq, Repr

/-- The spot where a hop leaves its tile's units. -/
def Hop.spot (h : Hop) : Spot :=
  match h.out with
  | some y => .out y
  | none => .viq

/-- Heads that an entry consumes in its tile. -/
def Entry.localHeads (e : Entry) : List Dir :=
  (if e.isMac then (dirCode e.asrc).toList ++ (dirCode e.bsrc).toList else []) ++ (if e.vop = 3 then (dirCode e.vb).toList else []) ++
    (List.range 3).flatMap (fun i => if e.mop i = 7 ∨ e.mop i = 9 then [e.mport i] else [])

/-- A steering unit takes tokens of a head to an output queue. -/
def steersTo (d : W64 × W64) (x y : Dir) : Bool :=
  (ownedHeads d).contains x && ((dirCode (stOut0 d)).toList ++ (dirCode (stOut1 d)).toList).contains y

/-- A tile carries tokens from a head to an output queue: by a route, a steering unit, or its own units. -/
def TileImg.carries (m : TileImg) (x y : Dir) : Bool :=
  m.entries.any (fun e => !e.isNull && decide (dirCode (e.osel y) = some x)) || m.steer.any (fun d => steersTo d x y) ||
    m.unitsCarry x (.out y)

/-- An entry names a head in two or more fields. -/
def Entry.forks (e : Entry) (x : Dir) : Bool :=
  decide (2 ≤ (e.localHeads.filter (fun d => decide (d = x))).length + (dirs.filter (fun y => decide (dirCode (e.osel y) = some x))).length)

/-- The heads whose tokens a steering firing takes: a LOOP takes those of its first firing, or those of a later one (04
Table FLOW-6). -/
def steerTakes (d : W64 × W64) : List (List Dir) :=
  let din := (dirCode (stDin d)).toList
  let in1 := (dirCode (stIn1 d)).toList
  let bear := (dirCode (stBsrc d)).toList
  match stMode d with
  | 0 => []
  | 2 => [din ++ in1 ++ bear]
  | 3 => [din, in1 ++ bear]
  | _ => [din ++ bear]

/-- The sets of heads that one firing of an entry can take tokens from: those it pops, with those of its units. -/
def Entry.takeSets (m : TileImg) (e : Entry) : List (List Dir) :=
  (e.units.map (fun u => steerTakes (m.steerOf u))).foldl (fun sets alts => sets.flatMap (fun a => alts.map (a ++ ·))) [e.pops]

/-- A tile joins two queues, heads or its vector input queue (none): one firing takes a token from each. -/
def TileImg.joins (m : TileImg) (x y : Option Dir) : Bool :=
  m.entries.any (fun e => !e.isNull && (e.takeSets m).any (fun s => [x, y].all (fun q => match q with
    | some d => s.contains d
    | none => decide (e.viqTaken = 1))))

/-- A path, and the tile and the queue where it stands: a head, or the vector input queue. -/
abbrev Path := List Hop × Nat × Option Dir

/-- The simple paths from a head on: none comes twice to one head, but a path may pass a tile out and back. -/
def Chart.pathsFrom (c : Chart) (v : Nat) : Nat → List Hop × Nat × Dir → List Path
  | 0, (hs, i, x) => [(hs, i, some x)]
  | n + 1, (hs, i, x) =>
    (hs, i, some x) ::
      (if hs.any (fun h => decide (h.tile = i ∧ h.inp = x)) then []
       else
         (if (c.img i).unitsCarry x .viq then [(hs ++ [⟨i, x, none⟩], i, none)] else []) ++
           dirs.flatMap (fun y =>
             if ¬ (c.img i).carries x y then []
             else
               match c.side v i y with
               | .tile j _ => c.pathsFrom v n (hs ++ [⟨i, x, some y⟩], j, dirOpp y)
               | _ => []))

/-- What puts tokens where a hop leaves its tile: the firing whose completion does it and the firing that issues it, in queue
order (04 R117). -/
def hopPushes (fs : List Fire) (h : Hop) : List (Nat × Nat) :=
  let d := match h.out with | some y => Dst.out (dirIx y) | none => Dst.viq
  (fs.zipIdx.flatMap (fun x => (x.1.res.filter (fun r => decide (r.1 = d))).map (fun r => (x.2 + r.2.1 - 1, x.2)))).mergeSort
    (fun a b => decide (a.1 ≤ b.1))

/-- The tokens of a head that had been taken when firing `n` began: the place of the token at the head. -/
def headPlace (takes : List Nat) (n : Nat) : Nat := (takes.filter (fun k => decide (k < n))).length

/-- What the tile's units put where hops leave, firing by firing, with the marks of the tokens of head `x` at the places `mine`. -/
def TileImg.unitMarks (m : TileImg) (fs : List Fire) (takes mine : List Nat) (x : Dir) : List (List (Dst × Mark)) :=
  Marks.run m (fun n d => if d = x ∧ mine.contains (headPlace takes n) then { data := true } else {}) fs.zipIdx {}

/-- A steering firing gives what it has of a head: the token taken in it or, of the tokens before it, the last; a LOOP gives that of its
data head in its first firing and that of the others after it (04 R130). -/
def steerGives (d : W64 × W64) (firing : Nat) (x y : Dir) : Bool :=
  (steerFills d firing).contains y && steersTo d x y &&
    (decide (stMode d ≠ 3) || (decide (firing = 0) == decide (dirCode (stDin d) = some x)))

/-- The mark with which a firing puts a token of the path where a hop leaves, if it does: by a route of a token of the path (`mine` holds
their places), by the tile's units (`marks`), or by a steering unit that has one. -/
def TileImg.hopServes (m : TileImg) (fs : List Fire) (takes mine : List Nat) (marks : List (List (Dst × Mark))) (h : Hop) (n : Nat) :
    Option Mark :=
  let f := fs.getD n ⟨0, false, [], [], [], [], [], []⟩
  let e := m.entryAt f.entry
  let unit := fun (d : Dst) => ((marks.getD n []).find? (fun p => decide (p.1 = d) && p.2.data)).map (·.2)
  let when' := fun (b : Bool) => if b then some ({ data := true } : Mark) else none
  match h.out with
  | none => unit .viq
  | some y =>
    if e.osel y ≠ 0 then when' (decide (dirCode (e.osel y) = some h.inp) && mine.contains (headPlace takes n))
    else if e.fills.contains y then unit (.out (dirIx y))
    else
      let k := headPlace takes (n + 1)
      when' (f.units.any (fun u => steerGives (m.steerOf u.1) u.2 h.inp y) && decide (0 < k) && mine.contains (k - 1))

/-- A token of a path where it stands: its place in the queue, and how many tokens must have entered the path from the fork
before it can be there. -/
structure PathTok where
  place : Nat
  need  : Nat
  deriving DecidableEq, Repr

/-- A hop: the tokens of the path at its head, each with the firing that takes it, become those it puts where it leaves, each with its
mark. A token needs what the tokens need that the tile has taken up to the firing that completes it. -/
def Chart.hopTokens (c : Chart) (h : Hop) (ts : List (PathTok × Nat)) : List (PathTok × Mark) :=
  let m := c.img h.tile
  let fs := m.firings
  let takes := m.takeSteps fs h.inp
  let mine := ts.map (·.1.place)
  let marks := m.unitMarks fs takes mine h.inp
  (hopPushes fs h).zipIdx.filterMap (fun p =>
    (m.hopServes fs takes mine marks h p.1.2).map (fun k =>
      (⟨p.2, maxN ((ts.filter (fun t => decide (t.2 ≤ p.1.1))).map (·.1.need))⟩, k)))

/-- An entry sends tokens of a fork's head into a path: by a route toward its first output, else into its tile's units. -/
def Entry.feeds (e : Entry) (m : TileImg) (h : Hop) : Bool :=
  let routed := fun (e : Entry) => match h.out with | some y => decide (dirCode (e.osel y) = some h.inp) | none => false
  !e.isNull && (if m.entries.any (fun e => !e.isNull && routed e) then routed e else e.localHeads.contains h.inp)

/-- The tokens that a fork sends into a path, each with the firing that first does so. -/
def Chart.forkTokens (c : Chart) (h : Hop) : List (PathTok × Nat) :=
  let m := c.img h.tile
  let fs := m.firings
  let takes := m.takeSteps fs h.inp
  let sent := ((fs.zipIdx.filter (fun f => (m.entryAt f.1.entry).feeds m h)).map (fun f => (headPlace takes f.2, f.2)))
  let first := sent.foldl (fun l a => if l.any (fun b => decide (b.1 = a.1)) then l else l ++ [a]) ([] : List (Nat × Nat))
  first.zipIdx.map (fun a => (⟨a.1.1, a.2 + 1⟩, a.1.2))

/-- The lag of a path: the maximum over the tokens it delivers. -/
def pathLag (ts : List PathTok) : Int :=
  match ts.zipIdx.map (fun t => (t.1.need : Int) - (t.2 + 1)) with
  | [] => 0
  | x :: xs => xs.foldl max x

/-- The slots of the queues a head feeds in a tile's steering units (04 Table FLOW-3). -/
def TileImg.steerSlots (m : TileImg) (x : Dir) : Nat :=
  sumN (m.steer.map (fun d =>
    if stMode d = 0 then 0 else (if dirCode (stDin d) = some x then 4 else 0) + (if dirCode (stBsrc d) = some x then 16 / stBpt d else 0)))

/-- The slots that a hop adds to the capacity of a path (R122): the vector input queue where the path's data comes through it, the token
slots of the scratchpad that explicit transfers take it through, and the queues from one tile to the next. -/
def Chart.hopSlots (c : Chart) (v : Nat) (h : Hop) (ks : List Mark) : Nat :=
  (if h.out = none ∨ ks.any (·.viq) then 4 else 0) + (ks.flatMap (·.slots)).dedup.length +
    (match h.out with
     | some y =>
       (match c.side v h.tile y with
        | .tile j k => 32 + 16 * k + (c.img j).steerSlots (dirOpp y)
        | _ => 0)
     | none => 0)

/-- The tokens of a path at its end, in order (R143), and its capacity: `need` of the n-th is need(p, n). Tokens of others that share a
link with the path are not among them. -/
def Chart.pathTokens (c : Chart) (v : Nat) : List (PathTok × Nat) → List Hop → List PathTok × Nat
  | ts, [] => (ts.map (·.1), 0)
  | ts, h :: hs =>
    let out := c.hopTokens h ts
    let n := c.hopSlots v h (out.map (·.2))
    match hs with
    | [] => (out.map (·.1), n)
    | g :: _ =>
      let takes := (c.img g.tile).takeSteps (c.img g.tile).firings g.inp
      let r := c.pathTokens v (out.map (fun t => (t.1, takes.getD t.1.place passFuel))) hs
      (r.1, n + r.2)

/-- The tokens a path from a fork delivers, and its capacity. -/
def Chart.delivered (c : Chart) (v : Nat) (hs : List Hop) : List PathTok × Nat :=
  match hs with
  | [] => ([], 0)
  | h :: _ => c.pathTokens v (c.forkTokens h) hs

/-- V13 for the forks of one tile; pairs whose paths carry different numbers of tokens are left to V15 (R143). -/
def Chart.shortPathsOk (c : Chart) (v i : Nat) : Bool :=
  dirs.all (fun x =>
    !((c.img i).entries.any (fun e => !e.isNull && e.forks x)) ||
      (let ps := ((c.pathsFrom v (4 * c.tiles.length) ([], i, x)).filter (fun p => !p.1.isEmpty)).map (fun p => (p, c.delivered v p.1))
       ps.all (fun p => ps.all (fun q =>
         let (hp, jp, xp) := p.1
         let (hq, jq, xq) := q.1
         let pair := decide (jp = jq ∧ xp ≠ xq ∧ (hp.head?).map (·.out) ≠ (hq.head?).map (·.out)) && (c.img jp).joins xp xq
         let (tp, cap) := p.2
         let tq := q.2.1
         !pair || tp.isEmpty || decide (tp.length ≠ tq.length) || decide (pathLag tq - pathLag tp + 1 ≤ (cap : Int))))))

/-! ## V14: ordered accesses (R136) -/

/-- The firings known to follow a given one: the least step of each tile it reaches. -/
abbrev Reach := Tab (Option Nat)

def Reach.le (r : Reach) (i n : Nat) : Reach :=
  match tget none r i with
  | some k => if n < k then tset none r i (some n) else r
  | none => tset none r i (some n)

/-- One round over every link: a token pushed from the reached step on reaches the firing that takes it. -/
def Chart.reachRound (c : Chart) (v : Nat) (r : Reach) : Reach :=
  (List.range c.tiles.length).foldl (fun r i =>
    dirs.foldl (fun r d =>
      match tget none r i, c.side v i d with
      | some k, .tile j _ =>
        let ps := pushSteps (c.img i).firings d
        let first := (ps.filter (fun p => decide (p < k))).length
        (match ((c.img j).takeSteps (c.img j).firings (dirOpp d))[first]? with
         | some n => if first < ps.length then r.le j n else r
         | none => r)
      | _, _ => r) r) r

def Chart.reachFix (c : Chart) (v : Nat) : Nat → Reach → Reach
  | 0, r => r
  | n + 1, r => let r' := c.reachRound v r; if r' = r then r else c.reachFix v n r'

/-- The firing at step `n` of tile `i` comes before that at step `k` of tile `j`. -/
def Chart.happens (c : Chart) (v i n j k : Nat) : Bool :=
  if i = j then decide (n < k)
  else
    match tget none (c.reachFix v (sumN (c.tiles.map (fun m => m.firings.length + 1))) [(i, some n)]) j with
    | some x => decide (x ≤ k)
    | none => false

/-- A port access that reaches memory: tile, window, step, interval, space, byte address or offset, write. -/
structure Touch where
  tile  : Nat
  win   : Nat
  step  : Nat
  ival  : Nat
  space : Nat × Nat × Nat
  addr  : Nat
  wr    : Bool
  deriving DecidableEq, Repr

/-- The accesses of a stream in pass `p`. -/
def Chart.touches (c : Chart) (r : TierStream) (p : Nat) : List Touch :=
  let space := match r.space with | 0 => (0, 0, 0) | 1 => (1, r.tile / 32, r.seg) | _ => (2, r.seg, 0)
  r.memberIxs.flatMap (fun i =>
    ((c.img i).portSteps r.window).zipIdx.flatMap (fun (x, n) =>
      let o := r.chunkOff (n % r.len)
      let t := fun (a : Nat) (wr : Bool) => (⟨i, r.window, x.1, x.2, space, a + o, wr⟩ : Touch)
      let g := c.genAt r p x.2
      match r.kind with
      | 1 => [t r.base false]
      | 2 => [t r.base true]
      | _ => [t (if g % 2 = 0 then r.base else r.alt) false, t (if g % 2 = 0 then r.alt else r.base) true]))

/-- What a stream touches in pass `p`; the old values of an accumulation that starts at zero are not
read (06 R199). -/
def Chart.madeTouches (c : Chart) (r : TierStream) (p : Nat) : List Touch :=
  (c.touches r p).filter (fun x => x.wr || !decide (r.kind = 3 ∧ r.zevery ≠ 0 ∧ c.genAt r p x.ival % r.zevery = 0))

/-- V14 for one tile: each of its accesses is ordered against every conflicting one of its interval (those of one
window by the window; those that two windows of a tile make in one firing by nothing), and a read of a lent segment
follows a write of its chunk. -/
def Chart.orderedOk (c : Chart) (v i : Nat) : Bool :=
  [0, 1].all (fun p =>
    let ts := (c.tier.getD {}).streams.flatMap (fun r => c.madeTouches r p)
    (ts.filter (fun x => decide (x.tile = i))).all (fun x =>
      ts.all (fun y =>
        decide (x.ival ≠ y.ival ∨ x.space ≠ y.space ∨ (¬ x.wr ∧ ¬ y.wr) ∨ (x.tile = y.tile ∧ x.win = y.win)) || !overlaps x.addr 64 y.addr 64 ||
          c.happens v x.tile x.step y.tile y.step || c.happens v y.tile y.step x.tile x.step) &&
      (decide (x.space.1 ≠ 1) || x.wr ||
        ts.any (fun y => y.wr && decide (y.space = x.space ∧ y.ival = x.ival ∧ y.addr = x.addr) && c.happens v y.tile y.step x.tile x.step))))

/-! ## T08 -/

/-- T08 (06 Table TIER-7): a chunk of a lent segment that is read in an interval has a write in it that the order of firings
does not put after the read; rule V14 then asks that the order puts it before. The passes tried show every role of an ACCUM
stream's copies. -/
def Chart.lentOk (c : Chart) (v : Nat) (t : Tier) : Bool :=
  let ls := t.streams.filter (fun r => decide (r.space = 1))
  (List.range (if ls.isEmpty then 0 else ls.foldl (fun n r => n * max 1 r.zevery) 2)).all (fun p =>
    let ts := ls.flatMap (fun r => c.madeTouches r p)
    ts.all (fun x => x.wr ||
      ts.any (fun y => y.wr && decide (y.space = x.space ∧ y.ival = x.ival ∧ y.addr = x.addr) &&
        !decide (x.tile = y.tile ∧ x.step ≤ y.step) && !c.happens v x.tile x.step y.tile y.step)))

/-! ## V15: the abstract execution (R144) -/

/-- A tile in the abstract execution: firings done, the length of the longest chain to its last one, holding at a
waypoint; the queues of its ports, of the crossings beyond them and of its steering units, each token or bearing as the
length of its chain; results in flight, bits in the operand queues, entries in the vector queue. -/
structure ATile where
  pos    : Nat := 0
  depth  : Nat := 0
  hold   : Bool := false
  inq    : Tab (List Nat) := []
  outq   : Tab (List Nat) := []
  mid    : Tab (List Nat) := []
  data   : Tab (List Nat) := []
  bear   : Tab (List Nat) := []
  flight : List (Dst × Nat × Nat) := []
  a      : Nat := 0
  b      : Nat := 0
  viq    : Nat := 0
  deriving DecidableEq, Repr

abbrev AState := Tab ATile

def AState.tile (s : AState) (i : Nat) : ATile := tget {} s i
def AState.put (s : AState) (i : Nat) (x : ATile) : AState := tset {} s i x

/-- The head of a queue. -/
def ATile.has (x : ATile) (d : Dir) : Bool := !(tget [] x.inq (dirIx d)).isEmpty

/-- Room in an output queue, the slots of results in flight taken. -/
def ATile.room (x : ATile) (d : Dir) : Bool :=
  decide ((tget [] x.outq (dirIx d)).length + (x.flight.filter (fun r => decide (r.1 = Dst.out (dirIx d)))).length < 16)

/-- Bits a queue holds and will hold. -/
def ATile.coming (x : ATile) (d : Dst) : Nat := sumN ((x.flight.filter (fun r => decide (r.1 = d))).map (·.2.2))

/-- Bits a firing appends. -/
def Fire.bits (f : Fire) (d : Dst) : Nat := sumN ((f.res.filter (fun r => decide (r.1 = d))).map (·.2.2))

/-- The outputs a firing fills. -/
def Fire.outs (f : Fire) : List Dir := dirs.filter (fun d => decide (0 < f.gives d))

/-- A steering unit has the tokens and bearings of its firing (04 Table FLOW-6). -/
def ATile.unitReady (x : ATile) (m : TileImg) (u : Nat × Nat) : Bool :=
  let d := m.steerOf u.1
  let first := decide (stMode d ≠ 3 ∨ u.2 = 0)
  (!first || !(tget [] x.data u.1).isEmpty) &&
    (!decide (stMode d = 2 ∨ (stMode d = 3 ∧ u.2 ≠ 0)) || ((dirCode (stIn1 d)).toList.all x.has)) &&
    (decide (stMode d = 3 ∧ u.2 = 0) || decide (stBsrc d = 0) || !(tget [] x.bear u.1).isEmpty)

/-- Every condition of a firing holds (02 Table TILE-2). -/
def ATile.enabled (x : ATile) (m : TileImg) (f : Fire) : Bool :=
  let e := m.entryAt f.entry
  e.isNull ||
    (f.units.all (x.unitReady m) && e.heads.all x.has && f.outs.all x.room &&
      (decide (f.bits .opA = 0) || decide (x.a + x.coming .opA + f.bits .opA ≤ 2048)) &&
      (decide (f.bits .opB = 0) || decide (x.b + x.coming .opB + f.bits .opB ≤ 4096)) &&
      (!decide (e.vop = 3 ∧ e.vb = 0) || decide (0 < x.viq)) && (!decide (e.isDrain ∧ e.ddst = 5) || decide (x.viq < 4)))

/-- The stamps of the tokens a firing takes (a head that it leaves in place links nothing), and the tile without
them. -/
def ATile.take (x : ATile) (m : TileImg) (f : Fire) : List Nat × ATile :=
  let in1 := f.units.flatMap (fun u =>
    let d := m.steerOf u.1
    if stMode d = 2 ∨ (stMode d = 3 ∧ u.2 ≠ 0) then (dirCode (stIn1 d)).toList else [])
  let seen := f.pops ++ in1
  let ds := f.units.filter (fun u => decide (stMode (m.steerOf u.1) ≠ 3 ∨ u.2 = 0))
  let bs := (m.bearUnits f).filter (fun u => decide (stBsrc (m.steerOf u) ≠ 0))
  let stamps := seen.map (fun d => (tget [] x.inq (dirIx d)).headD 0) ++ ds.map (fun u => (tget [] x.data u.1).headD 0) ++
    bs.map (fun u => (tget [] x.bear u).headD 0)
  let x := { x with
    inq := (f.pops ++ in1).foldl (fun t d => tmod [] t (dirIx d) List.tail) x.inq
    data := ds.foldl (fun t u => tmod [] t u.1 List.tail) x.data
    bear := bs.foldl (fun t u => tmod [] t u List.tail) x.bear
    viq := (if m.popsViq f then x.viq - 1 else x.viq) }
  (stamps, x)

/-- A result arrives. -/
def ATile.land (x : ATile) (r : Dst × Nat × Nat) : ATile :=
  match r.1 with
  | .opA => { x with a := x.a + r.2.2 }
  | .opB => { x with b := x.b + r.2.2 }
  | .viq => { x with viq := x.viq + 1 }
  | .out d => { x with outq := tmod [] x.outq d (fun q => q ++ [x.depth]) }
  | _ => x

/-- A firing. -/
def ATile.fire (x : ATile) (m : TileImg) (f : Fire) : ATile :=
  let e := m.entryAt f.entry
  let (stamps, x) := x.take m f
  let mac := !e.isNull && e.isMac
  let x := { x with
    depth := maxN (x.depth :: stamps) + 1
    a := (if mac && decide (e.asrc = 0) then x.a - sliceA e.afmt else x.a)
    b := (if mac && decide (e.bsrc = 0) then x.b - sliceB e.afmt else x.b) }
  let fl := (x.flight ++ f.res).map (fun r => (r.1, r.2.1 - 1, r.2.2))
  let x := { x with flight := fl.filter (fun r => decide (r.2.1 ≠ 0)), pos := x.pos + 1, hold := m.wptAt f }
  (fl.filter (fun r => decide (r.2.1 = 0))).foldl ATile.land x

/-- The steering queues of a tile take what is at their heads (04 R127). -/
def ATile.intake (x : ATile) (m : TileImg) : ATile :=
  (List.range 4).foldl (fun (x : ATile) u =>
    let d := m.steerOf u
    if stMode d = 0 then x
    else
      let x := match dirCode (stDin d) with
        | some s =>
          (match tget [] x.inq (dirIx s) with
           | k :: r => if (tget [] x.data u).length < 4 then { x with inq := tset [] x.inq (dirIx s) r, data := tmod [] x.data u (fun q => q ++ [k]) } else x
           | [] => x)
        | none => x
      match dirCode (stBsrc d) with
      | some s =>
        (match tget [] x.inq (dirIx s) with
         | k :: r =>
           if (tget [] x.bear u).length + stBpt d ≤ 16 then
             { x with inq := tset [] x.inq (dirIx s) r, bear := tmod [] x.bear u (fun q => q ++ List.replicate (stBpt d) k) }
           else x
         | [] => x)
      | none => x) x

/-- A token leaves an output queue for what lies beyond it: the crossings of empty regions hold 16 each, a tap takes
TOKENS per pass (08 R261). -/
def AState.leave (s : AState) (c : Chart) (v i : Nat) (d : Dir) : AState :=
  let x := s.tile i
  let room := match c.side v i d with
    | .tile _ k => 16 * k
    | .tap k => match c.taps[k]? with | some t => t.tokens | none => 0
    | .edge => 0
  match tget [] x.outq (dirIx d) with
  | [] => s
  | k :: r =>
    let x' := { x with outq := tset [] x.outq (dirIx d) r }
    if (tget [] x.mid (dirIx d)).length < room then s.put i { x' with mid := tmod [] x.mid (dirIx d) (fun q => q ++ [k]) }
    else
      match c.side v i d with
      | .tile j 0 =>
        let y := s.tile j
        let q := tget [] y.inq (dirIx (dirOpp d))
        if q.length < 16 then (s.put i x').put j { (if i = j then x' else y) with inq := tset [] y.inq (dirIx (dirOpp d)) (q ++ [k]) } else s
      | _ => s

/-- A token leaves the crossings for the tile beyond. -/
def AState.arrive (s : AState) (c : Chart) (v i : Nat) (d : Dir) : AState :=
  let x := s.tile i
  match c.side v i d, tget [] x.mid (dirIx d) with
  | .tile j _, k :: r =>
    let y := s.tile j
    let q := tget [] y.inq (dirIx (dirOpp d))
    if q.length < 16 then (s.put i { x with mid := tset [] x.mid (dirIx d) r }).put j { y with inq := tset [] y.inq (dirIx (dirOpp d)) (q ++ [k]) } else s
  | _, _ => s

/-- A tile fires its next firing if it is enabled. -/
def AState.attempt (s : AState) (c : Chart) (fires : List (List Fire)) (i : Nat) : AState :=
  let m := c.img i
  let x := (s.tile i).intake m
  match (fires.getD i [])[x.pos]? with
  | some f => if ¬ x.hold ∧ x.enabled m f then s.put i (x.fire m f) else s.put i x
  | none => s.put i x

/-- Every placed tile holds or is done: the waypoint is released. -/
def AState.release (s : AState) (fires : List (List Fire)) : AState :=
  let n := fires.length
  if (List.range n).all (fun i => (s.tile i).hold || decide ((fires.getD i []).length ≤ (s.tile i).pos)) then
    (List.range n).foldl (fun (s : AState) i => s.put i { s.tile i with hold := false }) s
  else s

/-- One round over the chart. -/
def AState.round (s : AState) (c : Chart) (v : Nat) (fires : List (List Fire)) : AState :=
  let is := List.range fires.length
  let s := is.foldl (fun (s : AState) i => dirs.foldl (fun (s : AState) d => (s.leave c v i d).arrive c v i d) s) s
  (is.foldl (fun (s : AState) i => s.attempt c fires i) s).release fires

/-- Rounds until nothing changes. -/
def AState.run (c : Chart) (v : Nat) (fires : List (List Fire)) : Nat → AState → AState
  | 0, s => s
  | n + 1, s => let s' := s.round c v fires; if s' = s then s else AState.run c v fires n s'

/-- The start of a pass: queues empty; a bound tap has its RTOKENS to give. -/
def Chart.aStart (c : Chart) : AState :=
  c.taps.foldl (fun (s : AState) t => s.put t.tile { s.tile t.tile with inq := tset [] (s.tile t.tile).inq t.side (List.replicate t.rtokens 0) }) []

/-- The end of the abstract execution. -/
def Chart.execution (c : Chart) (v : Nat) : AState := AState.run c v c.allFirings passFuel c.aStart

/-- V15 for one tile: it has reached the end of its sequence. -/
def Chart.ends (c : Chart) (fin : AState) (i : Nat) : Bool := decide ((c.img i).firings.length ≤ (fin.tile i).pos)

end Sys2Proof.Machine
end

