-- ==== Sys2Proof/Machine/ChartChecks.lean ====
section
/-! DEFINITION. The checks that need the abstract execution (05 I05, I09, I10; R154, R168-R170), and the checks of
CHART_LOAD in the order of 11 R479. -/

namespace Sys2Proof.Machine

/-- I05: WPT entries completed in a pass. -/
def Chart.wptsOk (c : Chart) (i : Nat) : Bool := decide (((c.img i).firings.filter (c.img i).wptAt).length = c.wps)

/-! ## I09: the report -/

/-- Firings of null entries. -/
def TileImg.nullFirings (m : TileImg) (fs : List Fire) : Nat := (fs.filter (fun f => (m.entryAt f.entry).isNull)).length

/-- Numbers agree as the U32 fields of the report hold them. -/
def agree32 (xs ys : List Nat) : Bool := decide (xs.map (· % 2 ^ 32) = ys.map (· % 2 ^ 32))

/-- A tile report record. STAGE is the pipeline stage of the module, its position on axis B (08 R267; DEDUCED, log 97). -/
def Chart.reportOk (c : Chart) (i : Nat) : Bool :=
  let m := c.img i
  let fs := m.firings
  let r := c.reports.getD i ⟨0, 0, [], 0⟩
  decide (r.fires = fs.length ∧ r.nulls = m.nullFirings fs ∧ r.stage = (c.map.getD {}).pos.getD 1 0) && agree32 r.counts ((m.passCounts fs).sx.drop 1)

/-- The numbers of a tile's check records. -/
def TileImg.checkIxs (m : TileImg) : List Nat := (List.range m.checkCount).map (fun k => m.checkFirst + k)

/-- A check record at the first three occurrences of its entry (R169, R170). -/
def TileImg.occursOk (m : TileImg) (r : CheckRec) : Bool :=
  let fs := m.firings
  let occ := ((fs.zip (m.countsFrom {} fs)).filter (fun x => x.1.last && decide (x.1.entry = r.entry))).take 3
  occ.zipIdx.all (fun x => agree32 x.1.2.sx ((r.first.zip r.incr).map (fun p => p.1 + x.2 * p.2)))

/-- The check records of one tile (05 Table CHRT-15, R169, R170). -/
def Chart.checksOk (c : Chart) (i : Nat) : Bool :=
  let m := c.img i
  let rs := m.checkIxs.map (fun k => c.checks.getD k ⟨0, 0, [], []⟩)
  decide (m.checkCount ≤ 8 ∧ m.checkFirst + m.checkCount ≤ c.checks.length ∨ m.checkCount = 0) && decide (rs.map (·.entry)).Nodup &&
    rs.all (fun r => decide (r.tile = i ∧ r.entry < m.entries.length) && (m.entryAt r.entry).isChk && m.occursOk r)

/-- The REPORT section as a whole: its layout and reserved bytes, the summary record, and every check record named by
one tile's range (R168, R170). -/
def State.reportWhole (s : State) (m : Image) (c : Chart) (fin : AState) : Bool :=
  let a := m.at' 7
  let x := c.summary
  let named := c.tiles.flatMap (·.checkIxs)
  decide (64 + 64 * m.ntiles + 128 * m.countOf 7 ≤ m.lenOf 7 ∧ x.checks = m.countOf 7) && s.zero (a + 0x1C) 36 &&
    (List.range m.ntiles).all (fun i => s.zero (a + 64 + 64 * i + 0x3A) 6) &&
    (List.range (m.countOf 7)).all (fun k =>
      let r := a + 64 + 64 * m.ntiles + 128 * k
      s.zero (r + 6) 2 && s.zero (r + 0x34) 12 && s.zero (r + 0x6C) 20) &&
    decide (x.firesMax = maxN (c.allFirings.map (·.length)) ∧ x.crit = maxN ((List.range c.tiles.length).map (fun i => (fin.tile i).depth)) ∧
      x.tiles = m.ntiles ∧ x.wpt = c.wps ∧ named.Nodup ∧ named.length = c.checks.length)

/-! ## I10: clean waypoints (R154) -/

/-- What of its own state a firing touches: an array plane, a GEMV accumulator as a MAC finds it or as STORE does, 64
elements of the x register, half a vector register, the current scale records. Results land (`lands`) before `reads`, and
`kills` come last; both leave nothing of what was there. `olds` are results from before a waypoint that land after it. -/
structure Uses where
  lands  : List Dst := []
  olds   : List Dst := []
  reads  : List Dst := []
  kills  : List Dst := []
  writes : List Dst := []
  deriving DecidableEq, Repr

/-- Vector registers an operation reads, by halves (02 Table TILE-9). -/
def Entry.vreads (e : Entry) : List Dst :=
  let whole := fun (v : Nat) => [Dst.vreg v 0, Dst.vreg v 1]
  let wide := decide (e.vop = 4 ∧ e.vfmt = 11)
  if e.vop = 0 ∨ e.vop = 1 ∨ e.vop = 3 then []
  else if wide then [Dst.vreg e.va (if bitOf e.vb 3 then 1 else 0)]
  else if e.vop = 0x10 then [Dst.vreg e.va (e.vb / 16)]
  else if e.vop = 0x0B ∨ e.vop = 0x0F then whole e.va ++ whole e.vb ++ whole e.vc
  else if e.vop = 0x0E then whole e.vd ++ whole e.va
  else if (8 ≤ e.vop ∧ e.vop ≤ 0x0D) ∨ e.vop = 0x11 then whole e.va ++ whole e.vb
  else whole e.va

/-- The x register elements of a GEMV chunk, in blocks of 64. -/
def Entry.xblocks (e : Entry) : List Dst := (List.range (chunkElems' e.gfmt / 64)).map (fun k => Dst.x (e.xidx / 64 + k))

/-- What an entry's firing touches, with the block count it finds. -/
def Entry.uses (e : Entry) (blk : Nat) : Uses :=
  if e.isNull then {}
  else
    let p := [Dst.plane e.aplane]
    let sc := [Dst.scaleA, Dst.scaleB]
    let start := decide (blk % blockFirings e.afmt = 0)
    let arr : Uses := match e.aop with
      | 1 => { reads := p, writes := p }
      | 2 => { kills := p, writes := p }
      | 3 => { reads := p }
      | 4 => { reads := p }
      | 5 => { kills := p, writes := p }
      | _ => {}
    let scl : Uses := if e.isMac && isBlock e.afmt then (if start then { kills := sc, writes := sc } else { reads := sc }) else {}
    let y := [Dst.acc e.yacc]
    let gm : Uses := match e.gop with
      | 1 => { reads := y ++ e.xblocks, writes := Dst.y e.yacc :: y }
      | 2 => { reads := e.xblocks, kills := y, writes := Dst.y e.yacc :: y }
      | 3 => { reads := (List.range 16).map Dst.y }
      | 4 => { writes := [Dst.x (e.xidx / 64)] }
      | _ => {}
    let vd := if e.setsVd then e.vdHalves.map (fun h => Dst.vreg e.vd h) else []
    { reads := arr.reads ++ scl.reads ++ gm.reads ++ e.vreads, kills := arr.kills ++ scl.kills ++ gm.kills,
      writes := arr.writes ++ scl.writes ++ gm.writes ++ vd }

/-- The uses of every firing of a pass, the block count running on (02 R43, R47). -/
def TileImg.usesFrom (m : TileImg) : Nat → List Fire → List Uses
  | _, [] => []
  | blk, f :: fs =>
    let e := m.entryAt f.entry
    let b := if e.aop = 2 then 0 else blk
    e.uses b :: m.usesFrom (if !e.isNull && e.isMac then b + 1 else blk) fs

/-- A landing as a use: an x register result lands in its block of 64. -/
def Dst.block : Dst → Dst
  | .x i => .x (i / 64)
  | d => d

/-- The uses with the results that these firings' own predecessors in the list give, each where it lands (02 R34): until then
a firing reads what was there. Results of the firings `past`, before the list, land among them too. -/
def landUses (past fs : List Fire) (us : List Uses) : List Uses :=
  let at' := fun (ls : List (Dst × Nat × Nat)) (n : Nat) => (ls.filter (fun l => decide (l.2.1 = n))).map (fun l => l.1.block)
  us.zipIdx.map (fun x => { x.1 with lands := at' (landings fs) x.2, olds := at' (landings past) (past.length + x.2) })

/-- Something written in the pass is read in these firings before it is overwritten. -/
def stale (written : List Dst) : List Dst → List Uses → Bool
  | _, [] => false
  | killed, u :: us =>
    let killed := (killed ++ u.lands).filter (fun d => !u.olds.contains d)
    u.reads.any (fun d => written.contains d && !killed.contains d) || stale written (killed ++ u.kills) us

/-- The words of a port access. -/
def portWords (f : Fire) (m : TileImg) (mode : Nat) : List Nat := (f.ports.filter (fun p => decide (wdMode (m.win p.1) = mode))).flatMap (fun p => wordRun p.2 16)

/-- Words read and words written by a firing's own accesses. -/
def Fire.wordsOf (f : Fire) (wr : Bool) : List Nat := (f.acc.filter (fun a => decide (a.wr = wr))).flatMap (·.words)

/-- A word outside `held` is read in these firings before it is written; port accesses come first in a firing. -/
def exposed (m : TileImg) (held : Nat → Bool) : Tab Nat → List Fire → Bool
  | _, [] => false
  | wrote, f :: fs =>
    let put := fun (t : Tab Nat) (ws : List Nat) => ws.foldl (fun (t : Tab Nat) a => tset 0 t a 1) t
    let bad := fun (t : Tab Nat) (ws : List Nat) => ws.any (fun a => !held a && decide (tget 0 t a = 0))
    let t := put wrote (portWords f m 2)
    bad wrote (portWords f m 3) || bad t (f.wordsOf false) || exposed m held (put t (f.wordsOf true)) fs

/-- Bits of scale records the block starts among some firings take. -/
def TileImg.recTaken (m : TileImg) (fs : List Fire) (rec' : Nat → Nat) : Nat :=
  sumN ((fs.zip (m.usesFrom 0 fs)).map (fun x => if x.2.kills.contains Dst.scaleA then rec' (m.entryAt x.1.entry).afmt else 0))

/-- A read of the scratchpad that gives a result: its firings to delivery are counted in `res`. -/
def Entry.readsSpad (e : Entry) (d : Dst) : Bool :=
  match d with
  | .opA => decide (e.vop ≠ 5) || (List.range 3).any (fun i => decide (e.mop i = 1 ∨ e.mop i = 8))
  | .vreg _ _ => decide (e.vop = 1)
  | .viq => false
  | .out _ => (List.range 3).any (fun i => decide (e.mop i = 6 ∨ e.mop i = 8))
  | _ => true

/-- The tile is clean at the WPT entry it completes in firing `n` (R154). -/
def TileImg.cleanAt (m : TileImg) (held : Nat → Bool) (fs : List Fire) (n : Nat) : Bool :=
  let past := fs.take (n + 1)
  let us := m.usesFrom 0 fs
  let written := us.flatMap (·.writes)
  let e := fun (f : Fire) => m.entryAt f.entry
  let starts := us.any (fun u => u.kills.contains Dst.scaleA)
  let scale := fun (d : Dst) (bits : Nat → Nat) => decide (m.queued past d (fun _ => 0) = (m.recTaken past bits : Int)) || !starts
  (match fs[n]? with | some f => f.acc.isEmpty | none => true) &&
    past.zipIdx.all (fun x =>
      x.1.res.all (fun r => !(e x.1).readsSpad r.1 || decide (x.2 + r.2.1 ≤ n + 1)) &&
        ((e x.1).isNull || (List.range 3).all (fun i => decide ((e x.1).mop i ≠ 8 ∨ (e x.1).tdst i ≠ 3 ∨ x.2 + 7 ≤ n)))) &&
    decide (m.queued past .opA (fun e => if e.isMac ∧ e.asrc = 0 then sliceA e.afmt else 0) = 0 ∧
      m.queued past .opB (fun e => if e.isMac ∧ e.bsrc = 0 then sliceB e.afmt else 0) = 0 ∧
      m.queued past .viq Entry.viqTaken = 0) &&
    scale .scaleA recA && scale .scaleB recB &&
    (List.range 4).all (fun u =>
      decide (stMode (m.steerOf u) ≠ 3) ||
        (match (past.flatMap (fun f => (f.units.filter (fun y => decide (y.1 = u))).map (·.2))).getLast? with
         | some k => decide (k = stTrip (m.steerOf u))
         | none => true)) &&
    !stale written [] (landUses past (fs.drop (n + 1) ++ fs) (us.drop (n + 1) ++ us)) && !exposed m held [] (fs.drop (n + 1) ++ fs)

/-- I10 for one tile. -/
def Chart.cleanOk (c : Chart) (i : Nat) : Bool :=
  let m := c.img i
  let fs := m.firings
  let es := c.resid.getD m.resid []
  let held := fun (a : Nat) => es.any (fun x => decide (x.waddr ≤ a ∧ a < x.waddr + x.words))
  fs.zipIdx.all (fun x => !m.wptAt x.1 || m.cleanAt held fs x.2)

/-! ## The order of R479 -/

/-- A window of some tile is on. -/
def Chart.windowOn (c : Chart) : Bool := c.tiles.any (fun m => (List.range 8).any (fun k => decide (wdMode (m.win k) ≠ 0)))

/-- The TIER checks T01 to T09. -/
def State.tierChecks (s : State) (m : Image) (c : Chart) : Verdict :=
  let v := s.variant
  let img := fun (i : Nat) => c.tiles.getD i {}
  let t := c.tier.getD {}
  c.mustTiles v (codeT 1) (fun i => (img i).windowsOk) <|>
  must (codeT 1) (match c.tier with | some t => s.tierOk m c t | none => true) <|>
  if c.tier.isSome ∨ c.windowOn then
    c.mustTiles v (codeT 2) (fun i => (img i).spansOk) <|>
    c.mustTiles v (codeT 3) (fun i => (img i).accessOk (img i).firings) <|>
    c.mustTiles v (codeT 4) c.windowsOwned <|> must (codeT 5) (s.walksOk c t) <|> must (codeT 6) (c.pressureOk v t) <|>
    must (codeT 7) (c.linesOk t) <|> must (codeT 8) (c.lentOk v t) <|> must (codeT 9) (s.livesOk c t)
  else none


/-- The rules V01 to V15, and the clauses of I05, T04 and M07 that need the firings of a pass, then I09 and I10. -/
def State.executionChecks (s : State) (m : Image) (c : Chart) : Verdict :=
  let v := s.variant
  let tile := fun (code : Nat) (ok : Nat → Bool) => c.mustTiles v code ok
  let rule := fun (n : Nat) (ok : TileImg → List Fire → Bool) => tile (codeV n) (fun i => ok (c.img i) (c.img i).firings)
  rule 1 (fun m _ => m.codesOk) <|> rule 2 (fun m _ => m.seqOk) <|> rule 3 (fun m _ => m.nullsOk) <|> rule 4 TileImg.latencyOk <|>
  rule 5 TileImg.ownersOk <|> rule 6 TileImg.widthsOk <|> rule 7 TileImg.drainsWhole <|> tile (codeV 8) (c.boundaryOk v) <|>
  rule 9 TileImg.formatsOk <|> rule 10 (fun m _ => m.steerOk) <|> rule 11 (fun m _ => m.headsOk) <|> tile (codeV 12) (c.balanced v) <|>
  tile (codeV 13) (c.shortPathsOk v) <|> tile (codeV 14) (c.orderedOk v) <|>
  let fin := c.execution v
  tile (codeV 15) (c.ends fin) <|> tile (codeI 5) c.wptsOk <|> tile (codeT 4) c.accessesOk <|> tile (codeM 7) c.tapCountsOk <|>
  must (codeI 9) (s.reportWhole m c fin) <|> tile (codeI 9) (fun i => c.reportOk i && c.checksOk i) <|> tile (codeI 10) c.cleanOk

/-- Every check of CHART_LOAD, in the order of R479: the first that fails. -/
def State.chartChecks (s : State) (a : Nat) : Verdict :=
  let m := s.image a
  let c := s.readChart a
  s.imageChecks a <|> s.tierChecks m c <|> s.updChecks m c <|> s.mapChecks m c <|> s.redChecks m c <|> s.executionChecks m c

/-- The RESULT of a rejected chart: global column, global row and chart tile index of the tile, or all ones (11 R479). -/
def State.failResult (s : State) (a : Nat) (f : Fail) : Nat :=
  match f.tile with
  | none => 2 ^ 64 - 1
  | some i =>
    let t := (s.readChart a).tileNo i
    globalCol s.variant t + 2 ^ 16 * globalRow s.variant t + 2 ^ 32 * i

end Sys2Proof.Machine
end

