-- ==== Sys2Proof/Machine/Power.lean ====
section
/-! DEFINITION. Power, voltage and thermal control (13) and the standby rules of 16 R470-R476. -/

namespace Sys2Proof.Machine

/-! ## Main power -/

/-- The tags of the Power domain and of every domain it encloses advance, modulo 256 (15 R430, R432). -/
def State.powerTags (s : State) : State :=
  let s := s.advanceTags .module 0
  { s with rcv := { s.rcv with tags := tset 0 s.rcv.tags powerKey ((tget 0 s.rcv.tags powerKey + 1) % 256) } }

/-- Every door of the module closes with the Power domain (15 R430); the tiles behind it lose everything. -/
def State.closeAll (s : State) : State :=
  let all := domAll s.variant .module 0
  let s := forEach (all.filter (fun d => !s.rcv.closed.contains d)) s (fun s d => s.traceRec (domSrc d.1 d.2) trDoor (leBytes 2 (domKey d.1 d.2)))
  { s with rcv := { s.rcv with closed := all } }

/-- Every rail but VSB falls, which of itself is a reset of no domain (13 R397, R398, 15 Table RCV-1): device memory, core domains, the chart, the RUN
and the commands in progress are gone, a BIST that runs is interrupted and leaves the map (15 R461); the register set of the host
interface stays. -/
def State.dropPower (s : State) : State :=
  let s := s.loseMemory
  let s := if s.obj 0x6300 1 = 1 then s.setObj 0x6300 1 0 else s
  -- VSET, CAP and STATE of a region read as last reported (12 R377)
  let s := forEach s.allPhys s (fun s pr => s.setRpw pr { s.rpw pr with floorAt := none })
  let s := forEach s.allRegions s (fun s r => (s.clearDataflow r).modRegion r (fun x => { x with stale := 0 }))
  let s := s.dropChart
  let s := { s with run := none, wp := {}, redn := {}, hi := { s.hi with ready := false, jheld := false, cmds := [], held := [] } }
  let s := s.closeAll
  let s := { s with rcv := { s.rcv with cycleDue := false, cycleBy := 0, cycleUp := false, resets := [], incident := 0, phase := .idle, resumeWpt := BitVec.allOnes 64, replays := 0, replayOf := BitVec.allOnes 64, shifts := [], linkHold := false, queries := [] } }
  let s := s.linksOff
  { s with pw := { s.pw with inputOn := false, railsUp := false, stacksUp := false, stage := 0, stopStep := 0, vpwr := 0, vpwrFloor := none } }

/-- A stage of power-up begins. -/
def State.toStage (s : State) (k : Nat) : State := { s with pw := { s.pw with stage := k, stageAt := s.now } }

/-- Start the power-up sequence: STARTING at stage 1 (13 R400). -/
def State.startPower (s : State) : State :=
  { s with pw := { s.pw with state := .starting, stage := 1, stageAt := s.now, armed := false, failPend := false, again := false } }

/-- The Helm permits main power: it runs and is not in recovery mode (14 R419). -/
def State.mayPower (s : State) : Bool := s.helmRuns && !s.helm.recovery

/-- VIN lies within 44-60 V (13 R398, R400). -/
def State.vinOk (s : State) : Bool := f32Ge s.pw.vin 0x42300000 && f32Ge 0x42700000 s.pw.vin

/-- A module trip (13 R397): the switch opens, the rails fall, the event is recorded, TRIPPED. -/
def State.trip (s : State) (cause : TripCause) : State :=
  let code := match cause with
    | .thermal => 0x2A20 | .vinLow => 0x2A21 | .vinHigh => 0x2A22 | .current => 0x2A23 | .rail => 0x2A24
  let s := s.dropPower
  let s := { s with pw := { s.pw with state := .tripped, armed := false, again := false, thermTrip := (s.pw.thermTrip || decide (cause = TripCause.thermal)) } }
  ((s.bump 0x2040 6 32 1).event srcHelm code []).setCause 19

/-! ## Standby (13 R399, 16 R470, R474) -/

/-- Dictionary values at the application of standby (12 R366): the P objects keep theirs. -/
def State.keptObjs (s : State) : Tab Nat :=
  s.dict.objs.filter (fun kv =>
    match objRow s.variant (kv.1 / 256) (kv.1 % 256) with
    | some r => r.p
    | none => false)

/-- The SEQ a Logbook continues from (14 R411). -/
def Logbook.resume (l : Logbook) : Nat :=
  match l.flash.getLast? with
  | some r => r.1 + 1
  | none => 0

/-- A region as the application of standby finds it: set point, cap and temperature at their defaults (12 R377), a trip stays
(13 R395). -/
def RegionPw.standby (x : RegionPw) : RegionPw :=
  { x with vset := 0, cap := 0, vth := 0, temp := noTemp, floorAt := none, shutter := if x.shutter = .opened then .empty else x.shutter }

/-- 12 V standby is applied; `pufOk` says whether the PUF gave the secret K (14 R423). A pending firmware
activation that a loss of standby interrupted is dropped for the former bank (14 R422; log 21). The restart is recorded and not
counted (14 R407). The effective map that is measured is what the management store makes of the map and the overrides (log 113). -/
def execVsbApplied (pufOk : Bool) (s : State) : Host.Outcome State Fault Refusal :=
  if s.pw.vsb then .next s
  else
    let latch := s.pw.latch
    let s := { s with
      pw := { vsb := true, permit := s.pw.permit, regions := s.pw.regions.map (fun (x : Nat × RegionPw) => (x.1, x.2.standby)) },
      hi := { bar2Size := s.hi.bar2Size },
      link := { refclk := s.link.refclk },
      dict := { s.dict with objs := s.keptObjs, status := 0, eid := 0, update := [], response := [], serving := none, waiting := [], woLen := [], dumps := [] },
      log := { flash := s.log.flash, next := s.log.resume, spilled := s.log.resume },
      helm := { s.helm with selfTest := false, pufOk := pufOk },
      rcv := { map := s.rcv.map, bistRuns := s.rcv.bistRuns, effective := s.nextMap, rowShift := s.rcv.rowShift, tripShift := s.rcv.tripShift } }
    let s := s.unpend.event srcHelm 0x1A01 []
    let s := (s.helmBoot s.helm.active pufOk).event srcHelm 0x1A02 [0x51]
    let s := match latch with
      | some _ => s.event srcHelm 0x2A24 []
      | none => s
    let s := s.torusEffect
    .next (if s.pw.permit ∧ s.mayPower then s.startPower else s)

/-- Standby is gone: outputs released, the Helm stopped, what SRAM held lost. -/
def State.standbyGone (s : State) (latch : Option TripCause) : State :=
  let s := if s.pw.inputOn then s.dropPower else s
  { s with
    pw := { permit := s.pw.permit, regions := s.pw.regions, latch := latch },
    hi := { bar2Size := s.hi.bar2Size },
    log := { flash := s.log.flash, next := s.log.next, spilled := s.log.next },
    helm := { s.helm with attestSt := 0, captured := [], report := [], meas := [], mcount := [] } }

def execVsbLoss (s : State) : Host.Outcome State Fault Refusal :=
  if s.pw.vsb then .next (s.standbyGone (if s.pw.inputOn then some .rail else none)) else .next s

def execVsbSag (helmRuns : Bool) (s : State) : Host.Outcome State Fault Refusal :=
  if s.pw.vsb ∧ s.pw.inputOn then
    if helmRuns ∧ s.helmRuns then .next (s.trip .rail) else .next (s.standbyGone (some .rail))
  else .next s

/-! ## Power-up (13 R400, R401; 16 R475, R476) -/

/-- Main power starts at once where PWR_PERMIT is asserted in STANDBY and the Helm permits it (13 R400), unless a failed attempt
waits for an edge (16 R476) or CYCLE_OFF_TIME runs (13 R402). -/
def State.powerAtOnce (s : State) : State :=
  if s.pw.vsb ∧ s.pw.state = .standby ∧ s.pw.permit ∧ s.mayPower ∧ ¬ s.pw.failPend ∧ ¬ s.pw.again then s.startPower else s

/-- Recovery mode does not permit main power (14 R419): rails that are up fall, POWER_STATE becomes STANDBY (log 109). -/
def State.recoveryOff (s : State) : State :=
  if s.helm.recovery ∧ s.pw.inputOn then { s.dropPower with pw := { s.dropPower.pw with state := .standby, again := false } } else s

/-- A PWR_PERMIT level held for less than 1 ms is ignored (16 Table PKG-5). -/
def permitHeld : Nat := 1000000

/-- PWR_PERMIT has been deasserted for at least 1 s when a level begins that has been held for `held` ns. -/
def State.longOff (s : State) (held : Nat) : Bool := decide (s.pw.permitAt + 1000000000 ≤ s.now - held)

/-- PWR_PERMIT_ASSERT: PWR_PERMIT has been high for `held` ns. -/
def execPwrPermitAssert (held : Nat) (s : State) : Host.Outcome State Fault Refusal :=
  if s.pw.permit ∨ held < permitHeld then .next s
  else
    let off := s.longOff held
    let s := { s with pw := { s.pw with permit := true, permitAt := s.now - held } }
    match s.pw.state with
    | .standby => .next ((if off then { s with pw := { s.pw with failPend := false } } else s).powerAtOnce)
    | .tripped => if off then .next { s with pw := { s.pw with armed := true } } else .next s
    | .stopping => .next { s with pw := { s.pw with again := true } }
    | _ => .next s

/-- Stage 5: BIST first when the stored map fails its check, then the map is loaded, VREG of every
presented region rises to 0.70 V and the die resets are released, their doors open (13 R400, 15 R430, R459). -/
def State.stageDies (s : State) (bist : Option (List RepairEntry)) : State :=
  let s := match bist with
    | none => s
    | some found => ((s.event srcHelm 0x6B05 []).bistBegin).bistEnd found
  let s := forEach (List.range s.variant) s (fun s d => s.dieRepair d)
  let s := { s with pw := { s.pw with vpwr := s.regionVdd, vpwrFloor := none } }
  let s := s.openDoors (s.rcv.closed.filter (fun d => decide (d.1 ≠ DomKind.stack)))
  forEach s.allRegions s (fun s r =>
    let pr := s.physOf r
    let x := s.rpw pr
    if x.shutter = .tripped ∨ x.shutter = .regulator then s
    else
      let s := if x.shutter = .opened then s else s.traceRec (srcDie (pr / 28)) trShutter (leBytes 1 pr ++ [1])
      s.setRpw pr { x with vset := 700, cap := 0, vth := s.regionVdd, shutter := .opened, floorAt := none })

/-! ## Dumps (05 R173, 06 R211, 14 R416) -/

/-- STALL_DUMP's bytes: every presented tile in ascending global row and column; tiles outside the placement of a loaded
chart as zero. -/
def State.stallDumpData (s : State) : List Byte :=
  let v := s.variant
  (List.range (gridRows v * gridCols v)).flatMap (fun i =>
    let t := tileAt v (i / gridCols v) (i % gridCols v)
    let on := match s.chart with | some c => c.placed.contains (tileRegion t) | none => true
    if on then (tgetMany 0 (s.tile t).stall 0 16).flatMap (leBytes 4) else zeros 64)

/-- TIER_DUMP's bytes: every presented region in ascending die, row and column. -/
def State.tierDumpData (s : State) : List Byte :=
  s.allRegions.flatMap (fun r => (tgetMany 0 (s.region r).tw 0 8).flatMap (leBytes 4))

/-- The bytes of a dump. -/
def State.dumpData (s : State) (idx : Nat) : List Byte :=
  match idx with
  | 0x9010 => s.stallDumpData
  | 0x3010 => s.tierDumpData
  | 0x7010 => s.log.sram.flatMap logBytes
  | _ => s.log.flash.flatMap logBytes

/-- A dump of the counters (05 R173, 06 R211): written, or, with main power off, stored until the regions have power (12 R377). On a path that
has no completion of its own the write waits at a stack's door and is answered at once (DESIGN CHOICE, log 137). -/
def State.counterDump (s : State) (idx a : Nat) : State :=
  if s.pw.stacksUp then s.devSend .helm a (s.dumpData idx) else { s with dict := { s.dict with dumps := s.dict.dumps ++ [(idx, a)] } }

/-- The stored dumps take effect, in their order (12 R377). -/
def State.storedDumps (s : State) : State :=
  forEach s.dict.dumps ({ s with dict := { s.dict with dumps := [] } } : State) (fun s d => s.devSend .helm d.2 (s.dumpData d.1))

/-! ## Power-up -/

/-- Counters that count from the application of main power or from power-up (11 R362, 10 R338). -/
def State.clearPowerCounters (s : State) : State :=
  let s := forEach [1, 2, 3] s (fun s k => s.setObj 0x9070 k 0)
  forEach s.ports s (fun s p => forEach [3, 4, 5, 6, 7, 8, 9, 0xA, 0xB] s (fun s k => s.setObj (0x5020 + p) k 0))

/-- Stage 8: JOURNAL_EPOCH advances, the reservation is zeroed, JOURNAL_NEXT is 1 (11 R361). -/
def State.stageJournal (s : State) : State :=
  let s := s.setObj 0x1101 1 ((s.obj 0x1101 1 + 1) % 2 ^ 32)
  { s with jmem := {}, hi := { s.hi with jnext := 1 } }

/-- A map that cannot present the full grid takes the module out of service (15 R448, R458); `domain` is the widest domain
reset before it. -/
def State.gridCheck (s : State) (domain : Nat) : State :=
  if gridLost s.variant s.rcv.effective ∧ ¬ s.oos then
    let s := s.event srcHelm 0x6B02 []
    let s := s.recordFault ⟨0x53, clsO, (.module, 0), none, none, 8, none, []⟩ clsO 5 domain
    s.outOfService 0x53 (s.obj 0x6010 0)
  else s

/-- READY (13 R400 step 9), the completion of a reset of the Power domain (15 R428, R456); a module that goes out of service after power-up
does so now (15 R452, R458). -/
def State.stageReady (s : State) : State :=
  let s := if s.rcv.cycleUp then
      ({ s with rcv := { s.rcv with cycleUp := false } } : State).traceRec srcHelm trReset (leBytes 2 powerKey ++ [2])
    else s
  let s := { s with pw := { s.pw with state := .on, stage := 0 }, hi := { s.hi with ready := true } }
  match s.rcv.oosPend with
  | some cause =>
    let s := s.recordFault ⟨cause, clsO, (.module, 0), none, none, 8, none, []⟩ clsO 5 4
    s.outOfService cause (s.obj 0x6010 0)
  | none =>
    s.gridCheck 4

/-- The power-up stage in progress completes. `bist` carries BIST's findings when the stored repair map
fails its check at stage 5. -/
def execPowerupStageComplete (bist : Option (List RepairEntry)) (s : State) : Host.Outcome State Fault Refusal :=
  if s.pw.state = .starting ∧ s.mayPower then
    match s.pw.stage with
    | 1 => if s.vinOk then .next (s.toStage 2) else .next s
    | 2 =>
      let s := s.clearPowerCounters
      .next { s.toStage 3 with pw := { (s.toStage 3).pw with inputOn := true } }
    | 3 => .next ({ s.toStage 4 with pw := { (s.toStage 4).pw with railsUp := true } } : State).linksOn
    | 4 =>
      let s := s.openDoors (domRange .stack 0 (4 * s.variant))
      .next { s.toStage 5 with pw := { (s.toStage 5).pw with stacksUp := true } }
    | 5 => .next ((s.stageDies bist).storedDumps.toStage 6)
    | 6 => .next (s.closeAllowed.toStage 8)  -- step 7, link training, starts and continues in the background
    | 8 => .next (s.stageJournal).stageReady
    | _ => .next s
  else .next s

/-- The bound of a stage of power-up in ns (16 Table PKG-8), with BIST before stage 5 where the stored map fails its check; the
table gives stage 1 no number. -/
def stageBound (v k : Nat) (mapBad : Bool) : Option Nat :=
  match k with
  | 1 => some Config.vinCheckBound
  | 2 => some 1000000000
  | 3 => some (1000000000 * dieRows v)
  | 4 => some 25000000000
  | 5 => some (6000000000 * v + (if mapBad then (if v = 8 then 180000000000 else if v = 4 then 100000000000 else 60000000000) else 0))
  | 6 => some 500000000
  | 8 => some 2000000000
  | _ => none

/-- The stage in progress has exceeded its bound (16 R476): stage 1 has none while VIN is out of range, and its bound begins
when VIN has come into range. -/
def State.stageOver (s : State) (mapBad : Bool) : Bool :=
  match stageBound s.variant s.pw.stage mapBad with
  | some b => decide (s.pw.stageAt + b < s.now) && (decide (s.pw.stage ≠ 1) || s.vinOk)
  | none => false

/-- POWERUP_FAILED (16 R476). -/
def execPowerupFailed (mapBad : Bool) (s : State) : Host.Outcome State Fault Refusal :=
  if s.pw.state = .starting ∧ s.mayPower ∧ s.stageOver mapBad then
    let k := s.pw.stage
    let s := (s.dropPower).event srcHelm 0x2A30 (leBytes 1 k)
    .next { s with pw := { s.pw with state := .standby, failPend := true } }
  else .next s

/-! ## Power-down (13 R401, R402) -/

/-- Step 2 of an orderly shutdown: a RUN stops as under ABORT with MODE 0 and WPT 0, DETAIL 0; one that has not started has
no effect, one that has not begun its work gets the stop point. -/
def State.stopForShutdown (s : State) : State :=
  let s := { s with run := s.run.map (fun r => { r with stopAt := some 0, stopBy := 0 }) }
  let runs := s.hi.cmds.filter (fun c => decide (c.opcode = 4) && !c.ended)
  forEach runs s (fun s c =>
    if c.jstate = 1 then s.endCmd c.seq 0x0C 0 0 else s.modCmd c.seq (fun x => { x with stopAt := some 0, stopBy := 0 }))

/-- PWR_PERMIT_DEASSERT: PWR_PERMIT has been low for `held` ns. -/
def execPwrPermitDeassert (held : Nat) (s : State) : Host.Outcome State Fault Refusal :=
  if s.pw.permit ∧ permitHeld ≤ held then
    let s := { s with pw := { s.pw with permit := false, permitAt := s.now - held } }
    if s.pw.vsb then
      let s := { s with pw := { s.pw with thermTrip := false, armed := false } }
      match s.pw.state with
      | .starting =>
        let s := s.dropPower
        .next { s with pw := { s.pw with state := .standby } }
      | .on =>
        let s := s.stopForShutdown
        .next { s with pw := { s.pw with state := .stopping, stopStep := 2, stopAt := s.now }, hi := { s.hi with ready := false } }
      | _ => .next s
    else .next s
  else .next s

def execShutdownProgress (bist : List RepairEntry) (s : State) : Host.Outcome State Fault Refusal :=
  if s.pw.state = .stopping ∧ s.helmRuns then
    if s.pw.stopStep = 2 ∧ s.hi.cmds = [] then
      let s := if s.obj 0x2030 0 = 1 then (s.bistBegin).bistEnd bist else s
      .next { s with pw := { s.pw with stopStep := 5 } }
    else if s.pw.stopStep = 5 then
      let again := s.pw.again
      let s := s.dropPower
      .next { s with pw := { s.pw with state := .standby, again := again, cycleAt := s.now } }
    else .next s
  else .next s

/-- SHUTDOWN_TIMEOUT has passed with commands in progress: every engine domain is reset and the commands
complete with ABORTED (13 R402 step 3); a COPY reports the bytes confirmed. -/
def execShutdownTimeout (s : State) : Host.Outcome State Fault Refusal :=
  if s.pw.state = .stopping ∧ s.pw.stopStep = 2 ∧ s.hi.cmds ≠ [] ∧ s.pw.stopAt + s.obj 0x2031 0 * 1000000 ≤ s.now ∧ s.helmRuns then
    let s := s.closeDoors s.engineDomains
    let s := s.issueResets s.engineDomains
    let s := s.endRun 0x0C 0
    let s := forEach s.ports s (fun s p => forEach (s.port p).copies s (fun s c => s.endCmd c.1 0x0C 0 c.2.2))
    let s := (s.endOthers 0x0C).forgetCopies
    .next { s with rcv := { s.rcv with phase := .resetOnly, incident := 0 } }
  else .next s

/-! ## Trips and power cycles (13 R397, R398, R404) -/

/-- Every sensor lies below its module trip threshold less 15 °C. -/
def State.sensorsCool (s : State) : Bool :=
  s.allPhys.all (fun pr => decide ((s.rpw pr).temp < 105 * 16)) &&
    (List.range (4 * s.variant)).all (fun i => decide (tget 0 s.pw.stackT i < 90 * 16))

def execTripRestart (s : State) : Host.Outcome State Fault Refusal :=
  if s.pw.state = .tripped ∧ s.pw.armed ∧ s.pw.permit ∧ s.vinOk ∧ s.sensorsCool ∧ s.mayPower then .next s.startPower
  else .next s

/-- The overcurrent threshold of a variant in A, as binary32 (13 Table PWR-4). -/
def currentLimit (v : Nat) : W32 := if v = 8 then 0x43250000 else if v = 4 then 0x42AA0000 else 0x42380000

/-- What the trip comparators see for as long as Table PWR-4 says exceeds a threshold of theirs; a fixed rail outside ±5 % is no
reading of the sensor hub. -/
def tripSeen (v : Nat) (cause : TripCause) (x : Sensors) : Bool :=
  match cause with
  | .thermal => x.regionT.any (fun t => decide (120 * 16 ≤ t.2)) || x.stackT.any (fun t => decide (105 * 16 ≤ t.2))
  | .vinLow => ltV (ofF32 x.vin) (ofF32 0x42280000)
  | .vinHigh => ltV (ofF32 0x42780000) (ofF32 x.vin)
  | .current => ltV (ofF32 (currentLimit v)) (ofF32 x.current)
  | .rail => true

/-- MODULE_TRIP (13 R397): the comparators act on what they see, without the Helm. -/
def execModuleTrip (cause : TripCause) (seen : Sensors) (s : State) : Host.Outcome State Fault Refusal :=
  if s.pw.vsb ∧ s.pw.inputOn ∧ tripSeen s.variant cause seen then .next (s.trip cause) else .next s

/-- The DICT_SET that has asked for the power cycle has still to complete: it does before the commands in progress are lost (15 R451). -/
def State.cycleWaits (s : State) : Bool := decide (s.rcv.cycleBy ≠ 0) && (s.cmd s.rcv.cycleBy).isSome

/-- The Helm drives the power cycle that was issued (13 R404), the reset of the Power domain (15 R428): READY is cleared, the rails fall, the
tags advance, the switch stays open for CYCLE_OFF_TIME. A trip or a failed power-up has taken its place: these wait for an edge (R398, 16 R476). -/
def execPowerCycle (s : State) : Host.Outcome State Fault Refusal :=
  if s.rcv.cycleDue ∧ s.helmRuns ∧ s.pw.state ≠ .tripped ∧ ¬ s.pw.failPend ∧ ¬ s.cycleWaits then
    let s := s.dropPower.powerTags.traceRec srcHelm trReset (leBytes 2 powerKey ++ [1])
    .next { s with pw := { s.pw with state := .cycling, cycleAt := s.now, again := false }, rcv := { s.rcv with cycleUp := true } }
  else .next s

def execCycleOffExpiry (s : State) : Host.Outcome State Fault Refusal :=
  if (s.pw.state = .cycling ∨ (s.pw.state = .standby ∧ s.pw.again)) ∧ s.pw.cycleAt + s.obj 0x2032 0 * 1000000 ≤ s.now ∧ s.mayPower then
    if s.pw.permit then .next s.startPower
    else .next { s with pw := { s.pw with state := .standby, again := false } }
  else .next s

/-! ## Sensors and loops (13 R387-R389) -/

/-- A temperature in 1/16 °C as an exact value. -/
def tempV (t : Int) : FVal := .fin (decide (t < 0)) t.natAbs (-4)

/-- A reading exceeds an FP32 target by more than `k` °C. -/
def tempAbove (t : Int) (target k : Nat) : Bool :=
  ltV (addV (ofF32 (BitVec.ofNat 32 target)) (.fin false k 0)) (tempV t)

/-- A reading lies below an FP32 target less `k` °C. -/
def tempBelow (t : Int) (target k : Nat) : Bool :=
  ltV (tempV t) (addV (ofF32 (BitVec.ofNat 32 target)) (.fin true k 0))

/-- The hottest of a list of readings. -/
def hottest (ts : List Int) : Int :=
  match ts with
  | [] => 0
  | t :: ts => ts.foldl max t

/-- The PX die sensor readings. -/
def State.dieTemps (s : State) : List Int := s.allPhys.map (fun pr => (s.rpw pr).temp)
def State.stackTemps (s : State) : List Int := (List.range (4 * s.variant)).map (fun i => tget 0 s.pw.stackT i)

/-- A condition that holds now and did not at the sample before raises alarm `b` with an event (13 R396): a target that a write
has lowered counts from the next sample on. A condition that comes back while its sticky bit is set is counted, and nothing more. -/
def State.alarmEdge (s : State) (b code : Nat) (now : Bool) : State :=
  let u := if now ∧ ¬ s.pw.hot.testBit b then s.alarmEvent b code else s
  { u with pw := { u.pw with hot := if now then setBitN u.pw.hot b else clearBitsN u.pw.hot (2 ^ b) } }

/-- SENSOR_SAMPLE (13 R387, R396). Stage 1 of power-up counts its time from when VIN comes into range (16 R476). -/
def execSensorSample (v : Sensors) (s : State) : Host.Outcome State Fault Refusal :=
  if s.helmRuns then
    let vinWas := s.vinOk
    let th := fun s : State => s.dieTemps.any (fun t => tempAbove t (s.obj 0x2010 2) 10)
    let sh := fun s : State => s.stackTemps.any (fun t => tempAbove t (s.obj 0x2010 3) 5)
    let s := forEach v.regionT s (fun s rt => s.setRpw rt.1 { s.rpw rt.1 with temp := rt.2 })
    let st := v.stackT.foldl (fun (t : Tab Int) (x : Nat × Int) => tset 0 t x.1 x.2) s.pw.stackT
    let sm := v.stackT.foldl (fun (t : Tab Int) (x : Nat × Int) => tset noTemp t x.1 (max x.2 (tget noTemp t x.1))) s.pw.stackMax
    let s := { s with pw := { s.pw with
      stackT := st, stackMax := sm,
      helmT := v.helm, vin := v.vin, standbyV := v.standby, current := v.current, power := v.power } }
    let s := if s.pw.stage = 1 ∧ (¬ vinWas ∨ ¬ s.vinOk) then { s with pw := { s.pw with stageAt := s.now } } else s
    .next ((s.alarmEdge 0 0x2A01 (th s)).alarmEdge 1 0x2A02 (sh s))
  else .next s

/-- A region is open presented (13 R388). -/
def State.openPresented (s : State) (r : Nat) : Bool := decide ((s.rpw (s.physOf r)).shutter = .opened)

/-- Send every open presented region its set point (13 R388). -/
def State.sendSetPoints (s : State) : State :=
  forEach (s.allRegions.filter s.openPresented) s (fun s r =>
    let pr := s.physOf r
    let x := s.rpw pr
    let sp := s.setPoint x.vth
    s.setRpw pr { x with vset := sp.1, cap := sp.2 })

/-- Main power is on and the loops run. -/
def State.loopsRun (s : State) : Bool := s.helmRuns && (decide (s.pw.state = .on) || decide (s.pw.state = .stopping))

/-- Since when a cap at 0.55 V has been held while its condition persists. -/
def floorSince (held : Bool) (since : Option Nat) (now : Nat) : Option Nat :=
  if held then (match since with | some t => some t | none => some now) else none

def execPowerLoop (s : State) : Host.Outcome State Fault Refusal :=
  if s.loopsRun then
    let limit := s.obj 0x2001 0
    let vdd := s.regionVdd
    let p := ofF32 s.pw.power
    let v := min s.pw.vpwr vdd
    let above := ltV (.fin false limit 0) p
    let below := ltV (mulV p (.fin false 100 0)) (.fin false (97 * limit) 0)
    let v := if above then max (v - 5000) 550000 else if below then min (v + 5000) vdd else v
    let s := { s with pw := { s.pw with vpwr := v, vpwrFloor := floorSince (above && decide (v = 550000)) s.pw.vpwrFloor s.now } }
    .next s.sendSetPoints
  else .next s

/-- The hottest stack of a die. -/
def State.dieStackMax (s : State) (d : Nat) : Int := hottest ((List.range 4).map (fun i => tget 0 s.pw.stackT (4 * d + i)))

def execThermalLoop (s : State) : Host.Outcome State Fault Refusal :=
  if s.loopsRun then
    let vdd := s.regionVdd
    let tj := s.obj 0x2010 2
    let st := s.obj 0x2010 3
    let s := forEach (s.allRegions.filter s.openPresented) s (fun s r =>
      let pr := s.physOf r
      let x := s.rpw pr
      let ts := s.dieStackMax (regionDie r)
      let v := min x.vth vdd
      let hot := tempAbove x.temp tj 0 || tempAbove ts st 0
      let cool := tempBelow x.temp tj 3 && tempBelow ts st 3
      let v := if hot then max (v - 10000) 550000 else if cool then min (v + 5000) vdd else v
      s.setRpw pr { x with vth := v, floorAt := floorSince (hot && decide (v = 550000)) x.floorAt s.now })
    .next s.sendSetPoints
  else .next s

/-- A cap has been held at 0.55 V for 100 ms; the next 100 ms count anew. -/
def execCapFloorAlarm (cap : CapKind) (s : State) : Host.Outcome State Fault Refusal :=
  if s.loopsRun then
    match cap with
    | .power =>
      (match s.pw.vpwrFloor with
       | some t =>
         if t + 100000000 ≤ s.now then
           let s := s.alarmEvent 2 0x2A03
           .next { s with pw := { s.pw with vpwrFloor := some s.now } }
         else .next s
       | none => .next s)
    | .thermal r =>
      let pr := s.physOf r
      (match (s.rpw pr).floorAt with
       | some t =>
         if t + 100000000 ≤ s.now then
           let s := s.alarmEvent 0 0x2A01
           .next (s.setRpw pr { s.rpw pr with floorAt := some s.now })
         else .next s
       | none => .next s)
  else .next s

/-! ## Region trips and shutters (13 R385, R392, R395) -/

/-- A 16-bit pattern of a temperature (13 Table PWR-6, 15 Table RCV-4). -/
def temp16 (t : Int) : List Byte := leBytes 2 (unsigned 16 t)

/-- A region's shutter closes on a trip: event, alarm, region death for a placed region, a fault for a
lending one; a lent segment is lost with the region store (13 R395, 15 Table RCV-2). -/
def State.regionTrips (s : State) (pr : Nat) (why : Shutter) : State :=
  let ro := s.presentedOf pr
  let s := s.closeShutter pr why
  let s := (s.event (srcDie (pr / 28)) 0x2A10 []).alarm 3
  match ro, s.chart with
  | some r, some c =>
    if c.placed.contains r || c.lenders.contains r then
      s.regionFault r 0x12 clsD 2 (temp16 (s.rpw pr).temp ++ leBytes 1 (if why = .regulator then 1 else 0))
    else s
  | _, _ => s

def execRegulatorFault (pr : Nat) (s : State) : Host.Outcome State Fault Refusal :=
  if s.pw.railsUp ∧ pr < 28 * s.variant ∧ (s.rpw pr).shutter ≠ .regulator ∧ (s.rpw pr).shutter ≠ .tripped then
    .next (s.regionTrips pr .regulator)
  else .next s

/-- The hardware acts on the region's sensor: 110 °C or more. -/
def execRegionTrip (pr : Nat) (s : State) : Host.Outcome State Fault Refusal :=
  if s.pw.railsUp ∧ pr < 28 * s.variant ∧ 110 * 16 ≤ (s.rpw pr).temp ∧ (s.rpw pr).shutter ≠ .regulator ∧ (s.rpw pr).shutter ≠ .tripped then
    .next (s.regionTrips pr .tripped)
  else .next s

/-- A shutter opens that R391 does not keep closed. -/
def execShutterOpen (pr : Nat) (s : State) : Host.Outcome State Fault Refusal :=
  if s.loopsRun ∧ pr < 28 * s.variant ∧ ¬ s.shutterAllowed pr ∧ (s.rpw pr).shutter = .empty then .next (s.openShutter pr)
  else .next s

/-! ## PCI Express link (11 R339) -/

/-- The link settles at a rate (1-7 as PCIE_SPEED) and a width. -/
def execPcieLinkSettle (speed width : Nat) (s : State) : Host.Outcome State Fault Refusal :=
  if s.helmRuns ∧ 1 ≤ speed ∧ speed ≤ 7 ∧ (width = 1 ∨ width = 2 ∨ width = 4 ∨ width = 8) then
    let s := (s.setObj 0x1100 1 speed).setObj 0x1100 2 width
    let s := { s with hi := { s.hi with pcieUp := true } }
    .next (if speed < 5 then s.event srcHost 0x1B03 [] else s)
  else .next s

end Sys2Proof.Machine
end

