-- ==== Sys2Proof/Machine/ResetOps.lean ====
section
/-! DEFINITION. Resets: what each domain clears (15 Table RCV-1), the escalation window (R452) and the
resets a request or an overrun brings (R449-R451). -/

namespace Sys2Proof.Machine

/-! ## What a reset clears -/

/-- The page frames that a unit holds are lost (15 Table RCV-1): the HOST blocks from the one at hand on are paged in again. -/
def State.dropFrames (s : State) (cu : Upd) (x : UnitRec) : State :=
  let u := 2 * x.stack + x.unit
  let y := s.unit u
  s.setUnit u { y with paged := min y.paged (cu.hostBefore x y.pos), filled := false, backed := false }

/-- Stream positions and fetches of a region's tier engine, and the page frames it holds. -/
def State.clearTier (s : State) (pr : Nat) : State :=
  match s.presentedOf pr, s.chart with
  | some r, some c =>
    let x := s.region r
    let s := s.setRegion r { x with fills := [], ready := false, stale := x.stale + x.fills.length }
    let s := (match c.upd with
     | some u => forEach (u.units.filter (fun x => decide (pagerOf (2 * x.stack + x.unit) = r))) s (fun s x => s.dropFrames u x)
     | none => s)
    (match c.tier with
     | some t =>
       forEach (t.streams.zipIdx.filter (fun x => decide (tileRegion (c.tileList.getD x.1.tile 0) = r))) s
         (fun s x => s.setTstream x.2 {})
     | none => s)
  | _, _ => s

/-- A tap whose link engine is reset: what it holds of the interval is gone, the pass up to the fault stays in view of a waypoint that
a partner has completed (15 R441). -/
def Tap.reset (t : Tap) : Tap := { t with queue := [], sent := 0, recvd := 0, early := 0, pcount := none }

/-- Buffers, sequence numbers, credits and K/V sequencer of a link engine; PHY training is kept. -/
def Port.reset (x : Port) : Port :=
  let y := x.restart
  -- what the Helm has still to announce and what a COPY has still to send stays (15 R441, 11 R353)
  let replay := (tget [] y.sendq 0).filter (fun (f : Flit) => decide (f.type = 9))
  let kept : Tab (List Flit) := [(0, replay), (7, tget [] y.sendq 7)]
  { y with
    genSend := some false, startq := []
    sendq := kept.filter (fun q => !q.2.isEmpty)
    taps := x.taps.map (fun (kv : Nat × Tap) => (kv.1, kv.2.reset)) }

/-- The barrier where a link engine is reset: what has been heard is gone; under a RUN the Helm still knows what it has combined (15 R441). -/
def Barrier.reset (b : Barrier) (running : Bool) : Barrier := if running then { b with heard := [] } else {}

/-- What a link engine's reset clears (15 Table RCV-1). -/
def State.clearLink (s : State) (p : Nat) : State :=
  let s := s.modPort p Port.reset
  { s with redn := { s.redn with barrier := s.redn.barrier.reset s.running } }

/-- Commit progress of an update unit. -/
def State.clearUnit (s : State) (u : Nat) : State :=
  let x := s.unit u
  s.setUnit u { x with active := false, pos := 0, consts := [], ready := false }

/-- A request at a door that a reset of stack `i` discards (15 R432); the Helm's own writes, of the journal and of dumps, it sends again
(DESIGN CHOICE, log 123). -/
def Held.dropped (h : Held) (i : Nat) : Bool :=
  decide (h.addr / 2 ^ 36 ≤ i ∧ i ≤ (h.addr + h.len - 1) / 2 ^ 36 ∧ h.by' ≠ .helm)

/-- What a domain's reset clears, apart from the domains it encloses; a stack's door discards the requests it holds (15 R432). -/
def State.clearDomain (s : State) (k : DomKind) (i : Nat) : State :=
  match k with
  | .dataflow =>
    (match s.presentedOf i with
     | some r =>
       let s := s.clearDataflow r
       { s with transom := s.transom.filter (fun e => decide (tileRegion (e.1 / 4) ≠ r)) }
     | none => s)
  | .tier => s.clearTier i
  | .link => s.clearLink i
  | .update => s.clearUnit i
  | .stack => { s with hi := { s.hi with held := s.hi.held.filter (fun h => !h.dropped i) } }
  | .die => s.dieRepair i
  | .module => { s with redn := { ran := s.redn.ran } }

/-- Everything a reset of a domain clears (15 R428). -/
def State.clearAll (s : State) (k : DomKind) (i : Nat) : State :=
  forEach (domAll s.variant k i).reverse s (fun s d => s.clearDomain d.1 d.2)

/-- The bound of a domain's reset in ns (15 Table RCV-1). -/
def domBound : DomKind → Nat
  | .die => 5000000
  | .module => 50000000
  | _ => 200000

/-- The die an engine domain lies on. -/
def domDie : DomKind → Nat → Nat
  | .dataflow, i => i / 28
  | .tier, i => i / 28
  | .link, i => i / 2
  | .update, i => i / 8
  | .stack, i => i / 4
  | .die, i => i
  | .module, _ => 0

/-! ## Requested and escalated resets -/

/-- A power cycle is issued (15 R449, R451): event, counter, stamp; the Helm then drives it, after `self`, the DICT_SET that asks for it
(0: none). -/
def State.issueCycle (s : State) (cause self : Nat) : State :=
  if s.rcv.cycleDue then s
  else
    let s := s.traceRec srcHelm trReset (leBytes 2 powerKey)
    let s := (s.bump 0x6401 4 32 1).event srcHelm 0x6A07 []
    let s := s.enterWindow cause
    { s with rcv := { s.rcv with cycleDue := true, cycleBy := self } }

/-- The earlier of two stop points, each with the ABORT that asked for it; of two at one waypoint the first stands. -/
def earlierStop (old : Option Nat) (oldBy at' by' : Nat) : Option Nat × Nat :=
  match old with
  | some n => if n ≤ at' then (some n, oldBy) else (some at', by')
  | none => (some at', by')

/-- The RUN stops at the earliest stop point that any ABORT requests (11 R354). -/
def Run.stopWith (r : Run) (at' by' : Nat) : Run :=
  { r with stopAt := (earlierStop r.stopAt r.stopBy at' by').1, stopBy := (earlierStop r.stopAt r.stopBy at' by').2 }

/-- Where MODE 1 stops a RUN (11 R354): at once, or with a commit decided at the waypoint that ends the training step. -/
def State.immediateStop (s : State) : Option Nat :=
  match s.chart with
  | some c => if s.commitPending then some (c.stepEndOf s.wp.count) else none
  | none => none

/-- The engines are reset under a RUN that goes on to its stop point: as a replay (log 103). -/
def State.resetUnderRun (s : State) (at' : Nat) : State :=
  let s := { s with run := s.run.map (fun (r : Run) => r.stopWith at' 0) }
  let s := if s.rcv.phase = .replaying then s else s.haltForReplay
  (s.closeDoors s.engineDomains).issueResets s.engineDomains

/-- The RUN that a requested reset ends completes after the request's command, `self` (15 R451). -/
def State.runAfter (s : State) (self : Nat) : State :=
  match s.run with | some r => s.modCmd r.seq (fun c => { c with after := self }) | none => s

/-- RESET_REQUEST 1 (15 R451): an engine reset of every engine domain; a RUN stops as under ABORT with
MODE 1, and its command completes after the request's, `self`. No ABORT ends it: DETAIL is 0 (DESIGN CHOICE, log 135). -/
def State.requestEngines (s : State) (self : Nat) : State :=
  let s := s.runAfter self
  match (if s.running then s.immediateStop else none) with
  | some w => s.resetUnderRun w
  | none =>
  let s := s.closeDoors s.engineDomains
  let s := s.issueResets s.engineDomains
  let s := s.endRun 0x0C 0
  { s with rcv := { s.rcv with phase := .resetOnly, incident := 0, linkHold := false } }

/-- RESET_REQUEST 2: a module reset; every command in progress but the request itself completes with
ABORTED, after it, the chart stays loaded. No ABORT ends them: DETAIL is 0 (DESIGN CHOICE, log 135). -/
def State.requestModule (s : State) (self : Nat) : State :=
  let s := (s.issueModule 0xFF).runAfter self
  let s := s.endRun 0x0C 0
  let cs := s.hi.cmds.map (fun c : Cmd =>
    if c.ended ∨ c.seq = self then c else { c with ended := true, code := 0x0C, detail := 0, result := 0, after := self })
  let s := (s.setCmds cs).forgetCopies
  { s with rcv := { s.rcv with phase := .resetOnly, incident := 0, linkHold := false } }

end Sys2Proof.Machine
end

