-- ==== Sys2Proof/Machine/Host.lean ====
section
/-! DEFINITION. The host interface (11): BAR0 registers, the device memory window, queues, acceptance,
start and completion of commands. -/

namespace Sys2Proof.Machine

/-- BAR0 and BAR2 are served from STANDBY on (16 R474), which recovery mode never reaches (14 R419; log 79). -/
def State.barServed (s : State) : Bool := s.pw.vsb && s.pw.helmUp && !s.helm.recovery

/-! ## BAR0 registers (11 R341-R344) -/

/-- A queue error (11 R344): ERR, INT_CAUSE bit 20, EV 0x1B01. -/
def State.queueError (s : State) (q err : Nat) : State :=
  let s := s.setQueue q { s.queue q with err := err }
  (s.setCause 20).event srcHost 0x1B01 []

/-- A write of SQ_BASE q, or of CQ_BASE q where `cq`. -/
def execSqBaseWrite (q : Nat) (cq : Bool) (v : W64) (s : State) : Host.Outcome State Fault Refusal :=
  if s.barServed then
    let x := s.queue q
    if x.enable then .next (s.queueError q 3)
    else
      let b := v &&& 0xFFFFFFFFFFFFF000#64
      .next (s.setQueue q (if cq then { x with cqBase := b } else { x with sqBase := b }))
  else .next s

def execQCtrlWrite (q : Nat) (v : W32) (s : State) : Host.Outcome State Fault Refusal :=
  if s.barServed then
    let x := s.queue q
    let en := v.getLsbD 0
    let x := { x with irq := v.getLsbD 1, enable := en }
    if en then
      if (s.queue q).enable then .next (s.setQueue q x)
      else .next (s.setQueue q { x with err := 0, sqHead := 0, sqTail := 0, cqHead := 0, cqTail := 0, phase := true })
    else
      -- commands already accepted from the queue continue and post no completion
      let s := s.setQueue q x
      .next (s.setCmds (s.hi.cmds.map (fun c : Cmd => if c.queue = q then { c with post := false } else c)))
  else .next s

def execSqTailDoorbell (q : Nat) (v : W32) (s : State) : Host.Outcome State Fault Refusal :=
  if s.barServed then
    if 4095 < v.toNat then .next (s.queueError q 1)
    else .next (s.setQueue q { s.queue q with sqTail := v.toNat })
  else .next s

def execCqHeadDoorbell (q : Nat) (v : W32) (s : State) : Host.Outcome State Fault Refusal :=
  if s.barServed then
    if 4095 < v.toNat then .next (s.queueError q 1)
    else .next (s.setQueue q { s.queue q with cqHead := v.toNat })
  else .next s

def execWinBaseWrite (v : W64) (s : State) : Host.Outcome State Fault Refusal :=
  if s.barServed ∧ v.toNat % s.hi.bar2Size = 0 then .next { s with hi := { s.hi with winBase := v } } else .next s

def execIntCauseClear (v : W64) (s : State) : Host.Outcome State Fault Refusal :=
  if s.barServed then .next { s with hi := { s.hi with intCause := w1c s.hi.intCause v } } else .next s

def execWinStatusClear (v : W64) (s : State) : Host.Outcome State Fault Refusal :=
  if s.barServed then .next { s with hi := { s.hi with winCode := clearBitsN s.hi.winCode (v.toNat % 256) } } else .next s

/-- Store bytes into the MSI-X table; a pending vector that becomes unmasked is sent. -/
def State.msixWrite (s : State) (i : Nat) (bs : List Byte) : State :=
  let (_, t) := bs.foldl (fun (a : Nat × Tab Byte) b => (a.1 + 1, tset (msixDflt a.1) a.2 a.1 b)) (i, s.hi.msix)
  let s := { s with hi := { s.hi with msix := t } }
  let v := i / 16
  if s.hi.pba.getLsbD v ∧ ¬ (s.msixByte (16 * v + 12)).getLsbD 0 then
    let s := { s with hi := { s.hi with pba := s.hi.pba &&& ~~~(1#64 <<< v) } }
    s.raiseVector v
  else s

/-- The state a meaning leaves; a BAR0 write ends in no stop. -/
def afterWrite (o : Host.Outcome State Fault Refusal) (s : State) : State :=
  match o with
  | .next u => u
  | _ => s

/-- A 64-bit register with `bytes` bytes of it, from byte `o` on, replaced by those of v. -/
def patch64 (old : W64) (o bytes : Nat) (v : W64) : W64 :=
  BitVec.ofNat 64 (leVal (patchAt (leBytes 8 old.toNat) o (leBytes bytes v.toNat)))

/-- A write among the registers of queue q, `o` from SQ_BASE q (Table HOST-2). -/
def State.queueBlockWrite (s : State) (q o : Nat) (v : W64) (bytes : Nat) : State :=
  if o < 8 then afterWrite (execSqBaseWrite q false (patch64 (s.queue q).sqBase o bytes v) s) s
  else if o < 16 then afterWrite (execSqBaseWrite q true (patch64 (s.queue q).cqBase (o - 8) bytes v) s) s
  else if o = 16 then afterWrite (execQCtrlWrite q (v.setWidth 32) s) s
  else s

/-- A write of the doorbells of queue q: SQ_TAIL q, CQ_HEAD q, or both. -/
def State.doorbellWrite (s : State) (q o : Nat) (v : W64) (bytes : Nat) : State :=
  if o = 0 then
    let s := afterWrite (execSqTailDoorbell q (v.setWidth 32) s) s
    if bytes = 8 then afterWrite (execCqHeadDoorbell q ((v >>> 32).setWidth 32) s) s else s
  else afterWrite (execCqHeadDoorbell q (v.setWidth 32) s) s

/-- A BAR0 write of 4 or 8 aligned bytes (11 R341): INT_ENABLE and the MSI-X table store what is written, a register with a behaviour
of its own acts as it does, a reserved or RO offset ignores the write (00 R14). -/
def execBar0RegisterWrite (offset : Nat) (v : W64) (bytes : Nat) (s : State) : Host.Outcome State Fault Refusal :=
  if s.barServed ∧ (bytes = 4 ∨ bytes = 8) ∧ offset % bytes = 0 then
    let a := offset / 8 * 8
    let o := offset % 8
    let low := BitVec.ofNat 64 (v.toNat % 256 ^ bytes * 256 ^ o)
    if a = 0x10 then .next (afterWrite (execIntCauseClear low s) s)
    else if a = 0x18 then .next { s with hi := { s.hi with intEnable := patch64 s.hi.intEnable o bytes v } }
    else if a = 0x20 then .next (afterWrite (execWinBaseWrite (patch64 s.hi.winBase o bytes v) s) s)
    else if a = 0x28 then .next (afterWrite (execWinStatusClear low s) s)
    else if 0x1000 ≤ offset ∧ offset < 0x1400 then .next (s.queueBlockWrite ((offset - 0x1000) / 64) ((offset - 0x1000) % 64) v bytes)
    else if 0x2000 ≤ offset ∧ offset < 0x2080 then .next (s.doorbellWrite ((offset - 0x2000) / 8) o v bytes)
    else if 0x10000 ≤ offset ∧ offset + bytes ≤ 0x10400 then .next (s.msixWrite (offset - 0x10000) (leBytes bytes v.toNat))
    else .next s
  else .next s

/-! ## The device memory window (11 R342) -/

/-- Device memory is offline (11 R342). -/
def State.memOffline (s : State) : Bool :=
  match s.pw.state with
  | .standby => true | .tripped => true | .cycling => true
  | .stopping => decide (s.pw.stopStep = 5) || !s.pw.stacksUp
  | _ => !s.pw.stacksUp

/-- A refused access: CODE and ADDR when CODE was zero, count, INT_CAUSE bit 21, EV 0x1B04. -/
def State.winRefuse (s : State) (code a : Nat) : State :=
  let s := if s.hi.winCode = 0 then { s with hi := { s.hi with winCode := code, winAddr := a / 256 } } else s
  ((s.bump 0x9070 2 64 1).setCause 21).event srcHost 0x1B04 []

/-- WIN_STATUS as it reads (11 Table HOST-3). -/
def State.winStatus (s : State) : W64 := BitVec.ofNat 64 (s.hi.winAddr * 256 + s.hi.winCode)

def State.setReply (s : State) (r : Option (List Byte)) : State := { s with hi := { s.hi with reply := r } }

/-- A host read of `n` bytes at BAR2 offset x: the stack's contents, or Unsupported Request; it waits at a closed door. `ue`: the
stack meets an error that it cannot correct, STACK_UE; what the host reads then no rule gives (15 R433; a free value, log 122). -/
def execBar2Read (offset n : Nat) (ue : Bool) (s : State) : Host.Outcome State Fault Refusal :=
  if s.barServed ∧ offset + n ≤ s.hi.bar2Size then
    let a := s.hi.winBase.toNat + offset
    if ¬ s.inDevice a n then .next ((s.winRefuse 0x03 a).setReply none)
    else if s.memOffline then .next ((s.winRefuse 0x11 a).setReply none)
    else if s.stackHeld 0 a n then .next (s.hold .host a n none)
    else if ue then
      .next (({ s with freeCount := s.freeCount + 1 } : State).stackUe a |>.setReply (some ((List.range n).map (fun i => Config.lostByte (s.freeCount + 1) (a + i)))))
    else .next (s.setReply (some (s.devRead a n)))
  else .next s

def execBar2Write (offset : Nat) (data : List Byte) (s : State) : Host.Outcome State Fault Refusal :=
  if s.barServed ∧ offset + data.length ≤ s.hi.bar2Size then
    let a := s.hi.winBase.toNat + offset
    if ¬ s.inDevice a data.length then .next (s.winRefuse 0x03 a)
    else if s.writeRefused a data.length then .next (s.winRefuse 0x04 a)
    else if s.memOffline then .next (s.winRefuse 0x11 a)
    else .next (s.devSend .host a data)
  else .next s

/-! ## Reset of the host interface (11 R340) -/

def execFunctionLevelReset (s : State) : Host.Outcome State Fault Refusal :=
  if s.barServed then
    .next { s with hi := { s.hi with
      intCause := 0, intEnable := 0, winBase := 0, winCode := 0, winAddr := 0, queues := [], msix := [], pba := 0,
      cmds := s.hi.cmds.map (fun c : Cmd => { c with post := false }) } }
  else .next s

/-! ## Acceptance (11 R345-R349, R359, R360) -/

/-- The bytes 0x08 on that a command uses as arguments, as (offset, length) (11 Table HOST-5). -/
def usedFields (op flags : Nat) : List (Nat × Nat) :=
  match op with
  | 1 => [(8, 8)]
  | 3 => [(8, 1), (0xA, 2), (0x10, 8), (0x18, 8)]
  | 4 => [(8, 8)]
  | 5 => [(8, 8), (0x10, 8), (0x18, 8), (0x20, 1), (0x21, 1)]
  | 7 => [(8, 2), (0xA, 1), (0xC, 4), (0x10, 8)]
  | 8 => [(8, 2), (0xA, 1), (0xC, 4), (0x10, 8)] ++ (if flags % 2 = 0 then [(0x18, 8)] else [])
  | 9 => [(8, 8)]
  | 0xA => [(8, 1), (9, 1), (0xA, 2), (0x10, 8)]
  | _ => []

/-- The first reserved byte that is not zero, from offset 0x04 on, or a reserved flag at 0x01. -/
def reservedBad (e : List Byte) : Option Nat :=
  let op := fieldAt e 0 1
  let fl := fieldAt e 1 1
  if fl / 2 ≠ 0 ∨ (fl % 2 = 1 ∧ op ≠ 8) then some 1
  else if fieldAt e 4 4 ≠ 0 then some 4
  else
    (List.range 56).findSome? (fun i =>
      let o := 8 + i
      if (usedFields op fl).any (fun f => decide (f.1 ≤ o ∧ o < f.1 + f.2)) then none
      else if fieldAt e o 1 ≠ 0 then some o else none)

/-- The first argument that is invalid in itself (11 Table HOST-5, R351-R354); the variant has `2 * v` ports (00 R2). PORT of a COPY whose
destination is not space 2 is a field that it does not use, and reserved (R347; DEDUCED, log 67). -/
def argBad (v : Nat) (e : List Byte) : Option Nat :=
  match fieldAt e 0 1 with
  | 1 => if fieldAt e 8 8 % 4096 ≠ 0 then some 8 else none
  | 3 => if 1 < fieldAt e 8 1 then some 8 else if fieldAt e 8 1 = 1 ∧ 15 < fieldAt e 0xA 2 then some 0xA else none
  | 4 => if fieldAt e 8 8 = 0 ∨ 2 ^ 40 < fieldAt e 8 8 then some 8 else none
  | 5 =>
    let src := fieldAt e 0x20 1 % 16
    let dst := fieldAt e 0x20 1 / 16
    if src = 0 ∧ dst = 0 ∧ overlaps (fieldAt e 8 8) (fieldAt e 0x18 8) (fieldAt e 0x10 8) (fieldAt e 0x18 8) then some 0x10
    else if fieldAt e 0x18 8 = 0 ∨ 2 ^ 40 < fieldAt e 0x18 8 then some 0x18
    else if 1 < src ∨ 2 < dst ∨ (src = 1 ∧ dst = 1) then some 0x20
    else if (dst ≠ 2 ∧ fieldAt e 0x21 1 ≠ 0) ∨ (dst = 2 ∧ 2 * v ≤ fieldAt e 0x21 1) then some 0x21
    else none
  | 0xA => if 15 < fieldAt e 8 1 ∧ fieldAt e 8 1 ≠ 0xFF then some 8 else if 1 < fieldAt e 9 1 then some 9 else none
  | _ => none

/-- The lower of two offsets. -/
def firstOf (a b : Option Nat) : Option Nat :=
  match a, b with
  | some x, some y => some (min x y)
  | some x, none => some x
  | none, y => y

/-- The byte offset of the first bad field of an entry, if any (11 Table HOST-7 MALFORMED). -/
def malformedAt (v : Nat) (e : List Byte) : Option Nat := firstOf (reservedBad e) (argBad v e)

/-- STATE of the journal entry in the slot of a sequence number. -/
def State.slotState (s : State) (seq : Nat) : Nat := s.devNat (journalSlot seq + 0xC) 1

/-- The slot of the next SEQ holds a command in progress (11 R360). -/
def State.slotHeld (s : State) : Bool :=
  let st := s.slotState s.hi.jnext
  decide (st = 1 ∨ st = 2 ∨ st = 3 ∨ st = 6)

/-- Completions that queue q holds, and those its commands in progress will still post. -/
def State.cqUsed (s : State) (q : Nat) : Nat :=
  let x := s.queue q
  (x.cqTail + 4096 - x.cqHead) % 4096 + (s.hi.cmds.filter (fun c => decide (c.queue = q) && c.post)).length

/-- The Helm may fetch from queue q (11 R345, R348; 13 R399): it reads the journal slot first, whose stack's door has to be open (15 R431). -/
def State.mayAccept (s : State) (q : Nat) : Bool :=
  let x := s.queue q
  s.helmRuns && s.hi.ready && x.enable && decide (x.err = 0) && decide (x.sqHead ≠ x.sqTail) && decide (s.cqUsed q < 4095) &&
    !s.journalHeld s.hi.jnext

/-- What acceptance itself decides of an entry: code and detail, if it fails there. -/
def State.acceptFails (s : State) (e : List Byte) : Option (Nat × Nat) :=
  let op := fieldAt e 0 1
  if s.oos then some (0x0E, 0)
  else if op = 0 ∨ 0xA < op then some (0x02, op)
  else
    match malformedAt s.variant e with
    | some o => some (0x01, o)
    | none => none

/-- CONTEXT of a journal entry (11 Table HOST-10). -/
def State.cmdContext (s : State) (e : List Byte) : Nat :=
  let op := fieldAt e 0 1
  if op = 9 then fieldAt e 8 8 else if op = 2 ∨ op = 3 ∨ op = 4 then s.chartId else 0

/-- Accept the entry at SQ_HEAD: SEQ, journal entry ACCEPTED, ABORT started at once (11 R345, R346). -/
def State.accept (s : State) (q : Nat) : State :=
  let x := s.queue q
  let e := s.hostMem.readN (x.sqBase.toNat + 64 * x.sqHead) 64
  let seq := s.hi.jnext
  let c : Cmd := { seq := seq, queue := q, entry := e, epoch := s.obj 0x1101 1, jstate := 1, context := s.cmdContext e, tAccept := s.now
                   wpt := if fieldAt e 0 1 = 4 then s.wp.count else 0 }
  let s := s.setQueue q { x with sqHead := (x.sqHead + 1) % 4096 }
  let s := { s with hi := { s.hi with jnext := seq + 1, jheld := false, cmds := s.hi.cmds ++ [c] } }
  let s := (s.bump 0x9070 3 64 1).journal c
  match s.acceptFails e with
  | some (code, d) => s.endCmd seq code d 0
  | none => if fieldAt e 0 1 = 0xA then s.journalCmd seq (fun c => { c with jstate := 2 }) else s

/-- COMMAND_ACCEPT (R345, R360); the Helm's read of the journal slot may meet a stack error (15 R433). -/
def execCommandAccept (q : Nat) (pcieError ue : Bool) (s : State) : Host.Outcome State Fault Refusal :=
  if s.mayAccept q then
    if ue then .next (s.stackUe (journalSlot s.hi.jnext))
    else if s.slotHeld then
      if s.hi.jheld then .next s
      else
        let s := { s with hi := { s.hi with jheld := true } }
        .next ((s.setCause 20).event srcHost 0x1B02 [])
    else if pcieError then .next (s.queueError q 2)
    else .next (s.accept q)
  else .next s

/-! ## Start and completion (11 R346, R348) -/

/-- Chart commands: CHART_LOAD, CHART_UNLOAD, BIND, RUN. -/
def isChartOp (op : Nat) : Bool := decide (1 ≤ op ∧ op ≤ 4)

/-- Another chart command is in progress: started and not complete (11 R346, R348). -/
def State.chartBusy (s : State) (seq : Nat) : Bool :=
  s.hi.cmds.any (fun c => isChartOp c.opcode && decide (c.seq ≠ seq ∧ c.jstate ≠ 1))

def execCommandStart (seq : Nat) (s : State) : Host.Outcome State Fault Refusal :=
  match s.cmd seq with
  | none => .next s
  | some c =>
    if s.helmRuns ∧ c.jstate = 1 ∧ ¬ c.ended ∧ ¬ s.hi.cmds.any (fun d => decide (d.queue = c.queue ∧ d.seq < seq)) then
      let s := s.journalCmd seq (fun c => { c with
        jstate := 2, context := if 2 ≤ c.opcode ∧ c.opcode ≤ 4 then s.chartId else c.context, wpt := if c.opcode = 4 then s.wp.count else 0 })
      if isChartOp c.opcode ∧ s.chartBusy seq then .next (s.endCmd seq 0x05 0 0) else .next s
    else .next s

/-- A completion entry (11 Table HOST-6). -/
def completionEntry (c : Cmd) (sqHead : Nat) (phase : Bool) : List Byte :=
  leBytes 8 c.result ++ leBytes 8 c.seq ++ leBytes 2 c.cid ++ leBytes 1 c.queue ++ leBytes 1 c.code ++ leBytes 4 c.detail ++
    leBytes 2 sqHead ++ leBytes 1 ((if phase then 1 else 0) + (if c.replays = 0 then 0 else 2)) ++ zeros 1 ++ leBytes 4 c.replays

/-- Post a completion at CQ_TAIL and raise vector q (11 R348). -/
def State.post (s : State) (c : Cmd) (pcieError : Bool) : State :=
  let x := s.queue c.queue
  if c.post ∧ x.enable then
    if pcieError then s.queueError c.queue 2
    else
      let s := { s with hostMem := s.hostMem.writeN (x.cqBase.toNat + 32 * x.cqTail) (completionEntry c x.sqHead x.phase) }
      let s := s.setQueue c.queue { x with cqTail := (x.cqTail + 1) % 4096, phase := (if x.cqTail = 4095 then !x.phase else x.phase) }
      if x.irq then s.raiseVector c.queue else s
  else s

/-- A command whose outcome is fixed may complete: the Helm runs, its journal entry can be written (11 R359, 15 R431), and the DICT_SET of
the reset that ends it has completed (15 R451). -/
def State.mayComplete (s : State) (c : Cmd) : Bool :=
  c.ended && s.helmRuns && !s.journalHeld c.seq && !(decide (c.after ≠ 0) && (s.cmd c.after).isSome)

def execCommandComplete (seq : Nat) (pcieError : Bool) (s : State) : Host.Outcome State Fault Refusal :=
  match s.cmd seq with
  | none => .next s
  | some c =>
    if s.mayComplete c then
      let c := { c with jstate := (if c.code = 0 then 4 else 5), steps := (if c.opcode = 4 then c.result else c.steps) }
      let s := s.journal c
      let s := s.setCmds (s.hi.cmds.filter (fun d => decide (d.seq ≠ seq)))
      let s := if s.hi.jheld ∧ ¬ s.slotHeld then { s with hi := { s.hi with jheld := false } } else s
      .next (s.post c pcieError)
    else .next s

/-! ## Registers as they read (11 Tables HOST-2, HOST-3) -/

/-- MOD_STATE. -/
def State.modState (s : State) : Nat :=
  (if s.oos then 2 ^ 31 else 0) + (if s.hi.jheld then 2 ^ 30 else 0) + (if s.hi.ready then 8 else 0) +
    (if s.running then 4 else 0) + (if s.chart.isSome then 2 else 0)

/-- ID: variant, stepping, control space version. -/
def State.idReg (s : State) : Nat := s.variant * 2 ^ 24 + 0xB1 * 2 ^ 16 + 2

/-- Q_CTRL q and Q_STATUS q. -/
def State.qCtrl (s : State) (q : Nat) : Nat :=
  (if (s.queue q).irq then 2 else 0) + (if (s.queue q).enable then 1 else 0)
def State.qStatus (s : State) (q : Nat) : Nat :=
  let x := s.queue q
  x.err * 2 ^ 28 + x.sqHead * 2 ^ 16 + x.cqTail * 2 ^ 4 + (if x.enable ∧ x.err = 0 then 1 else 0)

end Sys2Proof.Machine
end

