-- ==== Sys2Proof/Machine/Release.lean ====
section
/-! DEFINITION. The release of a waypoint (03 R99, R101; 04 R128, Table FLOW-1; 05 R153; 06 R190). -/

namespace Sys2Proof.Machine

/-- A tile that holds is released from waypoint w (R99, R101, R128, R190; 04 Table FLOW-1). -/
def Tile.release (x : Tile) (m : TileImg) (w : Nat) : Tile :=
  if x.st = .hold then
    let steer := (List.range 4).foldl (fun t u => tmod {} t u (fun v : Steer => { v with pat := 0 })) x.steer
    let x := { x with rng := rngLoad m.seed w, drainScale := 0x3F800000, steer := steer }
    (x.ringReset m).proceed m x.entry
  else x

/-- The region controllers release the last completed waypoint. -/
def State.releaseTiles (s : State) (c : Chart) : State :=
  let s := forEach (c.tileList.zip c.tiles) s (fun s x => (s.putTile x.1 ((s.tile x.1).release x.2 s.wp.count)).progress x.1)
  { s with wp := { s.wp with released := true } }

/-- The tiles return to IDLE when the RUN ends (04 Table FLOW-1); a tile that holds at a waypoint within a
training step goes on holding. -/
def State.idleTiles (s : State) (c : Chart) : State :=
  forEach c.tileList s (fun s t => s.modTile t (fun x => if x.st = .done then { x with st := .idle, sxcap := none } else x))

end Sys2Proof.Machine
end

