-- ==== Sys2Proof/Machine/Links.lean ====
section
/-! DEFINITION. The commands of the link ports (10 R311-R338) and of the taps (08 R254-R277). -/

namespace Sys2Proof.Machine

/-! ## Reference clock (10 R337) -/

/-- REFCLK_LOST (R337): every port that is up or trains goes DOWN as R331 gives, with its event and the fault LINK_DOWN. -/
def execRefclkLost (s : State) : Host.Outcome State Fault Refusal :=
  if s.pw.vsb ∧ s.link.refclk then
    let s := ({ s with link := { s.link with refclk := false } } : State).event srcHelm 0x5B04 (leBytes 8 s.now)
    .next (forEach s.ports s (fun s p =>
      let was := (s.port p).st
      if was = .down then s
      else (s.portDown p 1).linkFault p 0x43 []))
  else .next s

def execRefclkRestored (s : State) : Host.Outcome State Fault Refusal :=
  if s.pw.vsb ∧ ¬ s.link.refclk then
    let s := ({ s with link := { s.link with refclk := true } } : State).event srcHelm 0x5B05 (leBytes 8 s.now)
    .next (forEach s.ports s (fun s p => s.modPort p (fun x => { x with retryAt := none })))
  else .next s

/-! ## Training (10 R320, R321) -/

/-- A port may start training (10 R320): DOWN, delay over, enabled, powered, with a reference, on an axis of length 2 or more; a port that has
failed with the stored values retries with them (10 R313). -/
def State.canTrain (s : State) (p : Nat) : Bool :=
  decide (p < 2 * s.variant) && decide ((s.port p).st = .down) && s.linkEnabled p && s.linkPower && s.link.refclk &&
    (match (s.port p).retryAt with | none => decide (2 ≤ s.axisLen (portAxis p)) | some t => decide (t ≤ s.now))

def execPortTrainStart (p : Nat) (s : State) : Host.Outcome State Fault Refusal :=
  if s.canTrain p then
    let s := s.torusEffect
    if (s.port p).st = .down ∧ ¬ s.torusBlocked p then
      if 2 ≤ s.axisLen (portAxis p) then
        .next ((s.portTo p .detect).modPort p (fun x => { x with retryAt := none, reversed := false, inverted := 0, rate := s.obj 0x5011 0 }))
      else .next (s.modPort p (fun x => { x with retryAt := none }))
    else .next s
  else .next s

/-- DETECT (R320): a full training takes all four lanes, since the narrower widths serve only after degradation (Table LINK-2). -/
def execDetect (p lanes : Nat) (reversed : Bool) (inverted : Nat) (s : State) : Host.Outcome State Fault Refusal :=
  if (s.port p).st = .detect ∧ lanes % 16 = 15 then
    .next ((s.portTo p .equalise).modPort p
      (fun x => { x with rxMask := 15, txMask := 15, reversed := reversed, inverted := inverted }))
  else .next s

/-- EQUALISE (R320): every lane meets the target; `precoded` is the set of lanes for which precoding is agreed. -/
def execEqualise (p precoded : Nat) (s : State) : Host.Outcome State Fault Refusal :=
  if (s.port p).st = .equalise then .next ((s.portTo p .align).modPort p (fun x => { x.unframed with precoded := precoded % 16 })) else .next s

def execAlign (p : Nat) (s : State) : Host.Outcome State Fault Refusal :=
  if (s.port p).st = .align then .next (s.portTo p .fecLock) else .next s

def execFecLock (p : Nat) (s : State) : Host.Outcome State Fault Refusal :=
  if (s.port p).st = .fecLock then .next (s.portTo p .identify) else .next s

/-- POS of the partner on the port's axis (10 Table LINK-8). -/
def partnerPos (L pos p : Nat) : Nat := if p % 2 = 0 then (pos + 1) % L else (pos + L - 1) % L

/-- The first check of Table LINK-8 that a partner's IDENT fails, 0 for none. -/
def State.identFail (s : State) (p : Nat) (d : List Byte) : Nat :=
  let a := portAxis p
  if fieldAt d 0 1 ≠ s.variant then 5
  else if fieldAt d 1 1 ≠ 0xB1 then 6
  else if fieldAt d 2 1 ≠ s.fwVer s.helm.running / 2 ^ 24 then 6
  else if fieldAt d 3 1 ≠ p ^^^ 1 then 7
  else if (List.range 4).any (fun i => decide (fieldAt d (4 + i) 1 ≠ s.axisLen i)) then 8
  else if (List.range 4).any (fun i =>
      decide (fieldAt d (8 + i) 1 ≠ (if i = a then partnerPos (s.axisLen a) (s.axisPos a) p else s.axisPos i))) then 8
  else if fieldAt d 0x10 8 = s.serial.toNat then 9
  else 0

/-- The replay that waits for the ports goes on when every one is back (15 R444). -/
def State.linkRelease (s : State) : State :=
  if s.rcv.linkHold ∧ s.linksBack then { s with rcv := { s.rcv with linkHold := false } } else s

/-- IDENTIFY (R321): two IDENT flits have been received; where their payloads are identical, the partner's values are checked. The IDENT that
PARTNER_SERIAL reports is one that has passed every check (DESIGN CHOICE, log 131). -/
def execIdentify (p : Nat) (first ident : List Byte) (s : State) : Host.Outcome State Fault Refusal :=
  if (s.port p).st = .identify ∧ first = ident then
    let code := s.identFail p ident
    if code = 0 then
      let s := (s.portTo p .active).modPort p (fun x => { x.restart with ident := ident, genSend := some false })
      let s := s.event (srcLink p) 0x5B00 (leBytes 1 p ++ leBytes 1 ((s.port p).txMask + 16 * (s.port p).rxMask) ++ bytesAt ident 0x10 8)
      .next s.linkRelease
    else .next (s.trainFail p code)
  else .next s

/-- The bound of a training state in ns and the code of its failure (10 Tables LINK-7, LINK-8). -/
def trainBound : PortSt → Option (Nat × Nat)
  | .detect => some (10000000, 1)
  | .equalise => some (1500000000, 2)
  | .align => some (10000000, 3)
  | .fecLock => some (10000000, 4)
  | .identify => some (10000000, 0)
  | _ => none

/-- A training state has exceeded its bound. The spec gives no code for IDENTIFY: a free value (log 15). -/
def execTrainStateTimeout (p : Nat) (s : State) : Host.Outcome State Fault Refusal :=
  match trainBound (s.port p).st with
  | none => .next s
  | some (b, code) =>
    if (s.port p).since + b < s.now then
      if code = 0 then
        .next (({ s with freeCount := s.freeCount + 1 } : State).trainFail p ((Config.freeValue s.freeCount).toNat % 256))
      else .next (s.trainFail p code)
    else .next s

/-! ## Generations (10 R330) -/

def execGenerationExchange (p : Nat) (s : State) : Host.Outcome State Fault Refusal :=
  if (s.port p).st = .active ∧ (s.port p).genOpen ∧ ¬ s.linkReset p then
    .next (s.modPort p (fun x => { x.restart with genSend := some false }))
  else .next s

/-- GEN (R330, steps 3 and 4); on another virtual channel than VC0 it is discarded with a NAK (R328). -/
def execGen (p : Nat) (f : Flit) (s : State) : Host.Outcome State Fault Refusal :=
  let x := s.port p
  if x.st = .active ∧ ¬ s.linkReset p ∧ f.type = 0x0E then
    if f.vc ≠ 0 then .next (s.sendNak p true) else
    let tag := fieldAt f.payload 0 1
    let echo := fieldAt f.payload 1 1
    if echo = 1 then
      if x.genOpen then .next (s.setPort p (x.exchanged tag)) else .next s
    else
      let x := if x.genOpen then x else x.restart
      .next (s.setPort p { x.exchanged tag with genSend := some true })
  else .next s

/-! ## Retraining (10 R331, R333) -/

/-- The condition of a cause for leaving ACTIVE (10 R331). -/
def State.retrainWhy (s : State) (p : Nat) (cause : RetrainCause) : Bool :=
  let x := s.port p
  match cause with
  | .naks => decide (8 ≤ x.nakRun)
  | .retries => decide (s.obj 0x5030 0 < (x.nakTimes.filter (fun t => inWindow 1000000 s.now t)).length)
  | .lock => true

/-- One direction degrades to a lane mask (10 R333); the code of a direction is a free value. -/
def State.degrade (s : State) (p dir was new : Nat) : State :=
  if new = was ∨ new = 0 then s
  else (s.event (srcLink p) 0x5B02 (leBytes 1 p ++ [Config.eventField 0x5B02 dir] ++ leBytes 1 new)).bump (0x5020 + p) 9 32 1

/-- RETRAIN (R331, R333). Retries and NAKs from before it count no more for the 1 ms and the 8 in succession after it (DESIGN CHOICE, log
130). -/
def execRetrain (p : Nat) (cause : RetrainCause) (txHealthy rxHealthy : Nat) (s : State) : Host.Outcome State Fault Refusal :=
  let x := s.port p
  if x.st = .active ∧ s.retrainWhy p cause then
    let again := match x.retrainAt with | some t => inWindow 1000000000 s.now t | none => false
    let s := (s.portTo p .retrain).modPort p (fun x => { x.unframed with retrainAt := some s.now, again := again, nakRun := 0, nakTimes := [] })
    if cause = .naks then .next s
    else
      let tx := narrowTo x.txMask txHealthy
      let rx := narrowTo x.rxMask rxHealthy
      let s := (s.degrade p 0 x.txMask tx).degrade p 1 x.rxMask rx
      .next (s.modPort p (fun y => { y with txMask := tx, rxMask := rx }))
  else .next s

/-- A RETRAIN has failed (10 R331): over 50 µs, the second within 1 s, or no healthy lane. -/
def State.retrainFailed (s : State) (p : Nat) : Bool :=
  let x := s.port p
  decide (x.st = .retrain) && (x.again || decide (x.since + 50000 < s.now) || decide (x.txMask = 0) || decide (x.rxMask = 0))

def execRetrainComplete (p : Nat) (s : State) : Host.Outcome State Fault Refusal :=
  if (s.port p).st = .retrain ∧ ¬ s.retrainFailed p then
    .next ((s.portTo p .active).modPort p (fun x => { x with nakPend := true, nakFor := some x.rxSeq })).linkRelease
  else .next s

def execLinkDown (p : Nat) (s : State) : Host.Outcome State Fault Refusal :=
  if s.retrainFailed p then .next ((s.portDown p 0).linkFault p 0x43 []) else .next s

/-! ## Flits (10 R324, R326, R328) -/

/-- FLIT_TRANSMIT (R317, R324): from ALIGN on the transmitter sends frames, IDLE flits until IDENTIFY. -/
def execFlitTransmit (p : Nat) (s : State) : Host.Outcome State Fault Refusal :=
  if s.linkReset p then .next s
  else match (s.port p).st with
    | .active => .next (s.transmit p)
    | .identify => .next (s.transmit p)
    | .align => .next (s.emit p (mkFlit 0 0 []))
    | .fecLock => .next (s.emit p (mkFlit 0 0 []))
    | _ => .next s

/-- IDLE (R318, R328): its header, which has no GEN, is taken; on another virtual channel than VC0 it is discarded with a NAK. -/
def execIdle (p : Nat) (f : Flit) (s : State) : Host.Outcome State Fault Refusal :=
  let x := s.port p
  if x.st = .active ∧ ¬ s.linkReset p ∧ ¬ x.genOpen ∧ f.type = 0 then
    if f.vc = 0 then .next (s.rxHeader p f) else .next (s.sendNak p true)
  else .next s

/-- TOKEN (R255, R326): tokens of 0 hops reach the tap; where no record binds it they are dropped and their slot is free again (DESIGN
CHOICE, log 128). -/
def execToken (p : Nat) (f : Flit) (s : State) : Host.Outcome State Fault Refusal :=
  .next (s.rxSequenced p f 1 (decide (f.vc = 2)) (fun s =>
    if f.hops = 0 then
      match s.tapRec p 2 with
      | some _ => (s.tapReceive p 2 (flitTokens f)).countTap 2 (flitTokens f).length
      | none => s.modPort p (fun x => x.free 2)
    else s.modPort p (fun x => { x with rxbuf := tmod [] x.rxbuf 2 (· ++ [f]) })))

/-- The tokens a ring port has received of the pass that the next one belongs to, and those up to the waypoint before it. -/
def Tap.passPoint (t : Tap) (reported ends : Bool) : Nat × Nat :=
  if ¬ reported then (t.passRecv, t.baseRecv) else if ends then (t.early, 0) else (t.passRecv + t.early, t.passRecv)

/-- The ring tags a received block is checked against (08 R277). -/
def State.kvExpect (s : State) (p : Nat) (r : RingRec) (n : Nat) : Nat × Nat × Nat × Nat :=
  let L := s.runLen 2
  let i := ((s.port p).tap 1).passPoint s.redn.barrier.reported s.stepEndNext
  let kr := kvRound L r.kvTok r.dkvTok n i.2 i.1
  (r.ring, kr.1, kr.2, modSub L (s.runPos 2) (kr.2 + 1))

/-- KVTOKEN (R277): the tags of a ring's block are checked; a tap that no ring record names has no tags to check (log 125). Tokens for a tap
that no record binds are dropped (DESIGN CHOICE, log 128). -/
def execKvtoken (p : Nat) (f : Flit) (s : State) : Host.Outcome State Fault Refusal :=
  .next (s.rxSequenced p f 2 (decide (f.vc = 1)) (fun s =>
    match s.tapRec p 1 with
    | some t =>
      if (match s.ringOf p with | some r => decide (s.kvExpect p r t.rtokens = (f.ring, f.kind, f.round, f.origin)) | none => true) then
        (s.tapReceive p 1 (flitTokens f)).countTap 2 (flitTokens f).length
      else (s.modPort p (fun x => x.free 1)).linkFault p 0x41 []
    | none => s.modPort p (fun x => x.free 1)))

/-! ## Taps -/

/-- Credits a tap needs before it may send (10 R327): two for a USE 3 tap, beyond flits already queued. -/
def State.tapMay (s : State) (p vc : Nat) (r : TapRec) : Bool :=
  let x := s.port p
  let need := if r.use = 3 then 2 else 1
  decide ((tget [] x.sendq vc).length + need ≤ tget 0 x.credits vc)

/-- The hops of the blocks that leave on a tap of axis D in an expert layer (08 R280): its rounds of the dispatch, then the rounds
of the combine that come back this way. Rounds r ≤ L ÷ 2 go out on +D and return on −D with r hops, the others the opposite way with
L − r. -/
def layerHops (L : Nat) (plus : Bool) : List Nat :=
  let near := (List.range (L / 2)).map (· + 1)
  let far := ((List.range (L - 1)).drop (L / 2)).map (fun k => L - 1 - k)
  if plus then near ++ far else far ++ near

/-- HOPS of the next flit of a USE 3 tap: the blocks of an expert layer follow one another, each the same count of tokens, so the
block of token `i` is found from the tokens of one block (08 R280, 10 R326). Where both ports of a direction have such a tap, each carries
whole blocks of its own (DESIGN CHOICE, log 126). -/
def State.tapHops (s : State) (p : Nat) (r : TapRec) : Nat :=
  if r.use ≠ 3 then 0
  else
    match s.chart with
    | some c =>
      (match c.map with
       | some m =>
         (match m.disps with
          | d :: _ =>
            let L := m.len.getD 3 1
            let per := d.rowTok * d.cap * ceilDiv m.experts L
            let hs := layerHops L (decide (p % 2 = 0))
            hs.getD (((s.port p).tap 2).passSent / max per 1 % max hs.length 1) 1 - 1
          | [] => 0)
       | none => 0)
    | none => 0

/-- Tokens of a USE 3 tap left in the round its next token lies in. -/
def State.tapRoundLeft (s : State) (p : Nat) (r : TapRec) : Nat :=
  if r.use ≠ 3 then 3
  else
    match s.chart with
    | some c =>
      (match c.map with
       | some m =>
         (match m.disps with
          | d :: _ =>
            let per := max (d.rowTok * d.cap * ceilDiv m.experts (m.len.getD 3 1)) 1
            per - ((s.port p).tap 2).passSent % per
          | [] => 3)
       | none => 3)
    | none => 3

/-- The tokens the tap tile's output queue holds for the tap. -/
def State.tapWaiting (s : State) (r : TapRec) : List Token :=
  let (t, d) := s.tapTile r
  tget [] (s.tile t).outq (dirIx d)

/-- Take tokens off the tap tile's output queue and queue their flit (10 R319). -/
def State.tapEmit (s : State) (p vc : Nat) (r : TapRec) (k : Nat) (f : Flit) : State :=
  let (t, d) := s.tapTile r
  let s := s.modTile t (fun x => { x with outq := tset [] x.outq (dirIx d) ((tget [] x.outq (dirIx d)).drop k) })
  let s := s.modPort p (fun x =>
    let y := x.tap vc
    x.setTap vc { y with sent := y.sent + k, passSent := y.passSent + k })
  (s.queueFlit p f).countTap 1 k

/-- TAP_SEND (R255, R319): up to three tokens of the tap's queue leave in a flit; on a ring with the tags of R277. A tap of USE 2 that no
ring record names sends its tokens too, and no rule gives its tags: free values (log 125). -/
def execTapSend (p vc : Nat) (s : State) : Host.Outcome State Fault Refusal :=
  match s.tapRec p vc with
  | none => .next s
  | some r =>
    let ts := s.tapWaiting r
    let (t, _) := s.tapTile r
    if ts.isEmpty ∨ (s.port p).st ≠ .active ∨ (s.port p).genOpen ∨ s.linkDoor p ∨ ¬ s.tapMay p vc r ∨
        s.doorClosed .dataflow (s.physOf (tileRegion t)) then .next s
    else if vc = 1 then
      match s.ringOf p with
      | none =>
        let w := Config.freeValue s.freeCount
        let k := min 3 ts.length
        .next (({ s with freeCount := s.freeCount + 1 } : State).tapEmit p vc r k { mkFlit 2 1 (tokenPayload (ts.take k)) with
          ring := bitsOf w.toNat 0 0, kind := bitsOf w.toNat 1 1, round := bitsOf w.toNat 6 2, origin := bitsOf w.toNat 11 7 })
      | some g =>
        let L := s.runLen 2
        let i := ((s.port p).tap 1).passSent
        let kr := kvRound L g.kvTok g.dkvTok r.tokens ((s.port p).tap 1).baseSent i
        let left := kvLeft L g.kvTok g.dkvTok r.tokens i
        let k := min (min 3 left) ts.length
        let f := { mkFlit 2 1 (tokenPayload (ts.take k)) with
          ring := g.ring, kind := kr.1, round := kr.2, origin := modSub L (s.runPos 2) kr.2 }
        let s := s.tapEmit p vc r k f
        .next (if k = left then s.countTap 3 1 else s)
    else
      let k := min (min 3 (s.tapRoundLeft p r)) ts.length
      .next (s.tapEmit p vc r k { mkFlit 1 2 (tokenPayload (ts.take k)) with hops := s.tapHops p r })

/-! ## Start records and interval counts (08 R262, R265) -/

/-- The bound taps: port, virtual channel, record. -/
def State.boundTaps (s : State) : List TapRec :=
  match s.chart with
  | some c => c.taps
  | none => []

/-- A tap's start record matches the RUN (08 R262). -/
def State.startMatches (s : State) (r : TapRec) (n : Nat) : Option Bool :=
  match ((s.port r.port).tap (tapVc r)).startRec with
  | none => none
  | some (m, u, vc, k) =>
    some (decide (m = (match s.chart with | some c => (match c.map with | some x => x.machine | none => 0) | none => 0) ∧
      u = r.use ∧ vc = tapVc r ∧ k = n))

/-- The start records of a RUN are done with. -/
def State.clearStarts (s : State) : State :=
  forEach s.boundTaps s (fun s r => s.modPort r.port (fun x => x.setTap (tapVc r) { x.tap (tapVc r) with startRec := none }))

/-- Compare the start records with the RUN: a difference ends it with MAP_MISMATCH, all matching let
it go on. -/
def State.checkStarts (s : State) : State :=
  match s.run with
  | none => s
  | some run =>
    if run.waiting then
      match s.boundTaps.find? (fun r => decide (s.startMatches r run.steps = some false)) with
      | some r =>
        let s := s.event (srcLink r.port) 0x4C10 []
        (s.clearStarts).endRun 0x0A r.port
      | none =>
        if s.boundTaps.all (fun r => decide (s.startMatches r run.steps = some true)) then
          (match s.chart with
           | some c => (({ s with run := some { run with waiting := false } } : State).clearStarts).releaseTiles c
           | none => s)
        else s
    else s

/-- START (R262): the partner's start record is kept for the tap of the virtual channel it names; one that names another than the bound tap's
is compared with nothing, and the RUN ends with the timeout (DESIGN CHOICE, log 65). -/
def execStart (p : Nat) (f : Flit) (s : State) : Host.Outcome State Fault Refusal :=
  .next (s.rxSequenced p f 7 (decide (f.vc = 0)) (fun s =>
    let vc := fieldAt f.payload 9 1
    let s := s.modPort p (fun x => (x.setTap vc { x.tap vc with
      startRec := some (fieldAt f.payload 0 8, fieldAt f.payload 8 1, vc, fieldAt f.payload 0x10 8) }).free 0)
    s.checkStarts))

def execStartTimeout (s : State) : Host.Outcome State Fault Refusal :=
  match s.run with
  | some run =>
    if run.waiting ∧ run.since + run.limit * 1000000 ≤ s.now then
      match s.boundTaps.find? (fun r => decide (s.startMatches r run.steps ≠ some true)) with
      | some r => .next (((s.event srcHelm 0x4C11 []).clearStarts).endRun 0x0B r.port)
      | none => .next s
    else .next s
  | none => .next s

/-- Compare a tap's counts with the partner's (08 R265), once both are there: those of the closing interval, or of the one that has
closed where the partner's come later. -/
def State.compareTap (s : State) (p vc : Nat) : State :=
  let t := (s.port p).tap vc
  match t.pcount with
  | some (w, sent, recv) =>
    let due := decide (w = s.wp.count)
    if (s.redn.barrier.reported ∧ w = s.wp.count + 1) ∨ due then
      let mineS := if due then t.lastSent else t.sent
      let mineR := if due then t.lastRecvd else t.recvd
      let s := s.modPort p (fun x => x.setTap vc { x.tap vc with pcount := none })
      if sent = mineR ∧ recv = mineS then s
      else s.linkFault p 0x40 (leBytes 4 mineS ++ leBytes 4 mineR ++ leBytes 4 sent ++ leBytes 4 recv)
    else s
  | none => s

def execTapcount (p : Nat) (f : Flit) (s : State) : Host.Outcome State Fault Refusal :=
  .next (s.rxSequenced p f 8 (decide (f.vc = 0)) (fun s =>
    let s := s.modPort p (fun x => x.free 0)
    match s.boundTaps.find? (fun r => decide (r.port = p)) with
    | none => s
    | some r =>
      let s := s.modPort p (fun x => x.setTap (tapVc r) { x.tap (tapVc r) with
        pcount := some (fieldAt f.payload 0 8, fieldAt f.payload 8 4, fieldAt f.payload 0xC 4) })
      s.compareTap p (tapVc r)))

/-! ## Partner replay (15 R441) -/

/-- The higher of two waypoint registers; all ones stands below every waypoint. -/
def higherWpt (a b : W64) : W64 :=
  if a = BitVec.allOnes 64 then b else if b = BitVec.allOnes 64 then a else if a.toNat < b.toNat then b else a

def execReplay (p : Nat) (f : Flit) (s : State) : Host.Outcome State Fault Refusal :=
  .next (s.rxSequenced p f 9 (decide (f.vc = 0)) (fun s =>
    let s := s.modPort p (fun x => x.free 0)
    let w := BitVec.ofNat 64 (fieldAt f.payload 0 8)
    if s.rcv.phase = .replaying then
      let h := higherWpt s.rcv.resumeWpt w
      if h = s.rcv.resumeWpt then s
      else ({ s with rcv := { s.rcv with resumeWpt := h } } : State).sendReplay h
    else if s.running then
      let s := s.linkFault p 0x45 (leBytes 8 w.toNat)
      let h := higherWpt s.rcv.resumeWpt w
      if h = s.rcv.resumeWpt then s else ({ s with rcv := { s.rcv with resumeWpt := h } } : State).sendReplay h
    else s))

/-! ## BULK (11 R353) -/

def execBulk (p : Nat) (f : Flit) (s : State) : Host.Outcome State Fault Refusal :=
  .next (s.rxSequenced p f 0x0A (decide (f.vc = 7)) (fun s =>
    let s := s.modPort p (fun x => x.free 7)
    let a := fieldAt f.payload 0 8
    let n := bulkBytes f
    if s.inDevice a n ∧ ¬ s.writeRefused a n then s.devSend (.unit .link p) a (bytesAt f.payload 0x10 n)
    else (s.bump 0x9070 1 64 1).event (srcLink p) 0x5B06 []))

end Sys2Proof.Machine
end

