-- ==== Sys2Proof/Machine/Reduce.lean ====
section
/-! DEFINITION. The reduction: scan, machine barrier, exponent agreement, reduce-scatter and all-gather (09
R290-R309). -/

namespace Sys2Proof.Machine

def State.setRedn (s : State) (r : Redn) : State := { s with redn := r }

/-- Queue a reduction flit that continues a chain on a port. -/
def State.sendRed (s : State) (p type vc : Nat) (payload : List Byte) : State := s.queueFlit p (mkFlit type vc payload)

/-- Queue a reduction flit that begins a chain or is the first of a run: it waits for two free credits (R305). -/
def State.startRed (s : State) (p type vc : Nat) (payload : List Byte) : State :=
  s.modPort p (fun x => { x with startq := tmod [] x.startq vc (· ++ [mkFlit type vc payload]) })

/-- The reduction works in this training step: the commit waypoint is released, its agreed flag is 0 and
no fault is handled. -/
def State.reducing (s : State) : Bool :=
  s.running && s.commitOpen && s.commitStep && s.redn.flagSet && !s.redn.flag && decide (s.rcv.phase = .idle)

/-! ## Scan (09 R291) -/

/-- The local exponent byte of a list of values. -/
def exponentByte (xs : List FVal) : Nat :=
  if xs.any (fun x => !isFin x) then 0xFF
  else
    let a := maxMag xs
    if isZero a then 0 else (max 1 (min 254 (floorLog2 a + 127))).toNat

/-- GRADIENT_SCAN (R291): at the commit waypoint of a commit step, once every region is ready. Its reads of the bucket may meet a stack
error (15 R433). -/
def execGradientScan (group bucket : Nat) (ue : Option Nat) (s : State) : Host.Outcome State Fault Refusal :=
  match s.rgroup group with
  | none => .next s
  | some g =>
    if s.running ∧ s.cwptNext ∧ s.commitStep ∧ decide (s.rcv.phase = .idle) ∧ bucket < g.buckets ∧ ¬ s.redn.scanned.contains (group, bucket)
        ∧ s.placedRegions.all (fun r => (s.region r).ready) then
      if let some a := ueIn ue [(s.gradCopy g + 65536 * bucket, 65536)] then .next (s.stackUe a)
      else
      let x := exponentByte ((List.range 16384).map (fun e => ofF32 (s.gradElem g bucket e)))
      let s := s.devWrite (g.agree + bucket) (leBytes 1 x)
      .next (s.setRedn { s.redn with scanned := s.redn.scanned ++ [(group, bucket)], scanBad := s.redn.scanBad || decide (x = 0xFF) })
    else .next s

/-! ## Readiness of the other units -/

/-- Every bucket has been scanned. -/
def State.scansDone (s : State) : Bool :=
  match s.redSec with
  | some r => r.groups.zipIdx.all (fun g => (List.range g.1.buckets).all (fun b => s.redn.scanned.contains (g.2, b)))
  | none => true

/-- The chains and gathers of a group are all done (09 R290 step 9). -/
def State.groupDone (s : State) (i : Nat) (g : RGroup) : Bool :=
  let halves := [0, 1]
  s.redn.agreed.contains i &&
  (List.range g.buckets).all (fun b =>
    g.axisList.all (fun a =>
      (decide (a ≠ 0) && !s.ownsBucket g b) ||
      halves.all (fun h => (List.range 171).all (fun c => s.redn.chains.contains (a, i, b, 256 * h + c)))) &&
    (decide (s.runLen 0 < 2) ||
      (if s.ownsBucket g b then s.redn.gathered.contains (i, b)
       else halves.all (fun h => (List.range 74).all (fun c => s.redn.weights.contains (i, b, 128 * h + c))))))

/-- Every flit of the interval has been delivered and acknowledged (15 R438), and every token for a tap has been sent (08 R265). -/
def State.linksClear (s : State) : Bool :=
  (List.range (2 * s.variant)).all (fun p =>
    let x := s.port p
    (List.range 6).all (fun i => (tget [] x.sendq (i + 1)).isEmpty && (tget [] x.startq (i + 1)).isEmpty && (tget [] x.rxbuf (i + 1)).isEmpty) &&
    x.retry.all (fun f => decide (f.vc = 0 ∨ f.vc = 7)) && x.resend.isEmpty && x.taps.all (fun t => t.2.queue.isEmpty)) &&
    s.boundTaps.all (fun r => (s.tapWaiting r).isEmpty)

/-- The link engines are ready for the next waypoint, the machine barrier apart. -/
def State.linksReady (s : State) : Bool :=
  s.linksClear &&
  (if s.stepEndNext && s.commitStep && !s.redn.flag then
     (match s.redSec with
      | some r => r.groups.zipIdx.all (fun g => s.groupDone g.2 g.1)
      | none => true)
   else true)

/-- Every update unit of the chart is ready. -/
def State.unitsReady (s : State) : Bool :=
  match s.updSec with
  | some u => u.units.all (fun x => (s.unit (2 * x.stack + x.unit)).ready)
  | none => true

/-- Every unit but the barrier is ready for the next waypoint (08 R264, 15 R438). -/
def State.othersReady (s : State) : Bool :=
  s.placedRegions.all (fun r => (s.region r).ready) && s.unitsReady && s.linksReady &&
  (if s.cwptNext && s.commitStep then s.scansDone else true)

/-! ## The machine barrier (09 R308) -/

/-- The key under which flits heard stand. -/
def heardKey (w axis dir : Nat) : Nat := 8 * (w % 2) + 2 * axis + dir

/-- A BARRIER flit is heard: waypoint, axis, direction (0 toward +), non-finite bit; `next` is the waypoint that comes next. -/
def Barrier.hear (b : Barrier) (next : Nat) (f : Nat × Nat × Nat × Bool) : Barrier :=
  let b := { b with heard := tmod 0 b.heard (heardKey f.1 f.2.1 f.2.2.1) (· + 1) }
  if f.1 = next then { b with nf := b.nf || f.2.2.2 } else { b with nfNext := b.nfNext || f.2.2.2 }

/-- The loaded chart's machine has a barrier on an axis, and a flit is for the next waypoint or the one after it. -/
def State.hears (s : State) (w axis : Nat) : Bool := decide (2 ≤ s.runLen axis ∧ (w = s.nextWpt ∨ w = s.nextWpt + 1))

/-- A BARRIER flit is heard, or kept for the chart that a neighbour runs already and this module has still to load (R308; DEDUCED, log 132). -/
def State.hearBarrier (s : State) (f : Nat × Nat × Nat × Bool) : State :=
  let b := s.redn.barrier
  s.setRedn { s.redn with barrier := if s.hears f.1 f.2.1 then b.hear s.nextWpt f else { b with kept := b.kept ++ [f] } }

/-- A chart has been loaded: what was heard for it before counts, and what is not for it is forgotten. -/
def State.hearKept (s : State) : State :=
  let fs := s.redn.barrier.kept
  forEach (fs.filter (fun f => s.hears f.1 f.2.1)) (s.setRedn { s.redn with barrier := { s.redn.barrier with kept := [] } }) State.hearBarrier

/-- Send the combined state both ways on an axis. -/
def State.sendBarrier (s : State) (axis : Nat) : State :=
  let l := s.runLen axis
  if l < 2 then s
  else
    let pl := leBytes 8 s.nextWpt ++ leBytes 1 axis ++ leBytes 1 (if s.redn.barrier.nf then 1 else 0) ++ leBytes 1 (l / 2 - 1)
    forEach (axisPorts axis) s (fun s p => s.queueFlit p (mkFlit 6 0 pl))

/-- Go on over the axes whose flits have all been heard; the fuel bounds the axes. -/
def State.barrierOn : Nat → State → State
  | 0, s => s
  | n + 1, s =>
    let b := s.redn.barrier
    if 4 ≤ b.axis then s
    else
      let l := s.runLen b.axis
      let ok := fun (d : Nat) => decide (l / 2 ≤ tget 0 b.heard (heardKey s.nextWpt b.axis d))
      if l < 2 ∨ (ok 0 ∧ ok 1) then
        let s := s.setRedn { s.redn with barrier := { b with axis := b.axis + 1 } }
        State.barrierOn n (if b.axis + 1 < 4 then s.sendBarrier (b.axis + 1) else s)
      else s

/-- The module reports ready: its bit, its taps' counts to their partners and against theirs (08 R265), the
first axis. -/
def State.report (s : State) : State :=
  if s.redn.barrier.reported ∨ ¬ s.running ∨ s.rcv.phase ≠ .idle ∨ ¬ s.othersReady then s
  else
    let b := s.redn.barrier
    let mine := s.cwptNext && s.commitStep && s.nonfinBit
    let s := s.setRedn { s.redn with barrier := { b with reported := true, axis := 0, nf := b.nf || mine, since := s.now, limit := s.obj 0x5101 0 } }
    let taps := match s.chart with | some c => c.taps | none => []
    let s := forEach taps s (fun s r =>
      let t := (s.port r.port).tap (tapVc r)
      s.queueFlit r.port (mkFlit 8 0 (leBytes 8 s.nextWpt ++ leBytes 4 t.sent ++ leBytes 4 t.recvd)))
    let s := forEach taps s (fun s r => s.compareTap r.port (tapVc r))
    s.sendBarrier 0

/-- MACHINE_BARRIER_COMPLETE (R308): the module reports when its units are ready, the barrier goes over the
axes heard, and completes after the last; at the commit waypoint of a commit step the agreement record is
written (R293). In a machine of more than one module it is counted (08 Table MAP-10; 09 Table REDN-11). -/
def execMachineBarrierComplete (s : State) : Host.Outcome State Fault Refusal :=
  let s := (s.report).barrierOn 5
  let b := s.redn.barrier
  if b.reported ∧ ¬ b.complete ∧ b.axis = 4 ∧ s.running ∧ s.rcv.phase = .idle then
    let s := s.setRedn { s.redn with barrier := { b with complete := true } }
    let s := if s.multi then
        (s.setObj 0x9060 5 (max (s.obj 0x9060 5) (min (s.now - b.since) (2 ^ 32 - 1)))).bump 0x9050 4 64 1
      else s
    .next (if s.cwptNext && s.commitStep then s.writeAgreement b.nf else s)
  else .next s

/-- BARRIER_TIMEOUT (R309). -/
def execBarrierTimeout (p : Nat) (s : State) : Host.Outcome State Fault Refusal :=
  let b := s.redn.barrier
  if s.running ∧ s.multi ∧ b.reported ∧ ¬ b.complete ∧ b.since + 1000 * b.limit ≤ s.now ∧ s.rcv.phase = .idle then
    .next ((s.event (srcLink p) 0x5A11 []).linkFault p 0x44 (leBytes 8 s.nextWpt))
  else .next s

/-- BARRIER (R308): heard, combined, and forwarded while hops are left; a neighbour may report before a RUN is in progress here, and before
the chart is loaded. -/
def execBarrier (p : Nat) (f : Flit) (s : State) : Host.Outcome State Fault Refusal :=
  .next (s.rxSequenced p f 6 (decide (f.vc = 0)) (fun s =>
    let s := s.modPort p (fun x => x.free 0)
    let w := fieldAt f.payload 0 8
    let axis := fieldAt f.payload 8 1
    let nf := decide (fieldAt f.payload 9 1 = 1)
    let left := fieldAt f.payload 0xA 1
    if axis = portAxis p then
      -- a flit that arrives at a − port travels toward +
      let s := s.hearBarrier (w, axis, 1 - p % 2, nf)
      if left = 0 then s
      else s.queueFlit (p ^^^ 1) (mkFlit 6 0 (leBytes 8 w ++ leBytes 1 axis ++ leBytes 1 (if nf then 1 else 0) ++ leBytes 1 (left - 1)))
    else s))

/-! ## Exponent agreement (09 R294) -/

/-- Flits of a group's exponent vector. -/
def vecFlits (g : RGroup) : Nat := ceilDiv g.buckets 224

/-- The agreement payload for the buckets from `first` on. -/
def State.agreePayload (s : State) (i : Nat) (g : RGroup) (first : Nat) : List Byte :=
  let n := min 224 (g.buckets - first)
  redHeader i first 0 0 n ++ s.devRead (g.agree + g.buckets + first) n

/-- Send the vector on an axis, toward +. -/
def State.sendVector (s : State) (i : Nat) (g : RGroup) (axis : Nat) : State :=
  forEach (List.range (vecFlits g)) s (fun s k => s.startRed (2 * axis) 4 g.vc (s.agreePayload i g (224 * k)))

/-- Go on with an agreement over the axes that are done; the fuel bounds the axes. -/
def State.agreeOn (i : Nat) (g : RGroup) : Nat → State → State
  | 0, s => s
  | n + 1, s =>
    match s.redn.agreeing.find? (fun a => decide (a.group = i)) with
    | none => s
    | some a =>
      match g.axisList[a.axis]? with
      | none => s
      | some ax =>
        if (List.range (vecFlits g)).any (fun k => decide (tget 0 a.heard (224 * k) + 1 < s.runLen ax)) then s
        else
          let rest := s.redn.agreeing.filter (fun b => decide (b.group ≠ i))
          match g.axisList[a.axis + 1]? with
          | none => s.setRedn { s.redn with agreeing := rest, agreed := s.redn.agreed ++ [i] }
          | some ax' =>
            let s := s.setRedn { s.redn with agreeing := rest ++ [⟨i, a.axis + 1, []⟩] }
            State.agreeOn i g n (if 2 ≤ s.runLen ax' then s.sendVector i g ax' else s)

/-! ## Sums (09 R302-R304) -/

def State.sumPart (s : State) (i b h c n : Nat) : Option SumPart :=
  s.redn.sums.find? (fun p => decide (p.group = i ∧ p.bucket = b ∧ p.half = h ∧ p.chunk = c ∧ p.axis = n))

/-- Keep the complete sums of a chunk over `n` axes and mark its chain on `axis` done. -/
def State.keepSum (s : State) (i b h c n axis : Nat) (sums : List W32) : State :=
  let rest := s.redn.sums.filter (fun p => !(decide (p.group = i ∧ p.bucket = b ∧ p.half = h ∧ p.chunk = c)))
  s.setRedn { s.redn with sums := rest ++ [⟨i, b, h, c, n, sums⟩], chains := s.redn.chains ++ [(axis, i, b, 256 * h + c)] }

def State.markChain (s : State) (i b h c axis : Nat) : State :=
  s.setRedn { s.redn with chains := s.redn.chains ++ [(axis, i, b, 256 * h + c)] }

/-- What a module reads of its own for a chunk: the agreed byte and the elements. -/
def State.chunkReads (s : State) (g : RGroup) (b h c : Nat) : List (Nat × Nat) :=
  [(g.agree + g.buckets + b, 1), (s.gradCopy g + 65536 * b + 4 * (8192 * h + 48 * c), 4 * chunkElems c)]

/-- What this module contributes to a chunk on the `n`-th axis of its group: its q values, or its sums of
the axis before; none when it does not have them yet. -/
def State.contribution (s : State) (i : Nat) (g : RGroup) (n b h c : Nat) : Option (List W32) :=
  if ¬ s.redn.agreed.contains i then none
  else if n = 0 then some ((List.range (chunkElems c)).map (fun e => s.qValue g b (8192 * h + 48 * c + e)))
  else (s.sumPart i b h c n).map (·.sums)

/-- The residue of a word (09 R299). -/
def residue (w : W32) : Nat := (signed 32 w.toNat % 127).toNat

/-- A phase 1 payload (09 Table REDN-5). -/
def reducePayload (i b c h ph : Nat) (sums : List W32) : List Byte :=
  redHeader i b c h (64 * ph + sums.length) ++ ((sums.flatMap (fun w => leBytes 4 w.toNat)) ++ zeros 192).take 192 ++
    leBytes 42 (packElems 7 (sums.map residue))

/-- The sums of a payload, and whether every residue agrees. -/
def payloadSums (f : Flit) : List W32 :=
  (List.range (min 48 (fieldAt f.payload 0 6 % 64))).map (fun j => BitVec.ofNat 32 (fieldAt f.payload (6 + 4 * j) 4))
def residuesOk (f : Flit) : Bool :=
  let r := fieldAt f.payload 0xC6 42
  (payloadSums f).zipIdx.all (fun w => decide (residue w.1 = elemOf r 7 w.2))

/-- A RESIDUE fault (09 R301). -/
def State.residueFault (s : State) (p i b c h : Nat) : State :=
  let s := (s.bump 0x9060 4 32 1).event (srcLink p) 0x5A10 []
  s.linkFault p 0x42 (leBytes 2 i ++ leBytes 1 c ++ leBytes 1 (128 * h + portAxis p) ++ leBytes 4 b)

/-- Phase 1 runs in this commit step (09 Table REDN-11 REDN_STEPS). -/
def State.phase1 (s : State) : State :=
  if s.redn.ran then s else (s.setRedn { s.redn with ran := true }).bump 0x9060 1 64 1

/-- A chunk's sums are complete on an axis at their owner; on C and D they are sent on to the others. -/
def State.completeAxis (s : State) (i : Nat) (g : RGroup) (n axis b h c : Nat) (sums : List W32) : State :=
  let s := s.keepSum i b h c (n + 1) axis sums
  if n ≠ 0 ∧ 2 ≤ s.runLen axis then s.startRed (s.chunkPort axis h c) 3 g.vc (reducePayload i b c h 1 sums) else s

/-- Sums of a partial and the module's own values, none outside INT32 (09 R295, R300). -/
def addSums (ps qs : List W32) : Option (List W32) :=
  let vs := (ps.zip qs).map (fun x => signed 32 x.1.toNat + signed 32 x.2.toNat)
  if vs.all (fun v => decide (-(2 ^ 31) ≤ v ∧ v ≤ 2 ^ 31 - 1)) then some (vs.map (fun v => BitVec.ofNat 32 (unsigned 32 v))) else none

/-- Act on a held REDUCE or AGREE flit; none while it has to wait. -/
def State.actRed (s : State) (p : Nat) (f : Flit) : Option State :=
  let hd := fieldAt f.payload 0 6
  let i := bitsOf hd 47 40
  let b := bitsOf hd 39 16
  match s.rgroup i with
  | none => some s
  | some g =>
    let axis := portAxis p
    if f.type = 4 then
      match s.redn.agreeing.find? (fun a => decide (a.group = i)) with
      | none => none
      | some a =>
        if g.axisList[a.axis]? ≠ some axis then none
        else
          let n := min (hd % 65536) 224
          let old := s.devRead (g.agree + g.buckets + b) n
          let new := (old.zip (bytesAt f.payload 6 n)).map (fun x => if x.1.toNat < x.2.toNat then x.2 else x.1)
          let s := s.devWrite (g.agree + g.buckets + b) new
          let s := s.setRedn { s.redn with agreeing := s.redn.agreeing.map (fun (y : Agreeing) => if y.group = i then { y with heard := tmod 0 y.heard b (· + 1) } else y) }
          let s := if tget 0 a.heard b + 2 < s.runLen axis then s.sendRed (2 * axis) 4 g.vc (s.agreePayload i g b) else s
          some (State.agreeOn i g 4 s)
    else
      let c := bitsOf hd 15 8
      let h := bitsOf hd 7 7
      let ph := bitsOf hd 6 6
      match g.axisList.findIdx? (fun a => decide (a = axis)) with
      | none => some s
      | some n =>
        let owner := s.bucketOwner g axis b
        if ph = 1 then
          let s := s.keepSum i b h c (n + 1) axis (payloadSums f)
          some (if s.runPlace axis owner h + 1 < s.runLen axis then
            s.sendRed (s.chunkPort axis h c) 3 g.vc (reducePayload i b c h 1 (payloadSums f)) else s)
        else
          match s.contribution i g n b h c with
          | none => none
          | some q =>
            match addSums (payloadSums f) q with
            | none => some (s.residueFault p i b c h)
            | some sums =>
              let s := s.phase1
              if s.chainPlace axis owner h + 1 = s.runLen axis then some (s.completeAxis i g n axis b h c sums)
              else
                let s := s.sendRed (s.chunkPort axis h c) 3 g.vc (reducePayload i b c h 0 sums)
                some (if n = 0 then s.markChain i b h c axis else s)

/-- Act on the held flits of a port's virtual channel while one can proceed; the fuel bounds them. -/
def State.drainPort (p vc : Nat) : Nat → State → State
  | 0, s => s
  | n + 1, s =>
    let q := tget [] (s.port p).rxbuf vc
    match q.findSome? (fun f => (s.actRed p f).map (fun s' => (f, s'))) with
    | none => s
    | some (f, s') =>
      State.drainPort p vc n (s'.modPort p (fun x => ({ x with rxbuf := tset [] x.rxbuf vc ((tget [] x.rxbuf vc).erase f) }).free vc))

/-- Reduction flits held at the ports. -/
def State.heldRed (s : State) : Nat :=
  sumN (s.ports.flatMap (fun p => [3, 4, 5, 6].map (fun vc => (tget [] (s.port p).rxbuf vc).length)))

/-- Go over the ports until no held flit can proceed; the fuel bounds the rounds. -/
def State.drainRounds : Nat → State → State
  | 0, s => s
  | n + 1, s =>
    let u := forEach s.ports s (fun s p =>
      forEach [3, 4, 5, 6] s (fun s vc => State.drainPort p vc (tget [] (s.port p).rxbuf vc).length s))
    if u.heldRed = s.heldRed then u else State.drainRounds n u

/-- Act on every held reduction flit that can proceed. -/
def State.drainRed (s : State) : State := if s.reducing then State.drainRounds (s.heldRed + 1) s else s

/-! ## The commands -/

/-- EXPONENT_AGREEMENT (R294): a group's agreement begins from its local vector, whose read may meet a stack error (15 R433). -/
def execExponentAgreement (group : Nat) (ue : Option Nat) (s : State) : Host.Outcome State Fault Refusal :=
  match s.rgroup group with
  | none => .next s
  | some g =>
    if s.reducing ∧ ¬ s.redn.agreed.contains group ∧ ¬ s.redn.agreeing.any (fun a => decide (a.group = group)) then
      if let some a := ueIn ue [(g.agree, g.buckets)] then .next (s.stackUe a)
      else
      let s := s.devWrite (g.agree + g.buckets) (s.devRead g.agree g.buckets)
      let s := s.setRedn { s.redn with agreeing := s.redn.agreeing ++ [⟨group, 0, []⟩] }
      let s := if 2 ≤ s.runLen 0 then s.sendVector group g 0 else s
      .next (State.agreeOn group g 4 s).drainRed
    else .next s

/-- Two free credits on a virtual channel beyond the flits that wait (09 R305). -/
def State.twoCredits (s : State) (p vc : Nat) : Bool :=
  let x := s.port p
  decide ((tget [] x.sendq vc).length + (tget [] x.startq vc).length + 2 ≤ tget 0 x.credits vc)

/-- CHAIN_START (R303, R304): on the first axis of the group on which this module begins the chunk's chain and
has what it contributes; with LEN[0] 1 the owner adds its own values to zero. Its reads of them may meet a stack error (15 R433). -/
def execChainStart (group bucket half chunk : Nat) (ue : Option Nat) (s : State) : Host.Outcome State Fault Refusal :=
  match s.rgroup group with
  | none => .next s
  | some g =>
    if ¬ s.reducing ∨ g.buckets ≤ bucket ∨ 171 ≤ chunk then .next s
    else
      let todo := g.axisList.zipIdx.find? (fun (a, n) =>
        !(s.redn.chains.contains (a, group, bucket, 256 * half + chunk)) && !(s.redn.begun.contains (a, group, bucket, 256 * half + chunk)) &&
        (decide (n = 0) || s.ownsBucket g bucket) &&
        (decide (s.runLen a = 1) || decide (s.chainPlace a (s.bucketOwner g a bucket) half = 0)))
      match todo with
      | none => .next s
      | some (a, n) =>
        match s.contribution group g n bucket half chunk with
        | none => .next s
        | some q =>
          if let some x := (if n = 0 then ueIn ue (s.chunkReads g bucket half chunk) else none) then .next (s.stackUe x)
          else if s.runLen a = 1 then .next (s.phase1.completeAxis group g n a bucket half chunk q).drainRed
          else
            let p := s.chunkPort a half chunk
            if s.twoCredits p g.vc then
              let s := s.phase1.startRed p 3 g.vc (reducePayload group bucket chunk half 0 q)
              let s := s.setRedn { s.redn with begun := s.redn.begun ++ [(a, group, bucket, 256 * half + chunk)] }
              .next (if n = 0 then s.markChain group bucket half chunk a else s)
            else .next s

/-- A residue of the expected flit differs (R300, R301): a retry is asked for, and the same flit differing again is a mismatch. -/
def State.badResidue (s : State) (p : Nat) (f : Flit) : State :=
  let x := s.port p
  let hd := fieldAt f.payload 0 6
  if x.resFor = some x.rxSeq then s.residueFault p (bitsOf hd 47 40) (bitsOf hd 39 16) (bitsOf hd 15 8) (bitsOf hd 7 7)
  else ((s.bump 0x9060 3 64 1).sendNak p true).modPort p (fun x => { x with resFor := some x.rxSeq })

/-- A received reduction flit is held, and every held one that can proceed is acted on; but where the reads that this one asks for meet
`ue`, the stack's fault is all that comes of it (15 R433). -/
def State.takeRed (s : State) (p : Nat) (f : Flit) (ue : Option Nat) (reads : RGroup → List (Nat × Nat)) : State :=
  let t := s.modPort p (fun x => { x with rxbuf := tmod [] x.rxbuf f.vc (· ++ [f]) })
  match (s.rgroup (bitsOf (fieldAt f.payload 0 6) 47 40)).bind (fun g => ueIn ue (reads g)) with
  | some a => t.stackUe a
  | none => t.drainRed

/-- REDUCE (R300): a residue that differs asks for a retry, and a second time raises RESIDUE; else the flit
is held until the module's own values are there, then added to and sent on or delivered. The reads of those values may meet a stack
error (15 R433). -/
def execReduce (p : Nat) (f : Flit) (ue : Option Nat) (s : State) : Host.Outcome State Fault Refusal :=
  let x := s.port p
  if ¬ residuesOk f ∧ x.st = .active ∧ ¬ s.linkDoor p ∧ ¬ x.genOpen ∧ f.gen = x.partnerGen ∧ f.type = 3 ∧ f.seq = x.rxSeq then
    .next (s.badResidue p f)
  else
    let hd := fieldAt f.payload 0 6
    .next (s.rxSequenced p f 3 (decide (3 ≤ f.vc ∧ f.vc ≤ 6)) (fun s =>
      s.takeRed p f ue (fun g => s.chunkReads g (bitsOf hd 39 16) (bitsOf hd 7 7) (bitsOf hd 15 8))))

/-- The decoder of a port works: FEC is always on from FEC_LOCK on (10 R316, Table LINK-7), while the engine is reset too. -/
def Port.decodes (x : Port) : Bool := decide (x.st = .fecLock ∨ x.st = .identify ∨ x.st = .active)

/-- Codewords that FEC corrected, or could not correct, are counted (10 R338). -/
def State.countFec (s : State) (p : Nat) : FlitError → State
  | .fec n => if (s.port p).decodes then s.bump (0x5020 + p) 6 64 n else s
  | .corrected n => if (s.port p).decodes then s.bump (0x5020 + p) 5 64 n else s
  | _ => s

/-- FLIT_RECEIVE_ERROR (10 R328): codewords are counted; the flit is discarded, and asked for again where it was lost. In a generation
exchange no flit is asked for: what comes is dropped (R330). -/
def execFlitReceiveError (p : Nat) (err : FlitError) (f : Flit) (s : State) : Host.Outcome State Fault Refusal :=
  let x := s.port p
  let s := s.countFec p err
  if x.st = .active ∧ ¬ s.linkReset p ∧ ¬ x.genOpen then
    match err with
    | .fec _ => .next (s.sendNak p true)
    | .corrected _ => .next s
    | .crc received => if received = flitCrc f then .next s else .next (s.sendNak p true)
    | .badType => .next (s.sendNak p true)
    | .residue => .next (s.badResidue p f)
    | .seqLate => if 1 ≤ seqDiff f.seq x.rxSeq ∧ seqDiff f.seq x.rxSeq ≤ 2048 then .next (s.sendNak p false) else .next s
    | .seqDup => .next s
  else .next s

/-- AGREE (R294); the reads of the module's own bytes may meet a stack error (15 R433). -/
def execAgree (p : Nat) (f : Flit) (ue : Option Nat) (s : State) : Host.Outcome State Fault Refusal :=
  .next (s.rxSequenced p f 4 (decide (3 ≤ f.vc ∧ f.vc ≤ 6)) (fun s =>
    s.takeRed p f ue (fun g => [(g.agree + g.buckets, g.buckets)])))

/-- Weights of chunk `c` of a bucket half (09 R306). -/
def weightElems (c : Nat) : Nat := if c = 73 then 16 else 112

/-- Act 8 is done for the 32 blocks of a bucket. -/
def State.bucketCommitted (s : State) (group bucket : Nat) : Bool :=
  match s.updSec with
  | some cu =>
    decide (s.upd.finished = 1) || cu.units.any (fun x =>
      let runs := (cu.runs.drop x.runFirst).take x.runCount
      runs.any (fun r => decide (r.group = group ∧ r.gpos ≤ 32 * bucket ∧ 32 * bucket < r.gpos + r.count)) &&
      (let g := cu.groups.getD group {}
       let y := s.unit (2 * x.stack + x.unit)
       -- blocks of the unit's runs up to and with the bucket, its factor blocks among them
       let upto := (runs.foldl (fun (a : Nat × Bool) r =>
         if a.2 then a
         else
           let fac := if (cu.groups.getD r.group {}).opt = 4 then ceilDiv (cu.groups.getD r.group {}).rows 1024 + ceilDiv (cu.groups.getD r.group {}).cols 1024 else 0
           if r.group = group ∧ r.gpos ≤ 32 * bucket ∧ 32 * bucket < r.gpos + r.count then (a.1 + fac + (32 * bucket + 32 - r.gpos), true)
           else (a.1 + fac + r.count, false)) (0, false)).1
       decide (g.opt ≠ 0) && decide (upto ≤ y.pos)))
  | none => false

/-- GATHER_START (R306): the owner sends a committed bucket's weights both ways on A; its reads of them may meet a stack error (15
R433). -/
def execGatherStart (group bucket : Nat) (ue : Option Nat) (s : State) : Host.Outcome State Fault Refusal :=
  match s.rgroup group with
  | none => .next s
  | some g =>
    if s.reducing ∧ bucket < g.buckets ∧ s.ownsBucket g bucket ∧ 2 ≤ s.runLen 0 ∧ ¬ s.redn.gathered.contains (group, bucket)
        ∧ s.upd.started ∧ (s.commitNat 0 1 = 1 ∨ s.upd.finished = 1) ∧ s.bucketCommitted group bucket then
      if let some a := ueIn ue [(g.wimage + 32768 * bucket, 32768)] then .next (s.stackUe a)
      else
      let s := s.setRedn { s.redn with gathered := s.redn.gathered ++ [(group, bucket)] }
      .next (forEach [0, 1] s (fun s h =>
        forEach (List.range 74) s (fun s c =>
          let n := weightElems c
          s.startRed (s.chunkPort 0 h c) 5 g.vc
            (redHeader group bucket c h n ++ s.devRead (g.wimage + 32768 * bucket + 2 * (8192 * h + 112 * c)) (2 * n)))))
    else .next s

/-- WEIGHT (R306): written into the module's own weight image and forwarded until L − 1 hops are made. -/
def execWeight (p : Nat) (f : Flit) (s : State) : Host.Outcome State Fault Refusal :=
  .next (s.rxSequenced p f 5 (decide (3 ≤ f.vc ∧ f.vc ≤ 6)) (fun s =>
    let s := s.modPort p (fun x => x.free f.vc)
    let hd := fieldAt f.payload 0 6
    let i := bitsOf hd 47 40
    let b := bitsOf hd 39 16
    let c := bitsOf hd 15 8
    let h := bitsOf hd 7 7
    match s.rgroup i with
    | none => s
    | some g =>
      let n := min (hd % 128) 112
      let s := s.devWrite (g.wimage + 32768 * b + 2 * (8192 * h + 112 * c)) (bytesAt f.payload 6 (2 * n))
      let s := s.setRedn { s.redn with weights := s.redn.weights ++ [(i, b, 128 * h + c)] }
      if s.runPlace 0 (s.bucketOwner g 0 b) h + 1 < s.runLen 0 then s.sendRed (s.chunkPort 0 h c) 5 g.vc f.payload else s))

end Sys2Proof.Machine
end

