-- ==== Sys2Proof/Machine/Waypoints.lean ====
section
/-! DEFINITION. Waypoints: what a region saves (03 R113; 05 R155; 06 R200, R204, R205), what the Helm writes
when one completes (03 R114; 07 R247-R249; 15 R438), and its release. -/

namespace Sys2Proof.Machine

/-! ## What a region saves -/

/-- Add a tile's counter sets into the tallies of their tensors where they are to be added, and zero them (R113). -/
def State.addSets (s : State) (c : Chart) (add : Bool) (t : Nat) (m : TileImg) : State :=
  let x := s.tile t
  let s := forEach (List.range 8) s (fun s k =>
    let v := tget {} x.csets k
    let id := m.cset.getD k 0xFFFF
    if ¬ add ∨ v.conv = 0 ∨ id = 0xFFFF then s
    else
      let a := c.tally + 32 * id
      s.devWrite a (leBytes 8 (s.devNat a 8 + v.conv) ++ leBytes 8 (s.devNat (a + 8) 8 + v.zero) ++
        leBytes 4 (satAdd 32 (s.devNat (a + 0x10) 4) v.sat) ++ leBytes 4 (satAdd 32 (s.devNat (a + 0x14) 4) v.nonfin) ++
        leBytes 4 (max (s.devNat (a + 0x18) 4) v.amax.toNat)))
  s.modTile t (fun x => { x with csets := [] })

/-- The chart tiles of a region with their images. -/
def Chart.tilesIn (c : Chart) (r : Nat) : List (Nat × TileImg) :=
  (c.tileList.zip c.tiles).filter (fun x => decide (tileRegion x.1 = r))

/-- The extent a LIVE record names. -/
def Chart.liveExtent (c : Chart) (l : Live) : Option Extent :=
  match c.tiles[l.tile]? with
  | some m => (c.resid.getD m.resid [])[l.extent]?
  | none => none

/-- Save the LIVE extents of a region to copy w mod 2: copy 0 is the SOURCE (06 R204). -/
def State.saveLives (s : State) (c : Chart) (r w : Nat) : State :=
  match c.tier with
  | none => s
  | some tr =>
    forEach (tr.lives.filter (fun l => decide (tileRegion (c.tileList.getD l.tile 0) = r))) s (fun s l =>
      match c.liveExtent l with
      | some e =>
        let ws := (s.tile (c.tileList.getD l.tile 0)).spad.readN e.waddr e.words
        s.devWrite (if w % 2 = 0 then e.source else l.alt) (ws.flatMap (fun x => leBytes 4 x.toNat))
      | none => s)

/-- The streams of a region with their numbers. -/
def Chart.streamsIn (c : Chart) (r : Nat) : List (TierStream × Nat) :=
  match c.tier with
  | some tr => tr.streams.zipIdx.filter (fun x => decide (tileRegion (c.tileList.getD x.1.tile 0) = r))
  | none => []

/-- The address of a stream's state in a copy of the save area (06 R200). -/
def Tier.stateAt (tr : Tier) (w i : Nat) : Nat := tr.save + 16 * tr.streams.length * (w % 2) + 16 * i

/-- Write the streams' states at waypoint w, with the chunk its slowest member takes next (log 53); the generation
counts the interval that closes when the stream made an access in it (06 R199, R200). -/
def State.saveStreams (s : State) (c : Chart) (r w : Nat) (ends : Bool) : State :=
  match c.tier with
  | none => s
  | some tr =>
    forEach (c.streamsIn r) s (fun s x =>
      let y := s.tstream x.2
      let gen := if y.accessed then (y.gen + 1) % 2 ^ 32 else y.gen
      let n := s.slowest x.2 x.1
      let s := s.devWrite (tr.stateAt w x.2) (leBytes 8 (if ends then 0 else n % x.1.len) ++ leBytes 4 gen ++ zeros 4)
      s.setTstream x.2 { y with gen := gen, accessed := false, asked := false })

/-- Write back every dirty half of a region's store. -/
def State.cleanAll (s : State) (r : Nat) : State :=
  forEach ((s.region r).lines.filter (fun l => l.2.dirty)) s (fun s l => s.cleanLine r l.1 l.2)

/-- A stream's pointer state as a control record holds it (05 Table CHRT-7). -/
def streamWord (v : Stream) : Nat :=
  v.base % 2 ^ 17 * 2 ^ 47 + v.ptr % 2 ^ 17 * 2 ^ 30 + v.idx % 2 ^ 12 * 2 ^ 18 + v.plpos % 2 ^ 8 * 2 ^ 10

/-- A tile control record (05 Table CHRT-7). -/
def controlRecord (x : Tile) : List Byte :=
  leBytes 2 x.entry ++ zeros 6 ++ (List.range 8).flatMap (fun i => leBytes 2 (tget 0 x.lc i)) ++
    (List.range 8).flatMap (fun i => leBytes 2 (tget 0 x.occ i)) ++ zeros 8 ++
    (List.range 11).flatMap (fun i => leBytes 4 (tget 0 x.sx i)) ++ zeros 4 ++
    (List.range 16).flatMap (fun i => leBytes 8 (streamWord (tget {} x.streams i))) ++ zeros 32

/-- The address of a tile's record in a save area (05 R155). -/
def Chart.controlAt (c : Chart) (w i : Nat) : Nat := c.wptArea + 256 * c.tiles.length * (w % 2) + 256 * i

/-- A region has reached a waypoint: its tiles hold, its accesses and its port buffers are done (R205 steps 1, 2). -/
def State.regionHolds (s : State) (c : Chart) (r : Nat) : Bool :=
  s.tierUp r && c.placed.contains r && !(s.region r).ready && (s.region r).fills.isEmpty &&
    (c.tilesIn r).all (fun x =>
      let y := s.tile x.1
      decide (y.st = TileSt.hold ∧ y.wpts = s.nextWpt) && y.portOut.isEmpty)

/-- The writes of a region's waypoint wait at a stack's door (15 R431). -/
def State.savesHeld (s : State) (c : Chart) (r : Nat) : Bool :=
  s.stackHeld 0 c.wptArea (512 * c.tiles.length) ||
    (s.region r).lines.any (fun l => l.2.dirty && s.stackHeld l.2.space (128 * l.2.line) 128)

/-- The tier engine reads a LIVE extent of tile `t` at the waypoint of region `r` (06 R204). -/
def Chart.readsLive (c : Chart) (r t : Nat) : Bool :=
  (c.tilesIn r).any (fun x => decide (x.1 = t)) &&
    (c.tier.getD {}).lives.any (fun l => decide (c.tileList[l.tile]? = some t))

/-- REGION_READY (R205). The tier engine's read of a LIVE extent of tile `t` meets `e` (02 R68), that of the tally table perhaps a stack
error (15 R433). A region that has added its counter sets for this waypoint before a replay adds them no more (03
R113, R115). The write-back meets `ev` in the region store, and a PCI Express error where it writes a host segment. -/
def execRegionReady (r t : Nat) (e : Ecc) (ev : RsEvent) (hostError : Bool) (ue : Option Nat) (s : State) : Host.Outcome State Fault Refusal :=
  match s.chart with
  | none => .next s
  | some c =>
    if s.regionHolds c r ∧ ¬ s.savesHeld c r then
      let w := s.nextWpt
      if e = .fatal ∧ c.readsLive r t then .next (s.faultAt t 3)
      else if let some a := ueIn ue [(c.tally, 32 * c.tensors.length)] then .next (s.stackUe a)
      else
      let s := if e = .corrected ∧ c.readsLive r t then s.corrected t else s
      let (goes, u) := s.rsEvent r ev
      if ¬ goes then .next u
      else match (if hostError then (u.region r).lines.find? (fun l => l.2.dirty && decide (l.2.space ≠ 0)) else none) with
      | some l => .next (u.hostFault r (u.hostAddr l.2.space (128 * l.2.line)))
      | none =>
      let s := forEach (c.tilesIn r) u (fun s x => s.addSets c (!u.wp.tallied.contains r) x.1 x.2)
      let s := { s with wp := { s.wp with tallied := if s.wp.tallied.contains r then s.wp.tallied else s.wp.tallied ++ [r] } }
      let s := ((s.saveLives c r w).saveStreams c r w s.stepEndNext).cleanAll r
      let s := forEach c.tileList.zipIdx s (fun s x =>
        if tileRegion x.1 = r then s.devWrite (c.controlAt w x.2) (controlRecord (s.tile x.1)) else s)
      .next (s.modRegion r (fun x => { x with ready := true }))
    else .next s

/-! ## What the Helm writes at the end of a training step -/

/-- An AMAX enters HIST[HEAD] of a scale record; HEAD and VALID advance (03 Table FMT-7, R114). -/
def State.pushHist (s : State) (a amax : Nat) : State :=
  let head := s.devNat (a + 0xC) 1
  let s := s.devWrite (a + 0x40 + 4 * (head % 16)) (leBytes 4 amax)
  s.devWrite (a + 0xB) (leBytes 1 (min (s.devNat (a + 0xB) 1 + 1) 16) ++ leBytes 1 ((head + 1) % 16))

/-- The owners' work on the tallies at a step end (R114). -/
def State.ownTallies (s : State) (c : Chart) : State :=
  forEach c.tensors.zipIdx s (fun s x =>
    let a := c.tally + 32 * x.2
    let s := if x.1.scaled ∧ s.devNat (x.1.scale + 8) 1 = 1 then s.pushHist x.1.scale (s.devNat (a + 0x18) 4) else s
    s.devWrite a (zeros 32))

/-- The commit record that ends a training step (07 R247, R248), with `bad` what the gradient tallies say. Of a commit that has
been finished before (R234) K has advanced already. -/
def State.endCommit (s : State) (u : Upd) (bad : Bool) : State :=
  let at' := fun (off n : Nat) => s.devNat (u.commit + off) n
  let lnf := if bad then 1 else at' 1 1
  let ts := leBytes 8 (at' 0x18 8 + 1)
  if s.commitStep then
    let lo := signed 32 (s.obj 0x4203 1)
    let hi := signed 32 (s.obj 0x4203 2)
    let e := signed 32 (at' 4 4)
    let done := s.upd.finished
    let skip := decide (at' 0 1 = 2 ∨ done = 2)
    let clean := if skip then 0 else at' 0x10 4 + 1
    let up := !skip && decide (s.obj 0x4202 0 ≤ clean)
    let e' := if skip then max (e - 1) lo else if up then min (e + 1) hi else e
    let k := if skip ∨ done = 1 then at' 8 8 else at' 8 8 + 1
    let s := s.devWrite u.commit (leBytes 2 0 ++ zeros 2 ++ leBytes 4 (unsigned 32 e') ++ leBytes 8 k ++
      leBytes 4 (if up then 0 else clean) ++ leBytes 4 (if skip then satAdd 32 (at' 0x14 4) 1 else at' 0x14 4) ++ ts ++
      leBytes 4 (f32Pow2 e').toNat ++ zeros 28)
    if skip then s.event srcHelm 0x3A20 (leBytes 8 k ++ leBytes 4 (unsigned 32 e')) else s
  else (s.devWrite (u.commit + 1) (leBytes 1 lnf)).devWrite (u.commit + 0x18) ts

/-- Everything the Helm and the owners write before the waypoint that ends a training step completes. -/
def State.endStep (s : State) (c : Chart) : State :=
  let bad := s.tallyBad
  let s := s.ownTallies c
  match c.upd with
  | some u => s.endCommit u bad
  | none => s

/-! ## The next interval -/

/-- A tap at a waypoint: its interval counts start again, its pass counts at a step end, with what has come for the next interval. -/
def Tap.next (t : Tap) (ends : Bool) : Tap :=
  { t with sent := 0, recvd := t.early, early := 0, lastSent := t.sent, lastRecvd := t.recvd, passSent := (if ends then 0 else t.passSent),
           passRecv := (if ends then 0 else t.passRecv) + t.early,
           baseSent := (if ends then 0 else t.passSent), baseRecv := (if ends then 0 else t.passRecv) }

/-- The barrier for the next waypoint keeps what has been heard for it; `w` is the one that completes. -/
def Barrier.next (b : Barrier) (w : Nat) : Barrier :=
  { heard := b.heard.filter (fun e => decide (e.1 / 8 = (w + 1) % 2)), nf := b.nfNext, kept := b.kept }

/-- An update unit at a waypoint: its staging and page frames start again at a step end. -/
def UpdUnit.next (y : UpdUnit) (ends : Bool) : UpdUnit :=
  if ends then { y with ready := false, staged := [], paged := 0, pos := 0, waited := false } else { y with ready := false }

/-- What the Helm, the update units and the all-gather write in a training step and its successor reads through the region
stores: the commit record (R246) and the weight images (R242), as (address, bytes). -/
def Chart.rewritten (c : Chart) : List (Nat × Nat) :=
  match c.upd with
  | some u =>
    (u.commit, 64) :: u.runs.map (fun r => (r.wimage, 1024 * r.count)) ++
      (match c.red with
       | some rd => rd.groups.map (fun g => (g.wimage, 32768 * g.buckets))
       | none => [])
  | none => []

/-- The region stores hold no line of what a training step has rewritten outside them: the next one reads it from the stacks
(R242; DEDUCED, log 96). -/
def State.dropRewritten (s : State) (c : Chart) : State :=
  let rs := c.rewritten
  if rs.isEmpty then s
  else forEach c.placed s (fun s r => s.modRegion r (fun x =>
    { x with lines := x.lines.filter (fun l => decide (l.2.space ≠ 0) || !rs.any (fun a => overlaps (128 * l.2.line) 128 a.1 a.2)) }))

/-- What begins anew when waypoint `w` completes. -/
def State.nextInterval (s : State) (w : Nat) (ends : Bool) : State :=
  let s := forEach s.placedRegions s (fun s r => s.modRegion r (fun x => { x with ready := false }))
  let s := match s.chart with | some c => if ends then s.dropRewritten c else s | none => s
  let units := s.upd.units.map (fun (u : Nat × UpdUnit) => (u.1, u.2.next ends))
  let s := { s with upd := (if ends then { units := units } else { s.upd with units := units }) }
  let ports := s.link.ports.map (fun (p : Nat × Port) =>
    (p.1, { p.2 with taps := p.2.taps.map (fun (t : Nat × Tap) => (t.1, t.2.next ends)) }))
  let s := { s with link := { s.link with ports := ports } }
  let streams := s.streams.map (fun (y : Nat × TStream) => (y.1, { y.2 with taken := [], given := 0, fetched := 0 }))
  let s := if ends then { s with streams := streams } else s
  let b := s.redn.barrier.next w
  s.setRedn (if ends then { barrier := b } else { s.redn with barrier := b })

/-! ## Completion -/

/-- Waypoint registers, journal progress and the records of a completed waypoint (R438; 11 R359). -/
def State.recordWaypoint (s : State) (c : Chart) : State :=
  let w := s.nextWpt
  let ends := s.stepEndNext
  let s := if ends then s.endStep c else s
  let k := if ends then 1 else 0
  let s := { s with
    wp := { reg := BitVec.ofNat 64 w, count := w, tsteps := s.wp.tsteps + k, released := false },
    run := s.run.map (fun (r : Run) => { r with done := r.done + k }) }
  let s := s.traceRec srcHelm trWaypoint (leBytes 8 w)
  let s := s.nextInterval w ends
  match s.run with
  | some r => s.journalCmd r.seq (fun c => { c with jstate := 3, wpt := w, steps := r.done })
  | none => s

/-- The Helm goes on after a completed waypoint: the RUN ends with its last training step or at the stop an
ABORT asked for (11 R352, R354), with a decided commit finished first (07 R234), else the waypoint is released. A fault of that
finish ends the RUN or replays it; it then stops at the same waypoint (log 121). -/
def State.afterWaypoint (s : State) (c : Chart) (ends : Bool) (err : Option FinishErr) : State :=
  match s.run with
  | none => s
  | some r =>
    if ends ∧ r.steps ≤ r.done then ((s.endRun 0 0).releaseTiles c).idleTiles c
    else
      match r.stopAt with
      | some n =>
        if n ≤ s.wp.count then
          let f := s.finishCommit c err
          if f.1 then
            let s := f.2.endRun 0x0C r.stopBy
            if ends then (s.releaseTiles c).idleTiles c else s
          else { f.2 with run := f.2.run.map (fun (r : Run) => { r with stopDue := true }) }
        else s.releaseTiles c
      | none => s.releaseTiles c

/-- The link engines are ready for the next waypoint: where there is a barrier, once it has completed, whatever a neighbour that was released
first has sent since then (08 R264, 09 R290). -/
def State.linksPassed (s : State) : Bool :=
  if s.multi || (s.cwptNext && s.commitStep) then s.redn.barrier.complete else s.linksReady

/-- Everything the next waypoint waits for (R438). -/
def State.waypointReady (s : State) : Bool :=
  s.helmRuns && decide (s.rcv.phase = .idle) && s.wp.released && s.placedRegions.all (fun r => (s.region r).ready) && s.unitsReady &&
    s.linksPassed &&
    (!(s.stepEndNext && s.commitStep) || s.upd.started)

/-- What the Helm and the owners read at the end of a training step: tallies, scale records and the commit record (03 R114, 07 R247). -/
def State.stepReads (s : State) (c : Chart) : List (Nat × Nat) :=
  if s.stepEndNext then
    (c.tally, 32 * c.tensors.length) :: (c.tensors.filter (·.scaled)).map (fun t => (t.scale, 128)) ++
      (match c.upd with | some u => [(u.commit, 64)] | none => [])
  else []

/-- WAYPOINT_COMPLETE (R438); the finish of a commit may meet `err` (07 R234), the reads at the end of a training step a stack error (15
R433). -/
def execWaypointComplete (err : Option FinishErr) (ue : Option Nat) (s : State) : Host.Outcome State Fault Refusal :=
  match s.chart, s.run with
  | some c, some r =>
    if s.waypointReady ∧ ¬ r.waiting then
      if let some a := ueIn ue (s.stepReads c) then .next (s.stackUe a)
      else
      let ends := s.stepEndNext
      let s := s.recordWaypoint c
      let s := if s.rcv.doneDue then
          (({ s with rcv := { s.rcv with doneDue := false } } : State)).event srcHelm 0x6A03 []
        else s
      .next (s.afterWaypoint c ends err)
    else .next s
  | _, _ => .next s

end Sys2Proof.Machine
end

