-- ==== Sys2Proof/Machine/Restore.lean ====
section
/-! DEFINITION. Restoring state from a waypoint (05 R152, R155, R160; 06 R200, R204; 07 R219; 15 R439 step 6, R440):
waypoint 0 stands for the state at CHART_LOAD. -/

namespace Sys2Proof.Machine

/-! ## Tiles -/

/-- The address of a LIVE extent's copy 1. -/
def Chart.liveAlt (c : Chart) (tile extent : Nat) : Option Nat :=
  match c.tier with
  | some tr => (tr.lives.find? (fun l => decide (l.tile = tile ∧ l.extent = extent))).map (·.alt)
  | none => none

/-- Where an extent is restored from when a replay resumes from waypoint w (06 R204). -/
def Chart.sourceOf (c : Chart) (tile extent : Nat) (e : Extent) (w : Nat) : Nat :=
  if e.live then
    (if w % 2 = 0 then e.source else (match c.liveAlt tile extent with | some a => a | none => e.source))
  else c.image + e.source

/-- The words of `n` words of device memory. -/
def State.devWords (s : State) (a n : Nat) : List W32 := (List.range n).map (fun k => BitVec.ofNat 32 (s.devNat (a + 4 * k) 4))

/-- A tile's residency image, extent by extent (05 R160). -/
def State.loadExtents (s : State) (c : Chart) (i : Nat) (m : TileImg) (w : Nat) (x : Tile) : Tile :=
  (c.resid.getD m.resid []).zipIdx.foldl (fun (x : Tile) (e : Extent × Nat) =>
    { x with spad := x.spad.writeN e.1.waddr (s.devWords (c.sourceOf i e.2 e.1 w) e.1.words) }) x

/-- A table of `n` numbers of `k` bytes of a structure. -/
def tabAt (b : List Byte) (off k n : Nat) : Tab Nat :=
  (List.range n).foldl (fun t i => tset 0 t i (fieldAt b (off + k * i) k)) []

/-- A stream's pointer state from a control record (05 Table CHRT-7). -/
def streamOfWord (v : Nat) : Stream := ⟨bitsOf v 63 47, bitsOf v 46 30, bitsOf v 29 18, bitsOf v 17 10⟩

/-- A tile's control state from a control record: it holds at the waypoint. -/
def Tile.fromRecord (x : Tile) (b : List Byte) (w : Nat) : Tile :=
  { x with
    st := .hold, entry := fieldAt b 0 2, fired := 0, firing := none, lc := tabAt b 8 2 8, occ := tabAt b 0x18 2 8,
    sx := tabAt b 0x30 4 11, wpts := w
    streams := (List.range 16).foldl (fun t i => tset {} t i (streamOfWord (fieldAt b (0x60 + 8 * i) 8))) [] }

/-- Restore one chart tile. -/
def State.restoreTile (s : State) (c : Chart) (i : Nat) (t : Nat) (m : TileImg) (w : Nat) : State :=
  let x := s.loadExtents c i m w (s.tile t)
  let x := if w = 0 then { x with st := .idle, rng := rngLoad m.seed 0 }
    else { x.fromRecord (s.devRead (c.controlAt w i) 256) w with rng := rngLoad m.seed w }
  s.putTile t x

/-! ## Streams -/

/-- Port accesses that a chart tile's window has made in the pass up to waypoint w. -/
def Chart.accessesAt (c : Chart) (i win w : Nat) : Nat := if w % c.wps = 0 then 0 else c.cumAt i win (w % c.wps - 1)

/-- The access a stream goes on with at waypoint w: the chunk index of its saved state, in the walk that the chart has it in
by then (R200). -/
def State.streamFrom (s : State) (c : Chart) (tr : Tier) (w : Nat) (x : TierStream × Nat) : Nat :=
  let done := (x.1.memberIxs.map (fun i => c.accessesAt i x.1.window w))
  let low := done.foldl min (done.headD 0)
  if w = 0 then 0 else x.1.len * (low / x.1.len) + s.devNat (tr.stateAt w x.2) 8

/-- Restore the streams of a region: from copy w mod 2, the slowest member at the saved chunk index and the others as far ahead
of it as the chart has them. -/
def State.restoreStreams (s : State) (c : Chart) (r w : Nat) : State :=
  match c.tier with
  | none => s
  | some tr =>
    forEach (c.streamsIn r) s (fun s x =>
      let n := s.streamFrom c tr w x
      let done := x.1.memberIxs.map (fun i => (i, c.accessesAt i x.1.window w))
      let low := (done.map (·.2)).foldl min ((done.map (·.2)).headD 0)
      let taken := done.foldl (fun t y => tset 0 t (c.tileList.getD y.1 0 % 32) (y.2 - low + n)) ([] : Tab Nat)
      let gen := if w = 0 then 0 else s.devNat (tr.stateAt w x.2 + 8) 4
      s.setTstream x.2 { taken := taken, given := n, fetched := n, gen := gen })

/-! ## Regions, units, taps -/

/-- What the restore of waypoint w reads of the regions and the units that `region` and `unit` name: images or LIVE extents, control
records, stream states, running records and the agreement record. -/
def State.restoreReach (s : State) (c : Chart) (w : Nat) (region unit : Nat → Bool) : List (Nat × Nat) :=
  (c.tileList.zip c.tiles).zipIdx.flatMap (fun x =>
    if region (tileRegion x.1.1) then
      (if w = 0 then [] else [(c.controlAt w x.2, 256)]) ++
        (c.resid.getD x.1.2.resid []).zipIdx.map (fun e => (c.sourceOf x.2 e.2 e.1 w, 4 * e.1.words))
    else []) ++
    (match c.tier with
     | some t => if w = 0 then [] else c.placed.flatMap (fun r => if region r then (c.streamsIn r).map (fun x => (t.stateAt w x.2, 16)) else [])
     | none => []) ++
    (match c.upd with
     | some u => u.units.zipIdx.filterMap (fun x =>
         if unit (2 * x.1.stack + x.1.unit) then some (u.recordAt (s.unitCopy c w) x.2, 4096) else none)
     | none => []) ++
    (match c.red with | some r => [(r.arec, 64)] | none => [])

/-- Restore a region that has been reset. -/
def State.restoreRegion (s : State) (c : Chart) (r w : Nat) : State :=
  let s := forEach (c.tileList.zip c.tiles).zipIdx s (fun s x =>
    if tileRegion x.1.1 = r then s.restoreTile c x.2 x.1.1 x.1.2 w else s)
  let s := s.modRegion r (fun x => { x with ready := false, fills := [] })
  s.restoreStreams c r w

/-- A tap's counts of the pass return to those of the last waypoint. -/
def Tap.rebase (t : Tap) : Tap := { t with sent := 0, recvd := 0, early := 0, passSent := t.baseSent, passRecv := t.baseRecv, pcount := none }

def State.rebaseTaps (s : State) : State :=
  let ports := s.link.ports.map (fun (p : Nat × Port) =>
    (p.1, { p.2 with taps := p.2.taps.map (fun (t : Nat × Tap) => (t.1, t.2.rebase)) }))
  { s with link := { s.link with ports := ports } }

/-- The barrier of the interval that begins again: flits that have come since the reset count (09 R308). -/
def Barrier.fresh (b : Barrier) : Barrier :=
  if b.heard.isEmpty then { kept := b.kept } else { heard := b.heard, nf := b.nf, nfNext := b.nfNext, kept := b.kept }

/-- The reduction after a resume: past the commit waypoint of a commit step the agreed flag is read from the
agreement record (09 R293), all else begins anew. -/
def State.restoreRedn (s : State) : State :=
  let s := { s with upd := { s.upd with started := false } }
  match s.redSec with
  | some r =>
    if s.commitPassed ∧ s.commitStep then
      s.setRedn { barrier := s.redn.barrier.fresh, flag := decide (s.devNat r.arec 1 = 1), flagSet := true, ran := s.redn.ran }
    else s.setRedn { barrier := s.redn.barrier.fresh }
  | none => s.setRedn { barrier := s.redn.barrier.fresh }

/-- Passes a tile has started when the RUN resumes from the last completed waypoint. -/
def State.passesAt (s : State) (c : Chart) : Nat :=
  (match s.run with | some r => r.done | none => 0) + (if s.wp.count % c.wps = 0 then 0 else 1)

/-- Every chart tile counts its passes from a resume. -/
def State.setPasses (s : State) (c : Chart) : State :=
  let n := s.passesAt c
  forEach c.tileList s (fun s t => s.modTile t (fun x => { x with passes := n }))

/-! ## Row shifts at a resume (15 R447) -/

/-- Apply the row shifts that wait; the physical regions shifted out, without those of trips. A region whose
place moves holds nothing of its work: its tiles stand as after a reset, and its doors stay closed until it is restored. -/
def State.applyShifts (s : State) : State × List Nat :=
  let out := (s.rcv.shifts.filter (fun x => decide (x.2 = 0))).map (fun x => s.physOf x.1)
  let s := forEach s.rcv.shifts s (fun s x =>
    let moved := (List.range 6).filter (fun c => decide (regionCol x.1 ≤ c))
    let s := s.applyShift x.1 (decide (x.2 = 1))
    forEach moved s (fun s c =>
      let r := 6 * (x.1 / 6) + c
      let s := if s.chart.isSome then s.closeDoors [(.dataflow, s.physOf r), (.tier, s.physOf r)] else s
      s.clearDataflow r))
  ({ s with rcv := { s.rcv with shifts := [] } }, out)

end Sys2Proof.Machine
end

