-- ==== Sys2Proof/Machine/ChartOps.lean ====
section
/-! DEFINITION. The chart commands CHART_LOAD, CHART_UNLOAD and BIND (11 R350, R351; 05 R148, R152; 06 R181; 07 R219, R234;
13 R392; 14 R425). -/

namespace Sys2Proof.Machine

/-- A command that has started, with its opcode and not yet ended. -/
def State.started (s : State) (seq op : Nat) : Option Cmd :=
  match s.cmd seq with
  | some c => if c.opcode = op ∧ c.jstate = 2 ∧ ¬ c.ended ∧ s.helmRuns then some c else none
  | none => none

/-! ## CHART_LOAD -/

/-- Counters of the dictionary that count from CHART_LOAD (05 R171, 06 R211, 07 R250, 08 R284, 09 R310). -/
def loadCounters : List (Nat × Nat) :=
  [(0x9020, 2), (0x9041, 0)] ++ (List.range 8).map (fun i => (0x9030, i + 1)) ++ (List.range 4).map (fun i => (0x9041, i + 1)) ++
    (List.range 4).map (fun i => (0x9050, i + 1)) ++ (List.range 5).map (fun i => (0x9060, i + 1))

/-- The least of a list, 0 for none. -/
def minN : List Nat → Nat
  | [] => 0
  | x :: xs => xs.foldl min x

/-- POOL_FREE_MIN: the smallest TAIL − HEAD at CHART_LOAD (07 Table UPD-13). -/
def State.poolFreeMin (s : State) (u : Upd) : Nat :=
  minN (u.units.map (fun x => let y := s.unit (2 * x.stack + x.unit); (y.tail + 2 ^ 32 - y.head) % 2 ^ 32))

/-- Every tile, region and tap as CHART_LOAD leaves it before it writes tile images (05 R152, R172; 06 R181, R210): a
start record of a partner that runs already is kept, and so is a scratchpad, which only a reset or a shutter loses (02 R69). -/
def State.emptyFabric (s : State) : State :=
  let s := forEach s.allRegions s (fun s r =>
    let s := forEach (regionTiles r) s (fun s t => s.setTile t { (s.tile t).cleared s.freeCount with spad := (s.tile t).spad })
    s.modRegion r (fun x => { x with lines := [], fills := [], tw := [], ready := false }))
  let ports := s.link.ports.map (fun (p : Nat × Port) =>
    (p.1, { p.2 with taps := p.2.taps.map (fun (t : Nat × Tap) => (t.1, ({ startRec := t.2.startRec } : Tap))) }))
  { s with freeCount := s.freeCount + 1, transom := [], link := { s.link with ports := ports } }

/-- VALID of every tensor scale record counts from CHART_LOAD (03 Table FMT-7). -/
def State.restartValid (s : State) (c : Chart) : State :=
  forEach (c.tensors.filter (·.scaled)) s (fun s t => s.devPut (t.scale + 0xB) 0)

/-- Load a chart that has passed every check (05 R152, R160; 07 R219; 09 R308; 13 R392). -/
def State.loadChart (s : State) (c : Chart) : State :=
  let s := { s.dropChart with chart := some c, wp := {} }
  let s := (s.openRequired).closeAllowed
  let s := (s.emptyFabric).restartValid c
  let s := forEach (c.tileList.zip c.tiles).zipIdx s (fun s x => s.restoreTile c x.2 x.1.1 x.1.2 0)
  let s := forEach loadCounters s (fun s k => s.setObj k.1 k.2 0)
  let s := (s.restoreUnits c 0 (fun _ => true)).hearKept
  s.setObj 0x3200 1 (match c.upd with | some u => s.poolFreeMin u | none => 0)

/-- What the checks of an image read at `a`: a page, and the size that the header states, as far as device memory goes. -/
def State.imageReach (s : State) (a : Nat) : Nat := max 4096 (min (s.devNat (a + 8) 8) (s.devTop - a))

/-- What CHART_LOAD reads and writes beside the image: VALID of scale records, LIVE extents and running records (05 R152, R160;
03 Table FMT-7; 07 R219). -/
def Chart.loadReach (c : Chart) : List (Nat × Nat) :=
  (c.tensors.filter (·.scaled)).map (fun t => (t.scale + 0xB, 1)) ++
    c.tiles.flatMap (fun m => ((c.resid.getD m.resid []).filter (·.live)).map (fun e => (e.source, 4 * e.words))) ++
    (match c.upd with | some u => u.units.zipIdx.map (fun x => (u.recordAt 0 x.2, 4096)) | none => [])

/-- CHART_LOAD (R350): requires no chart; the image is checked, loaded and measured. It waits at the door of a stack it has to reach
(15 R431), and a stack error in what it reads ends it with FAULT (15 R433; DESIGN CHOICE, log 122). -/
def execChartLoad (seq : Nat) (ue : Option Nat) (s : State) : Host.Outcome State Fault Refusal :=
  match s.started seq 1 with
  | none => .next s
  | some k =>
    match s.chart with
    | some c => .next (s.endCmd seq 0x07 0 c.id)
    | none =>
      let a := fieldAt k.entry 8 8
      if s.stackHeld 0 a (s.imageReach a) then .next s
      else if let some x := ueIn ue [(a, s.imageReach a)] then .next (s.endUe seq x 0)
      else
      match s.chartChecks a with
      | some f => .next (s.endCmd seq 0x08 f.code (s.failResult a f))
      | none =>
        let c := s.readChart a
        if c.loadReach.any (fun r => s.stackHeld 0 r.1 r.2) then .next s
        else if let some x := ueIn ue c.loadReach then .next (s.endUe seq x 0)
        else
        let c := { c with digest := sha256 (s.devRead a c.size) }
        let s := (s.loadChart c).extend 2 c.digest
        .next ((s.modCmd seq (fun x => { x with context := c.id })).endCmd seq 0 0 c.id)

/-! ## CHART_UNLOAD -/

/-- Ports that retraining left degraded train afresh (10 R334), those that are in RETRAIN with fewer lanes among them. -/
def State.retrainDegraded (s : State) : State :=
  forEach s.ports s (fun s p =>
    let x := s.port p
    if (x.st = .active ∨ x.st = .retrain) ∧ (x.txMask ≠ 15 ∨ x.rxMask ≠ 15) then s.trainAfresh p else s)

/-- Unload the chart, whose commit is finished (05 R148; 06 R181; 10 R313, R334; 13 R392). -/
def State.unloadChart (s : State) (c : Chart) : State :=
  let s := forEach c.placed s (fun s r => s.cleanAll r)
  let s := forEach s.allRegions s (fun s r => s.modRegion r (fun x => { x with lines := [], fills := [], ready := false }))
  let s := forEach c.tileList s (fun s t => s.modTile t (fun x => { x with st := .idle, firing := none, sxcap := none }))
  let s := s.openDoors s.rcv.closed
  let s := { s.dropChart with transom := [] }
  let ports := s.link.ports.map (fun (p : Nat × Port) => (p.1, { p.2 with taps := [] }))
  let s := { s with link := { s.link with ports := ports } }
  ((s.closeAllowed).torusEffect).retrainDegraded

/-- CHART_UNLOAD (R350): requires a chart and no RUN; it waits while a fault is handled. The finish of a commit may meet `err`
(07 R234). -/
def execChartUnload (seq : Nat) (err : Option FinishErr) (s : State) : Host.Outcome State Fault Refusal :=
  match s.started seq 2 with
  | none => .next s
  | some _ =>
    match s.chart with
    | none => .next (s.endCmd seq 0x06 0 0)
    | some c =>
      if s.running then .next (s.endCmd seq 0x05 0 0)
      else if s.rcv.phase ≠ .idle then .next s
      else
        let f := s.finishCommit c err
        .next (if f.1 then (f.2.unloadChart c).endCmd seq 0 0 c.id else f.2.finishFails seq)

/-! ## BIND -/

/-- The ranges a chart declares, streams' walks apart (R351; 05 R173), each with the number of its tensor, or
none. A tensor with an ADDRESS of its own counts as bound at it (log 98). -/
def Chart.declared (c : Chart) : List (Option Nat × Nat × Nat) :=
  let own := (List.range c.tensors.length).filterMap (fun i => (c.tensorRange i).map (fun r => (some i, r)))
  let scales := c.tensors.filterMap (fun t => if t.scaled then some (t.scale, 128) else none)
  let tier := match c.tier with | some t => (t.save, 32 * t.streams.length) :: c.liveRanges t | none => []
  let upd := match c.upd with | some u => u.ranges ++ u.runs.map (fun r => (r.wimage, 1024 * r.count)) | none => []
  let red := match c.red with | some r => r.ranges | none => []
  own ++ (scales ++ [(c.tally, 32 * c.tensors.length), (c.wptArea, 512 * c.tiles.length)] ++ tier ++ upd ++ red).map (fun r => (none, r))

/-- What the TIER section reaches in device memory beside the ranges above: retained ranges, and the rows of every stream's
walks (05 R173). -/
def Chart.tierReach (c : Chart) : List (Nat × Nat) :=
  match c.tier with
  | none => []
  | some t =>
    t.retains.map (fun x => (x.base, x.bytes)) ++
      (t.streams.filter (fun r => decide (r.space = 0))).flatMap (fun r =>
        (List.range (r.rows * r.planes)).flatMap (fun k =>
          let off := k / r.rows * r.planePitch + k % r.rows * r.rowPitch
          (r.base + off, r.rowBytes) :: (if r.kind = 3 then [(r.alt + off, r.rowBytes)] else [])))

/-- A BIND's first bad argument (R351, Table HOST-7): the offset of the field. -/
def Chart.bindBad (c : Chart) (kind ix a n : Nat) : Option Nat :=
  if kind = 0 then
    match c.tensors[ix]? with
    | some t => if ¬ t.bound then some 0xA else if t.bytes ≠ n then some 0x18 else none
    | none => some 0xA
  else
    match (c.tier.getD {}).hsegs[ix]? with
    | some h => if a % 4096 ≠ 0 then some 0x10 else if h.bytes ≠ n then some 0x18 else none
    | none => some 0xA

/-- A tensor's range avoids the image, the journal reservation and every other range of the chart. Retained ranges and streams' walks are
views of ranges declared elsewhere and do not count (DESIGN CHOICE, log 127). -/
def Chart.bindFree (c : Chart) (ix a n : Nat) : Bool :=
  !overlaps a n c.image c.size && !overlaps a n journalBase journalBytes &&
    c.declared.all (fun r => decide (r.1 = some ix) || !overlaps a n r.2.1 r.2.2)

/-- SEED of a tensor's scale record is set by BIND (03 Table FMT-7): to the default the table gives, since BIND carries no value for
it (DEDUCED, log 51). -/
def State.setSeed (s : State) (c : Chart) (ix : Nat) : State :=
  match c.tensors[ix]? with
  | some t => if t.scaled then s.devWrite (t.scale + 4) (leBytes 4 f32One.toNat) else s
  | none => s

/-- The write of SEED by a BIND waits at its stack's door (15 R431). -/
def State.seedHeld (s : State) (c : Chart) (ix : Nat) : Bool :=
  match c.tensors[ix]? with
  | some t => t.scaled && s.stackHeld 0 (t.scale + 4) 4
  | none => false

/-- BIND (R351). -/
def execBind (seq : Nat) (s : State) : Host.Outcome State Fault Refusal :=
  match s.started seq 3 with
  | none => .next s
  | some k =>
    match s.chart with
    | none => .next (s.endCmd seq 0x06 0 0)
    | some c =>
      let kind := fieldAt k.entry 8 1
      let ix := fieldAt k.entry 0xA 2
      let a := fieldAt k.entry 0x10 8
      let n := fieldAt k.entry 0x18 8
      if s.running then .next (s.endCmd seq 0x05 0 0)
      else
        match c.bindBad kind ix a n with
        | some o => .next (s.endCmd seq 0x01 o 0)
        | none =>
          if kind = 0 then
            if ¬ s.inDevice a n then .next (s.endCmd seq 0x03 0 (max a s.devTop))
            else if ¬ c.bindFree ix a n then .next (s.endCmd seq 0x08 (codeI 8) (2 ^ 64 - 1))
            else if s.seedHeld c ix then .next s
            else .next ((({ s with chart := some { c with tensorAt := tset 0 c.tensorAt ix (a + 1) } } : State).setSeed c ix).endCmd seq 0 0 0)
          else .next (({ s with chart := some { c with hsegAt := tset 0 c.hsegAt ix (a + 1) } } : State).endCmd seq 0 0 0)

end Sys2Proof.Machine
end

