-- ==== Sys2Proof/Machine/Dict.lean ====
section
/-! DEFINITION. Reads of the object dictionary (12 R363-R371): the value of every object at the moment of the read. -/

namespace Sys2Proof.Machine

/-! ## Values that other parts of the state hold -/

/-- The object belongs to the Sextants, which the S4 and S2 do not have: it reads zero and ignores writes (00 R4). -/
def State.sextantAbsent (s : State) (idx : Nat) : Bool := decide (idx = 0x9020 ∧ s.variant ≠ 8)

/-- PART: the order code (00 Table SCOPE-1). -/
def partCode (v : Nat) : List Byte := [0x53, 0x4B, 0x53, BitVec.ofNat 8 (0x30 + v), 0x2D, 0x42, 0x31]

/-- The STATE code of a region status record (13 Table PWR-6). -/
def shutterCode : Shutter → Nat
  | .opened => 0 | .empty => 1 | .tripped => 2 | .regulator => 3

/-- The code of POWER_STATE (13 Table PWR-5). -/
def powerCode : PwState → Nat
  | .standby => 0 | .starting => 1 | .on => 2 | .stopping => 3 | .tripped => 4 | .cycling => 5

/-- A temperature as it reads: the default 0 until a sample has been taken (12 R377). -/
def sampled (t : Int) : Int := if t = noTemp then 0 else t

/-- REGION_STATUS: a record for each presented region (13 Table PWR-6). -/
def State.regionStatus (s : State) : List Byte :=
  s.allRegions.flatMap (fun r =>
    let x := s.rpw (s.physOf r)
    leBytes 2 x.vset ++ temp16 (sampled x.temp) ++ leBytes 1 (shutterCode x.shutter) ++ leBytes 1 x.cap ++ zeros 2)

/-- FAULT_READ: up to 32 kept records from FAULT_READ_NUM on, in number order (15 R436). -/
def State.faultRead (s : State) : List Byte :=
  ((s.rcv.faults.filter (fun r => decide (s.obj 0x6011 0 ≤ r.number))).take 32).flatMap faultBytes

/-- ESCALATION_STAMPS: the newest 16 stamps in the window, oldest first (15 R452). -/
def State.stampBytes (s : State) : List Byte :=
  let st := s.windowStamps
  (st.drop (st.length - 16)).flatMap (fun t => leBytes 8 t)

/-- CHART_STATE (12 Table DICT-8). -/
def State.chartState (s : State) : Nat := if s.running then 2 else if s.chart.isSome then 1 else 0

/-- A field of the commit record of the loaded chart; 0 where it has none (07 Table UPD-13). -/
def State.commitField (s : State) (off : Nat) : Nat :=
  match s.chart with
  | some c =>
    (match c.upd with
     | some u => s.devNat (u.commit + off) 4
     | none => 0)
  | none => 0

/-- The MAP section and the REDUCE section of the loaded chart. -/
def State.mapOf (s : State) : Option MapSec := s.chart.bind (·.map)
def State.redOf (s : State) : Option RedSec := s.chart.bind (·.red)

/-! ## Fixed-size objects -/

/-- Values of index range 0x1000 that the state holds elsewhere. -/
def State.num1 (s : State) (key : Nat) : Option Nat :=
  match key with
  | 0x100001 => some s.variant
  | 0x100002 => some 0xB1
  | 0x100003 => some s.serial.toNat
  | 0x100004 => some (s.fwVer s.helm.running)
  | 0x102003 => some s.dict.eid
  | 0x103000 => some s.now
  | 0x105000 => some (toF32 (tempV s.pw.helmT)).toNat
  | 0x110100 => some s.hi.jnext
  | _ => none

/-- Values of index ranges 0x2000 to 0x4000 that the state holds elsewhere. -/
def State.num2 (s : State) (key : Nat) : Option Nat :=
  match key with
  | 0x200001 => some s.pw.vin.toNat
  | 0x200002 => some s.pw.power.toNat
  | 0x200003 => some s.pw.current.toNat
  | 0x200004 => some s.pw.standbyV.toNat
  | 0x200300 => some (powerCode s.pw.state)
  | 0x201001 => some (toF32 (tempV (sampled (hottest s.dieTemps)))).toNat
  | 0x400001 => some s.chartId
  | 0x400002 => some s.chartState
  | 0x420001 => some (s.commitField 4)
  | 0x420002 => some (s.commitField 0x14)
  | 0x420003 => some (s.commitField 0x10)
  | 0x430001 => some (match s.mapOf with | some m => m.machine | none => 0)
  | 0x430002 => some (match s.mapOf with | some m => m.micro | none => 0)
  | 0x430003 => some (match s.mapOf with | some m => m.vchunk | none => 0)
  | _ => none

/-- STACK_TEMP and STACK_TEMP_MAX of stack `i` (12 Table DICT-8); 0 where no sample has been taken. -/
def State.stackNum (s : State) (i sub : Nat) : Nat :=
  if sub = 1 then (toF32 (tempV (tget 0 s.pw.stackT i))).toNat
  else
    let m := tget noTemp s.pw.stackMax i
    if m = noTemp then 0 else (toF32 (tempV m)).toNat

/-- The objects of a port (10 Table LINK-10); without main power PRE_FEC_BER reads as it last did (12 R377). -/
def State.portNum (s : State) (p sub : Nat) : Nat :=
  let x := s.port p
  match sub with
  | 1 => portStNum x.st
  | 2 => x.txMask + 16 * x.rxMask
  | 3 => fieldAt x.ident 0x10 8
  | 0xB => if s.pw.railsUp then s.berNow p else s.obj (0x5020 + p) 0xB
  | _ => s.obj (0x5020 + p) sub

/-- Values of index ranges 0x5000 to 0x8000 that the state holds elsewhere. -/
def State.num3 (s : State) (key : Nat) : Option Nat :=
  match key with
  | 0x500300 => some (moduleAddr s.link.pos)
  | 0x500400 => some (if s.established then 1 else 0)
  | 0x503100 => some (if s.link.refclk then 1 else 0)
  | 0x510001 => some (match s.redOf with | some r => r.thin | none => 0)
  | 0x510002 => some (match s.redOf with | some r => r.groups.length | none => 0)
  | 0x603000 => some s.wp.reg.toNat
  | 0x640000 => some (min s.windowStamps.length 255)
  | 0x650200 => some s.rcv.shed
  | 0x700001 => some s.log.sram.length
  | 0x700002 => some s.log.lost
  | 0x700003 => some (s.log.next % 2 ^ 32)
  | 0x700004 => some s.log.flash.length
  | 0x700005 => some (s.log.sram.filter (fun r => decide (s.log.spilled ≤ r.1))).length
  | 0x800000 => some s.helm.rollback
  | 0x800100 => some s.helm.active
  | 0x801002 => some (tget 0 s.dict.opctrs 0)
  | 0x801102 => some (tget 0 s.dict.opctrs 1)
  | 0x801202 => some (tget 0 s.dict.opctrs 2)
  | 0x801302 => some (tget 0 s.dict.opctrs 3)
  | 0x803400 => some s.helm.attestSt
  | _ => none

/-- The value of a fixed-size object, or the stored value. -/
def State.objNum (s : State) (idx sub : Nat) : Nat :=
  if 0x3100 ≤ idx ∧ idx < 0x3120 then s.stackNum (idx - 0x3100) sub
  else if 0x5020 ≤ idx ∧ idx < 0x5030 then s.portNum (idx - 0x5020) sub
  else
    match (if idx < 0x2000 then s.num1 (okey idx sub) else if idx < 0x5000 then s.num2 (okey idx sub) else s.num3 (okey idx sub)) with
    | some n => n
    | none => s.obj idx sub

/-! ## Objects of variable length -/

/-- The value of a STR or BLOB object. -/
def State.objBlob (s : State) (key : Nat) : List Byte :=
  match key with
  | 0x100005 => partCode s.variant
  | 0x100100 => directory s.variant
  | 0x201100 => s.regionStatus
  | 0x601200 => s.faultRead
  | 0x610000 => repairMapBytes s.variant s.rcv.bistRuns s.rcv.map
  | 0x610100 => s.dict.overrides.flatMap repairBytes
  | 0x640300 => s.stampBytes
  | 0x650300 => s.rcv.trace.flatten
  | 0x701200 => s.logRead
  | 0x800200 => s.dict.update
  | 0x801001 => s.opkey 0
  | 0x801101 => s.opkey 1
  | 0x801201 => s.opkey 2
  | 0x801301 => s.opkey 3
  | 0x803000 => s.identityKey
  | 0x803200 => s.helm.report
  | 0x803300 => s.identityCert
  | 0x803501 => s.measReg 0
  | 0x803502 => s.measReg 1
  | 0x803503 => s.measReg 2
  | 0x803504 => s.measReg 3
  | _ => []

/-! ## The read of an object -/

/-- The bytes a read of a present object returns: zeros of its length for a WO object (12 R364, R365). -/
def State.rowBytes (s : State) (r : ObjRow) : List Byte :=
  if r.acc = .wo ∨ s.sextantAbsent r.idx then zeros (if otFixed r.ty then otSize r.ty else tget 0 s.dict.woLen (okey r.idx r.sub))
  else if otFixed r.ty then leBytes (otSize r.ty) (s.objNum r.idx r.sub)
  else s.objBlob (okey r.idx r.sub)

/-- A read of an object: none where it is absent (NO_OBJECT). -/
def State.objRead (s : State) (idx sub : Nat) : Option (List Byte) := (objRow s.variant idx sub).map s.rowBytes

end Sys2Proof.Machine
end

