-- ==== Sys2Proof/Machine/DictChecks.lean ====
section
/-! DEFINITION. What a dictionary write is checked against (12 R364, R365, R368, R371, R378; 05 R173, 14 R420, R421, 15
R460): length, access, permitted range, the module's state, dump addresses. -/

namespace Sys2Proof.Machine

/-! ## Length -/

/-- A length that the object does not take (12 R364; R378, 14 R420, R421, R426, 15 R460 for the BLOB objects). -/
def badLength (r : ObjRow) (n : Nat) : Bool :=
  if otFixed r.ty then decide (n ≠ otSize r.ty)
  else
    decide (r.max < n) ||
      (match r.idx with
       | 0x6101 => decide (n % 16 ≠ 0)
       | 0x8002 => decide (n ≠ 48)
       | 0x8031 => decide (n ≠ 32)
       | 0x8003 => false
       | _ => decide (n ≠ 0 ∧ n ≠ 32))

/-! ## Reserved bits -/

/-- The reserved bits of an object's value (00 R14; 12 Table DICT-8, 13 Table PWR-5). -/
def reservedBits (key : Nat) : Nat :=
  match key with
  | 0x102002 => 0xFC
  | 0x204100 => 0xF0
  | _ => 0

/-- A value has a reserved bit set: the write is malformed (00 R14). -/
def reservedSet (r : ObjRow) (b : List Byte) : Bool := decide (leVal b &&& reservedBits (okey r.idx r.sub) ≠ 0)

/-! ## Range -/

/-- The permitted range of an unsigned object, ends included (Tables DICT-8, PWR-5, LINK-10, MAP-10, REDN-11, UPD-13,
RCV-8); none: every value of its type. -/
def objRange (v key : Nat) : Option (Nat × Nat) :=
  match key with
  | 0x102001 => some (0x08, 0x77)
  | 0x200100 => some (if v = 8 then (1000, 6600) else if v = 4 then (500, 3400) else (300, 1800))
  | 0x203100 => some (1000, 600000)
  | 0x203200 => some (500, 60000)
  | 0x420200 => some (1, 1000000)
  | 0x430100 => some (100, 600000)
  | 0x500101 => some (1, 32)
  | 0x500102 => some (1, 32)
  | 0x500103 => some (1, 32)
  | 0x500104 => some (1, 32)
  | 0x500201 => some (0, 31)
  | 0x500202 => some (0, 31)
  | 0x500203 => some (0, 31)
  | 0x500204 => some (0, 31)
  | 0x501100 => some (0, 1)
  | 0x503000 => some (8, 100000)
  | 0x510100 => some (1000, 10000000)
  | 0x602000 => some (1, 3)
  | 0x602100 => some (0, 16)
  | 0x602200 => some (1, 64)
  | 0x602300 => some (1000, 600000)
  | 0x602400 => some (200, 60000)
  | 0x800301 => some (0, 0)
  | _ => none

/-- The permitted range of an F32 object, each bound at its nearest binary32 value (DEDUCED). -/
def f32Range (key : Nat) : Option (W32 × W32) :=
  match key with
  | 0x200200 => some (0x3F0CCCCD, 0x3F59999A)
  | 0x201002 => some (0x42700000, 0x42BE0000)
  | 0x201003 => some (0x42700000, 0x42B40000)
  | _ => none

/-- A repair entry that an override may hold (15 Table RCV-7, R460). -/
def overrideOk (v : Nat) (e : RepairEntry) : Bool :=
  decide (1 ≤ e.kind ∧ e.kind ≤ 4 ∧ e.origin = 3 ∧ e.die < v ∧ e.row < 4 ∧ e.pcol < 7) &&
    (if e.kind = 1 ∨ e.kind = 4 then decide (e.trow = 0xFF ∧ e.tcol = 0xFF) else decide (e.trow < 4 ∧ e.tcol < 8)) &&
    (match e.kind with
     | 1 => decide (e.data = 0)
     | 2 => decide (e.data < 2 ^ 66)
     | 3 => decide (e.data < 2 ^ 30 ∧ bitsOf e.data 23 17 = 0 ∧ bitsOf e.data 29 24 ≤ 38)
     | _ => decide (e.data < 2 ^ 16))

/-- The entries a REPAIR_OVERRIDE value holds. -/
def overridesOf (b : List Byte) : List RepairEntry := repairList (b.length / 16) b

/-- A value of the right length lies outside the object's permitted range (12 R368). -/
def State.outOfRange (s : State) (r : ObjRow) (b : List Byte) : Bool :=
  let n := leVal b
  let key := okey r.idx r.sub
  match r.ty with
  | .bool => decide (1 < n)
  | .i32 =>
    let x := signed 32 n
    if key = 0x420301 then decide (x < -16 ∨ signed 32 (s.obj 0x4203 2) < x)
    else if key = 0x420302 then decide (24 < x ∨ x < signed 32 (s.obj 0x4203 1))
    else false
  | .f32 =>
    let w := BitVec.ofNat 32 n
    !isFin (ofF32 w) || (match f32Range key with | some (lo, hi) => !(f32Ge w lo && f32Ge hi w) | none => false)
  | .blob =>
    if r.idx = 0x6101 then (overridesOf b).any (fun e => !overrideOk s.variant e)
    else if key = 0x800302 then decide (b.length = 0 ∨ 0x4000000 < s.obj 0x8003 1 + b.length)
    else false
  | _ => (match objRange s.variant key with | some (lo, hi) => decide (n < lo ∨ hi < n) | none => false)

/-! ## The module's state -/

/-- A firmware update waits for its self-test (14 R422). -/
def State.updating (s : State) : Bool := s.helm.pending

/-- A write that the object's chapter forbids now (12 R368). -/
def State.writeBusy (s : State) (idx n : Nat) : Bool :=
  match idx with
  | 0x1010 => decide (n = 1) && s.chart.isSome
  | 0x5001 => s.chart.isSome
  | 0x5002 => s.chart.isSome
  | 0x5010 => s.chart.isSome
  | 0x5011 => s.chart.isSome
  | 0x5032 => s.running
  | 0x6001 => decide (n = 1) && gridLost s.variant s.nextMap
  | 0x6300 => decide (n = 1) && (s.chart.isSome || decide (s.obj 0x6300 1 = 1))
  | 0x7020 => decide (n = 1) && s.log.clearing.isSome
  | 0x8003 => s.updating
  | 0x8031 => decide (s.helm.attestSt = 1) || !s.helm.pufOk
  | 0x7010 => !s.pw.stacksUp
  | 0x7013 => !s.pw.stacksUp
  | _ => false

/-! ## Dumps -/

/-- The bytes a dump writes (05 R173, 06 R211, 14 R416). -/
def State.dumpBytes (s : State) (idx : Nat) : Nat :=
  match idx with
  | 0x9010 => 64 * (768 * s.variant)
  | 0x3010 => 32 * (24 * s.variant)
  | 0x7010 => 32 * s.log.sram.length
  | _ => 32 * s.log.flash.length

/-- An object whose write starts a dump. -/
def isDump (idx : Nat) : Bool := decide (idx = 0x9010 ∨ idx = 0x3010 ∨ idx = 0x7010 ∨ idx = 0x7013)

/-- The Helm refuses a dump address range (05 R173). -/
def State.dumpRefused (s : State) (a n : Nat) : Bool :=
  !s.inDevice a n || s.protects a n || overlaps a n journalBase journalBytes ||
    (match s.chart with
     | some c => c.declared.any (fun r => overlaps a n r.2.1 r.2.2) || c.tierReach.any (fun r => overlaps a n r.1 r.2)
     | none => false)

/-! ## Firmware (14 R421) -/

/-- The check of R421 that refuses an FW_UPDATE value: 1 to 4. -/
def State.fwRefused (s : State) (b : List Byte) : Option Nat :=
  let bank := 1 - s.helm.active
  if ¬ ((s.pw.state = .standby ∨ s.helm.recovery) ∧ ¬ s.updating) then some 1
  else if bytesAt b 0 32 ≠ s.fwDigest bank then some 2
  else if ¬ (s.helm.pufOk ∧ s.fwPasses bank) then some 3
  else if fieldAt b 0x20 4 ≠ s.fwVer bank ∨ fieldAt b 0x24 4 ≠ s.fwRollback bank then some 4
  else none

/-! ## The checks in order -/

/-- Status codes (12 Table DICT-3). -/
def stNoObject : Nat := 1
def stReadOnly : Nat := 2
def stLength : Nat := 3
def stMalformed : Nat := 4
def stAuth : Nat := 5
def stNoKey : Nat := 6
def stDevice : Nat := 7
def stStale : Nat := 8
def stSignature : Nat := 9
def stRange : Nat := 0xA
def stBusy : Nat := 0xB
def stAddress : Nat := 0xC
def stLastKey : Nat := 0xD
def stStore : Nat := 0xE

/-- What a value of the right access meets, lowest code first; `wide`: bits above the object's size are set (12 R368). -/
def State.valueStatus (s : State) (r : ObjRow) (b : List Byte) (wide : Bool) : Nat :=
  if badLength r b.length then stLength
  else if wide || s.outOfRange r b then stRange
  else if s.writeBusy r.idx (leVal b) then stBusy
  else if isDump r.idx && s.dumpRefused (leVal b) (s.dumpBytes r.idx) then stAddress
  else if r.idx = 0x8002 then (match s.fwRefused b with | none => 0 | some 1 => stBusy | some _ => stRange)
  else 0

/-- The write that installs the first operator key without a signature (12 R378). -/
def State.commissions (s : State) (r : ObjRow) (b : List Byte) : Bool :=
  decide (r.idx = 0x8010 ∧ r.sub = 1 ∧ b.length = 32) && !s.anyKey

/-- The status of an ordinary write, 0 for one that is taken (12 R365, R371). -/
def State.ordStatus (s : State) (idx sub : Nat) (b : List Byte) (wide : Bool) : Nat :=
  match objRow s.variant idx sub with
  | none => stNoObject
  | some r =>
    if s.sextantAbsent idx then 0
    else if r.acc = .ro then stReadOnly
    else if badLength r b.length then stLength
    else if reservedSet r b then stMalformed
    else if r.acc = .rwa ∧ ¬ s.commissions r b then stAuth
    else s.valueStatus r b wide

end Sys2Proof.Machine
end

