-- ==== Sys2Proof/Machine/DictWrite.lean ====
section
/-! DEFINITION. What a dictionary write does once it is taken (12 R366, R367, R378, R382 and the chapter of each object),
ordinary and signed writes (12 R371, R379, R380). -/

namespace Sys2Proof.Machine

/-! ## Effects of single objects -/

/-- RESTORE_DEFAULTS: every RW object marked P returns to its default (12 Table DICT-8). -/
def State.restoreDefaults (s : State) : State :=
  let keep := s.dict.objs.filter (fun kv =>
    match objRow s.variant (kv.1 / 256) (kv.1 % 256) with
    | some r => !(decide (r.acc = .rw) && r.p)
    | none => true)
  ({ s with dict := { s.dict with objs := keep } } : State).event srcHelm 0x1B05 []

/-- TIER_CLEAR (06 R210). -/
def State.tierClear (s : State) : State :=
  { s with regions := (s.allRegions.foldl (fun t r => tmod {} t r (fun x => { x with tw := [] })) s.regions) }

/-- STALL_CLEAR (05 R172). -/
def State.stallClear (s : State) : State :=
  { s with tiles := ((List.range (768 * s.variant)).foldl (fun t i => tmod {} t i (fun x => { x with stall := [] })) s.tiles) }

/-- A return to service (15 R454; 13 R392). -/
def State.returnToService (s : State) : State :=
  if s.oos then
    let s := ((s.setObj 0x6000 0 0).setObj 0x6002 0 0).event srcHelm 0x6A0A []
    let s := { s with rcv := { s.rcv with stamps := [], oosPend := none } }
    if s.pw.railsUp then s.openRequired.closeAllowed else s
  else s

/-- RESET_REQUEST (15 R451); `self` is the command that requests it. A request for a power cycle while main power is off
cycles nothing (log 34). -/
def State.resetRequest (s : State) (n self : Nat) : State :=
  if n = 1 then s.requestEngines self
  else if n = 2 then s.requestModule self
  else if s.pw.inputOn then s.issueCycle 0xFF self else s

/-- FW_STAGE_OFFSET: the inactive bank is erased (14 R420). -/
def State.eraseBank (s : State) : State :=
  let b := 1 - s.helm.active
  let s := s.setBank b (Memory.lost s.freeCount)
  let s := { s with freeCount := s.freeCount + 1, helm := { s.helm with staged := true, factory := if s.helm.factory = some b then none else s.helm.factory } }
  s.setObj 0x8003 1 0

/-- FW_STAGE_DATA: a piece of the image is stored at FW_STAGE_OFFSET, which advances (14 R420). -/
def State.stageData (s : State) (data : List Byte) : State :=
  let b := 1 - s.helm.active
  let o := s.obj 0x8003 1
  let s := { s with helm := { s.helm with staged := true, factory := if s.helm.factory = some b then none else s.helm.factory } }
  (s.setBank b ((s.bank b).writeN o data)).setObj 0x8003 1 (o + data.length)

/-- An FW_UPDATE is accepted: the pending-activation flag is set (14 R422). -/
def State.acceptUpdate (s : State) (v : List Byte) : State :=
  let s := s.protect true s.helm.rollback
  ({ s with dict := { s.dict with update := v } } : State).event srcHelm 0x8B02 []

/-- The Helm restarts into the inactive bank for an update just accepted (14 R422); whether the PUF gives K then is open (log 110). -/
def State.activate (s : State) : State :=
  (({ s with helm := { s.helm with selfTest := true, bootAt := s.now } } : State).helmReboot (1 - s.helm.active) (Config.pufGives (s.obj 0x1040 0))).powerAtOnce

/-- The update in its self-test is given up: the boot ROM, with what the PUF now gives, clears the flag and boots the former bank (14
R422, R419). -/
def State.fwFallback (s : State) (pufOk : Bool) : State :=
  let b := s.helm.active
  let s := ({ s with helm := { s.helm with selfTest := false, pufOk := pufOk } } : State).unpend
  ((s.helmReboot b pufOk).event srcHelm 0x8B05 []).recoveryOff.powerAtOnce

/-- ATTEST_NONCE: the fields of the report are captured (14 R426). -/
def State.attest (s : State) (nonce : List Byte) : State :=
  { s with helm := { s.helm with captured := s.attestFields nonce, attestSt := 1 } }

/-- OPKEY of a slot is written; MEAS[1] is extended again when the slot changes (12 R378, 14 R425). -/
def State.setOpkey (s : State) (slot : Nat) (v : List Byte) : State :=
  let first := !s.anyKey
  let same := decide (s.opkey slot = v)
  let s := { s with dict := { s.dict with opkeys := tset [] s.dict.opkeys slot v } }
  let s := if first then s.event srcHelm 0x8A03 [] else s
  if same then s else s.measureKeys

/-! ## A write that is taken -/

/-- Who writes: the journal number of the DICT_SET (0: another path), and the key slot and counter of a signed write. -/
structure Writer where
  seq  : Nat := 0
  slot : Nat := 0
  ctr  : Nat := 0
  deriving DecidableEq, Repr

/-- The effect of a write that has passed every check (12 R367). -/
def State.applyWrite (s : State) (w : Writer) (r : ObjRow) (b : List Byte) : State :=
  let n := leVal b
  match r.idx with
  | 0x1010 => if n = 1 then s.restoreDefaults else s
  | 0x2020 =>
    let s := s.setObj 0x2020 0 n
    if n = 0 ∧ s.pw.railsUp then s.openRequired else s
  | 0x2041 => s.setObj 0x2040 1 (clearBitsN (s.obj 0x2040 1) n)
  | 0x3010 => s.counterDump 0x3010 n
  | 0x3011 => if n = 1 then s.tierClear else s
  | 0x5032 => s.linkRetrain n
  | 0x6001 => let s := s.setObj 0x6001 0 n; if n = 1 then s.returnToService else s
  | 0x6020 => s.resetRequest n w.seq
  | 0x6101 => { s with dict := { s.dict with overrides := overridesOf b, ovPending := true } }
  | 0x6300 => if n = 1 then s.bistBegin else s
  | 0x7010 => s.devSend .helm n (s.dumpData 0x7010)
  | 0x7013 => s.devSend .helm n (s.dumpData 0x7013)
  | 0x7020 => let s := s.setObj 0x7020 0 n; if n = 1 then s.logClear w.slot w.ctr w.seq else s
  | 0x8002 => s.acceptUpdate b
  | 0x8003 => if r.sub = 1 then s.eraseBank else s.stageData b
  | 0x8010 => s.setOpkey 0 b
  | 0x8011 => s.setOpkey 1 b
  | 0x8012 => s.setOpkey 2 b
  | 0x8013 => s.setOpkey 3 b
  | 0x8031 => s.attest b
  | 0x9010 => s.counterDump 0x9010 n
  | 0x9011 => if n = 1 then s.stallClear else s
  | _ => if s.sextantAbsent r.idx then s else s.setObj r.idx r.sub n

/-- The length of the value a WO object of no fixed size holds (12 R364). -/
def State.noteLength (s : State) (r : ObjRow) (n : Nat) : State :=
  if r.acc = .wo ∧ ¬ otFixed r.ty then { s with dict := { s.dict with woLen := tset 0 s.dict.woLen (okey r.idx r.sub) n } } else s

/-- An ordinary write of an object: its status and the state after it (12 R365, R366, R371). -/
def State.ordWrite (s : State) (w : Writer) (idx sub : Nat) (b : List Byte) (wide : Bool) (st : Store) : Nat × State :=
  let code := s.ordStatus idx sub b wide
  match objRow s.variant idx sub with
  | none => (code, s)
  | some r =>
    if code ≠ 0 then (code, s)
    else if r.p ∧ st ≠ .ok ∧ ¬ s.sextantAbsent idx then (stStore, s)
    else (0, (s.applyWrite w r b).noteLength r b.length)

/-! ## Signed writes (12 R378-R380) -/

/-- MAGIC and the fields of a signed write (12 Table DICT-6). -/
def swLength (b : List Byte) : Nat := fieldAt b 0x1C 4
def swEnd (b : List Byte) : Nat := 0x20 + ceilDiv (swLength b) 8 * 8
def swValue (b : List Byte) : List Byte := bytesAt b 0x20 (swLength b)
def swSlot (b : List Byte) : Nat := fieldAt b 6 1
def swIndex (b : List Byte) : Nat := fieldAt b 0x18 2
def swSub (b : List Byte) : Nat := fieldAt b 0x1A 1
def swCounter (b : List Byte) : Nat := fieldAt b 0x10 8

/-- Check 1 of R380: the offset of the first field that is not as Table DICT-6 gives, the reserved bits of a value and the reserved bytes of
an FW_UPDATE value among them (00 R14, 14 Table HELM-6). -/
def State.layoutBad (s : State) (b : List Byte) : Option Nat :=
  let ty := fieldAt b 0x1B 1
  let tyOk := match objRow s.variant (swIndex b) (swSub b) with | some r => decide (ty = otCode r.ty) | none => decide (1 ≤ ty ∧ ty ≤ 10)
  if fieldAt b 0 4 ≠ 0x57524753 then some 0
  else if fieldAt b 4 2 ≠ 1 then some 4
  else if 3 < swSlot b then some 6
  else if fieldAt b 7 1 ≠ 0 then some 7
  else if tyOk = false then some 0x1B
  else if 4096 < swLength b ∨ b.length ≠ swEnd b + 7856 then some 0x1C
  else if ¬ zeroAt b (0x20 + swLength b) (swEnd b - 0x20 - swLength b) then some (0x20 + swLength b)
  else if swIndex b = 0x8002 ∧ swLength b = 48 ∧ ¬ zeroAt b 0x48 8 then some 0x48
  else if swLength b = 1 ∧ fieldAt b 0x20 1 &&& reservedBits (okey (swIndex b) (swSub b)) ≠ 0 then some 0x20
  else none

/-- The write would leave every key slot empty (12 R378). -/
def State.lastKey (s : State) (r : ObjRow) (v : List Byte) : Bool :=
  decide (0x8010 ≤ r.idx ∧ r.idx ≤ 0x8013 ∧ r.sub = 1) && v.isEmpty &&
    !((List.range 4).any (fun i => decide (0x8010 + i ≠ r.idx) && !(s.opkey i).isEmpty))

/-- Checks 3 to 7 of R380. -/
def State.signedStatus (s : State) (r : ObjRow) (b : List Byte) : Nat :=
  if (s.opkey (swSlot b)).isEmpty then stNoKey
  else if fieldAt b 8 8 ≠ s.serial.toNat then stDevice
  else if swCounter b ≠ tget 0 s.dict.opctrs (swSlot b) then stStale
  else if ¬ slh128s.verify (s.opkey (swSlot b)) (b.take (swEnd b)) (b.drop (swEnd b)) then stSignature
  else if s.sextantAbsent r.idx then (if badLength r (swLength b) then stLength else 0)
  else
    let st := s.valueStatus r (swValue b) false
    if st ≠ 0 then st else if s.lastKey r (swValue b) then stLastKey else 0

/-- EV SIGNED_WRITE_REFUSED with a status. -/
def State.refusedEvent (s : State) (st : Nat) : State :=
  s.event srcHelm 0x8A02 (leBytes 1 st)

/-- A refusal at checks 3 to 7; the check of R421 that failed is recorded too. -/
def State.refuseSigned (s : State) (r : ObjRow) (b : List Byte) (st : Nat) : State :=
  let s := (s.bump 0x8040 0 32 1).refusedEvent st
  match (if r.idx = 0x8002 ∧ stRange ≤ st then s.fwRefused (swValue b) else none) with
  | some k => s.event srcHelm 0x8B03 (leBytes 1 k)
  | none => s

/-- Step 8 of R380: the counter is stored, then the value, and MEAS[3] is extended; a report that the write starts is captured when that is
done (14 R426). EV SIGNED_WRITE carries the write's own COUNTER, before the advance (DEDUCED, log 72). -/
def State.commitSigned (s : State) (w : Writer) (r : ObjRow) (b : List Byte) (st : Store) : Nat × State :=
  match st with
  | .counter => (stStore, s)
  | st =>
    let slot := swSlot b
    let ctr := swCounter b
    let s := { s with dict := { s.dict with opctrs := tset 0 s.dict.opctrs slot (satAdd 64 ctr 1) } }
    if r.p ∧ st = .value ∧ ¬ s.sextantAbsent r.idx then (stStore, s.refusedEvent stStore)
    else
      let s := (s.applyWrite { w with slot := slot, ctr := ctr } r (swValue b)).noteLength r (swValue b).length
      let s := s.event srcHelm 0x8A01 (leBytes 1 slot ++ leBytes 2 (swIndex b) ++ leBytes 1 (swSub b) ++ leBytes 8 ctr)
      let s := s.extend 3 (sha256 (b.take (swEnd b)))
      (0, if r.idx = 0x8002 then s.activate else if r.idx = 0x8031 then s.attest (swValue b) else s)

/-- A signed write: its status and the state after it (12 R380). -/
def State.signedWrite (s : State) (w : Writer) (b : List Byte) (st : Store) : Nat × State :=
  match s.layoutBad b with
  | some _ => (stMalformed, s)
  | none =>
    match objRow s.variant (swIndex b) (swSub b) with
    | none => (stNoObject, s)
    | some r =>
      if r.acc = .ro ∧ ¬ s.sextantAbsent r.idx then (stReadOnly, s)
      else
        let code := s.signedStatus r b
        if code ≠ 0 then (code, s.refuseSigned r b code) else s.commitSigned w r b st

end Sys2Proof.Machine
end

