-- ==== Sys2Proof/Machine/Access.lean ====
section
/-! DEFINITION. The access paths of the object dictionary (12 R369-R381): DICT_GET and DICT_SET, MCTP, and the commands named
after the object they write. -/

namespace Sys2Proof.Machine

/-! ## In-band access (12 R372) -/

/-- INDEX, SUB, LENGTH, BUF and VALUE of a dictionary command (11 Table HOST-5). -/
def Cmd.dictIndex (k : Cmd) : Nat := fieldAt k.entry 8 2
def Cmd.dictSub (k : Cmd) : Nat := fieldAt k.entry 0xA 1
def Cmd.dictLength (k : Cmd) : Nat := fieldAt k.entry 0xC 4
def Cmd.dictBuf (k : Cmd) : Nat := fieldAt k.entry 0x10 8
def Cmd.dictValue (k : Cmd) : Nat := fieldAt k.entry 0x18 8

/-- DICT_GET (R372): a fixed-size value in RESULT, another at BUF; DETAIL holds the length. -/
def execDictGet (seq : Nat) (pcieError : Bool) (s : State) : Host.Outcome State Fault Refusal :=
  match s.started seq 7 with
  | none => .next s
  | some k =>
    match objRow s.variant k.dictIndex k.dictSub with
    | none => .next (s.endCmd seq 0x20 stNoObject 0)
    | some r =>
      let v := s.rowBytes r
      let t := { s with freeCount := s.freeCount + 1 }
      if otFixed r.ty then .next (t.endCmd seq 0 v.length (leVal v))
      else if k.dictLength < v.length then .next (t.endCmd seq 0x01 v.length 0)
      else if pcieError then .next (t.endCmd seq 0x0F 0 0)
      else .next (({ t with hostMem := t.hostMem.writeN k.dictBuf v } : State).endCmd seq 0 v.length 0)

/-- A DICT_SET ends with the status of its write; a LOG_CLEAR ends when the flash ring is erased (14 R417). -/
def dictSetEnd (seq : Nat) (x : Nat × State) : State :=
  if x.1 ≠ 0 then x.2.endCmd seq 0x20 x.1 0
  else
    match x.2.log.clearing with
    | some (_, q) => if q = seq then x.2 else x.2.endCmd seq 0 0 0
    | none => x.2.endCmd seq 0 0 0

/-- The object that a DICT_SET writes. -/
def State.dictTarget (s : State) (k : Cmd) : Nat :=
  if k.flags % 2 = 1 then swIndex (s.hostMem.readN k.dictBuf k.dictLength) else k.dictIndex

/-- A dump to `a` waits: at the door of a stack that it writes (15 R431), or for an earlier write of its object to complete (05 R173). -/
def State.dumpWaits (s : State) (seq idx a : Nat) : Bool :=
  isDump idx &&
    ((s.pw.stacksUp && s.stackHeld 0 a (s.dumpBytes idx)) ||
      s.hi.cmds.any (fun c => decide (c.seq < seq ∧ c.opcode = 8 ∧ c.jstate = 2) && !c.ended && decide (s.dictTarget c = idx)))

/-- So does the dump that a signed write starts. -/
def State.signedWaits (s : State) (seq : Nat) (b : List Byte) : Bool :=
  match objRow s.variant (swIndex b) (swSub b) with
  | some r => s.dumpWaits seq r.idx (leVal (swValue b)) && decide (s.signedStatus r b = 0)
  | none => false

/-- DICT_SET (R372, R380); reserved bits of VALUE make it malformed (00 R14). One that starts a dump completes when the dump is
written (05 R173), so it waits as the dump does. -/
def execDictSet (seq : Nat) (pcieError : Bool) (st : Store) (s : State) : Host.Outcome State Fault Refusal :=
  match s.started seq 8 with
  | none => .next s
  | some k =>
    let buf := s.hostMem.readN k.dictBuf k.dictLength
    if s.log.clearing.any (fun c => decide (c.2 = seq)) then .next s
    else if k.flags % 2 = 1 then
      if pcieError then .next (s.endCmd seq 0x0F 0 0)
      else
        match s.layoutBad buf with
        | some o => .next (s.endCmd seq 0x01 o 0)
        | none => if s.signedWaits seq buf then .next s else .next (dictSetEnd seq (s.signedWrite { seq := seq } buf st))
    else
      match objRow s.variant k.dictIndex k.dictSub with
      | none => .next (s.endCmd seq 0x20 stNoObject 0)
      | some r =>
        if otFixed r.ty then
          if k.dictLength ≠ 0 then .next (s.endCmd seq 0x01 0x0C 0)
          else if k.dictBuf ≠ 0 then .next (s.endCmd seq 0x01 0x10 0)
          else if k.dictValue &&& reservedBits (okey r.idx r.sub) ≠ 0 then .next (s.endCmd seq 0x01 0x18 0)
          else
            let n := otSize r.ty
            let wide := decide (2 ^ (8 * n) ≤ k.dictValue)
            if s.dumpWaits seq r.idx k.dictValue ∧ s.ordStatus r.idx r.sub (leBytes n k.dictValue) wide = 0 then .next s
            else .next (dictSetEnd seq (s.ordWrite { seq := seq } r.idx r.sub (leBytes n k.dictValue) wide st))
        else if k.dictValue ≠ 0 then .next (s.endCmd seq 0x01 0x18 0)
        else if pcieError then .next (s.endCmd seq 0x0F 0 0)
        else .next (dictSetEnd seq (s.ordWrite { seq := seq } r.idx r.sub buf false st))

/-! ## MCTP (12 R374-R377) -/

/-- OP, INDEX, SUB, OFFSET, LENGTH and DATA of a message body (12 Table DICT-5). -/
def mOp (b : List Byte) : Nat := fieldAt b 1 1
def mIndex (b : List Byte) : Nat := fieldAt b 4 2
def mSub (b : List Byte) : Nat := fieldAt b 6 1
def mOffset (b : List Byte) : Nat := fieldAt b 8 4
def mLength (b : List Byte) : Nat := fieldAt b 0xC 4
def mData (b : List Byte) : List Byte := b.drop 0x10

/-- A request whose layout is not that of Table DICT-5. -/
def mctpBad (b : List Byte) : Bool :=
  decide (fieldAt b 0 1 ≠ 1 ∨ fieldAt b 7 1 ≠ 0) ||
    (match mOp b with
     | 1 => decide (mLength b = 0 ∨ 4096 < mLength b ∨ mData b ≠ [])
     | 2 => decide (mOffset b ≠ 0 ∨ (mData b).length ≠ mLength b)
     | 3 => decide (mOffset b ≠ 0 ∨ (mData b).length ≠ mLength b)
     | _ => true)

/-- The response to a request: OP with bit 7 set, TAG, INDEX and SUB echoed (12 R375). -/
def mctpReply (b : List Byte) (status off : Nat) (data : List Byte) : List Byte :=
  [1] ++ leBytes 1 (mOp b ||| 0x80) ++ bytesAt b 2 5 ++ leBytes 1 status ++ leBytes 4 off ++ leBytes 4 data.length ++ data

/-- The objects served in recovery mode (14 R419). -/
def recoveryServes (idx sub : Nat) : Bool :=
  decide ((idx = 0x1000 ∧ sub = 3) ∨ (0x8000 ≤ idx ∧ idx ≤ 0x8003) ∨ (0x8010 ≤ idx ∧ idx ≤ 0x8013) ∨ idx = 0x7011 ∨ idx = 0x7012)

/-- A binding that is enabled and served (12 R377): SMBus with standby, PCIe VDM while its link is up; in recovery mode SMBus alone
(14 R419). -/
def State.bindingUp (s : State) (vdm : Bool) : Bool :=
  let en := s.obj 0x1020 2
  if vdm then en.testBit 1 && s.hi.pcieUp && !s.helm.recovery else en.testBit 0

/-- In recovery mode only some objects are served (14 R419). -/
def State.objServed (s : State) (idx sub : Nat) : Bool := !s.helm.recovery || recoveryServes idx sub

/-- The Helm serves a request that can be assembled, of an object it serves (12 R374, R376, R377). -/
def State.mctpServes (s : State) (vdm : Bool) (b : List Byte) : Bool :=
  s.helmRuns && decide (0x10 ≤ b.length ∧ b.length ≤ 12288) && s.bindingUp vdm &&
    s.objServed (if mOp b = 3 then swIndex (mData b) else mIndex b) (if mOp b = 3 then swSub (mData b) else mSub b)

/-- The answer to a request, its status with it. -/
def State.answer (s : State) (b : List Byte) (status off : Nat) (data : List Byte) : State :=
  { s with dict := { s.dict with status := status, response := mctpReply b status off data } }

/-- The answer to a write; a LOG_CLEAR is answered when the flash ring is erased (14 R417). -/
def mctpSetEnd (s : State) (src : Nat) (b : List Byte) (x : Nat × State) : State :=
  if x.1 = 0 ∧ s.log.clearing = none ∧ x.2.log.clearing.isSome then { x.2 with dict := { x.2.dict with serving := some (src, b) } }
  else x.2.answer b x.1 0 []

/-- A GET, or a request whose OP is none of Table DICT-5. -/
def State.mctpRead (s : State) (b : List Byte) : State :=
  let t := { s with freeCount := s.freeCount + 1 }
  match s.objRead (mIndex b) (mSub b) with
  | none => t.answer b stNoObject 0 []
  | some v =>
    if mctpBad b then t.answer b stMalformed 0 []
    else t.answer b 0 v.length ((v.drop (mOffset b)).take (mLength b))

/-- A SET: the lowest status that applies (R371). -/
def State.mctpWrite (s : State) (src : Nat) (b : List Byte) (st : Store) : State :=
  let code := s.ordStatus (mIndex b) (mSub b) (mData b) false
  if mctpBad b then s.answer b (if 1 ≤ code ∧ code ≤ 3 then code else stMalformed) 0 []
  else mctpSetEnd s src b (s.ordWrite {} (mIndex b) (mSub b) (mData b) false st)

/-- A SET_SIGNED (R380). -/
def State.mctpSigned (s : State) (src : Nat) (b : List Byte) (st : Store) : State :=
  if mctpBad b then s.answer b stMalformed 0 []
  else mctpSetEnd s src b (s.signedWrite {} (mData b) st)

/-- A request is served. -/
def State.mctpServe (s : State) (src : Nat) (b : List Byte) (st : Store) : State :=
  match mOp b with
  | 2 => s.mctpWrite src b st
  | 3 => s.mctpSigned src b st
  | _ => s.mctpRead b

/-- The same source and TAG: a request sent again (12 R376). -/
def mctpSame (src : Nat) (b : List Byte) (x : Nat × List Byte) : Bool := decide (x.1 = src ∧ fieldAt x.2 2 2 = fieldAt b 2 2)

/-- A request arrives: it is served at once, waits behind one that is being served, or is discarded as one that is served or
waits already (12 R376; log 107). -/
def State.mctpArrive (s : State) (vdm : Bool) (src : Nat) (b : List Byte) (st : Store) : State :=
  if s.mctpServes vdm b then
    match s.dict.serving with
    | none => ({ s with dict := { s.dict with earlier := [] } } : State).mctpServe src b st
    | some x =>
      if mctpSame src b x ∨ s.dict.waiting.any (fun y => mctpSame src b (y.1, y.2.1)) then s
      else { s with dict := { s.dict with waiting := s.dict.waiting ++ [(src, b, st)] } }
  else s

/-- The requests that have waited are served in order of arrival, up to one whose answer waits again. -/
def mctpDrain : List (Nat × List Byte × Store) → State → State
  | [], s => s
  | (src, b, st) :: rest, s =>
    if s.dict.serving.isSome then { s with dict := { s.dict with waiting := (src, b, st) :: rest } }
    else mctpDrain rest (({ s with dict := { s.dict with earlier := s.dict.earlier ++ [s.dict.response] } } : State).mctpServe src b st)

/-- MCTP_GET (R375), and a request whose OP is none of Table DICT-5. -/
def execMctpGet (vdm : Bool) (src : Nat) (body : List Byte) (s : State) : Host.Outcome State Fault Refusal :=
  if mOp body ≠ 2 ∧ mOp body ≠ 3 then .next (s.mctpArrive vdm src body .ok) else .next s

/-- MCTP_SET (R375). -/
def execMctpSet (vdm : Bool) (src : Nat) (body : List Byte) (st : Store) (s : State) : Host.Outcome State Fault Refusal :=
  if mOp body = 2 then .next (s.mctpArrive vdm src body st) else .next s

/-- MCTP_SET_SIGNED (R375, R380). -/
def execMctpSetSigned (vdm : Bool) (src : Nat) (body : List Byte) (st : Store) (s : State) : Host.Outcome State Fault Refusal :=
  if mOp body = 3 then .next (s.mctpArrive vdm src body st) else .next s

/-! ## MCTP control messages (12 R374; DSP0236, PRESUMED) -/

/-- Control messages are answered on an enabled binding, at once (log 107). -/
def State.controlServed (s : State) (vdm : Bool) : Bool := s.helmRuns && s.bindingUp vdm

/-- A control response: command code, completion code and data. -/
def State.control (s : State) (cmd code : Nat) (data : List Byte) : State :=
  { s with dict := { s.dict with response := leBytes 1 cmd ++ leBytes 1 code ++ data, earlier := [] } }

/-- Set Endpoint ID: an assignable ID is taken, another answered with ERROR_INVALID_DATA. -/
def execSetEndpointId (vdm : Bool) (eid : Nat) (s : State) : Host.Outcome State Fault Refusal :=
  if s.controlServed vdm then
    if 8 ≤ eid ∧ eid < 0xFF then
      .next (({ s with dict := { s.dict with eid := eid } } : State).control 1 0 ([0] ++ leBytes 1 eid ++ [0]))
    else .next (s.control 1 2 [])
  else .next s

/-- Get Endpoint ID: a simple endpoint with a dynamic ID. -/
def execGetEndpointId (vdm : Bool) (s : State) : Host.Outcome State Fault Refusal :=
  if s.controlServed vdm then .next (s.control 2 0 (leBytes 1 s.dict.eid ++ [0, 0])) else .next s

/-- Get MCTP Version Support: version 1.3 of the base specification. -/
def execGetMctpVersionSupport (vdm : Bool) (s : State) : Host.Outcome State Fault Refusal :=
  if s.controlServed vdm then .next (s.control 4 0 [1, 0xF1, 0xF3, 0xFF, 0x00]) else .next s

/-- Get Message Type Support: message type 0x7E. -/
def execGetMessageTypeSupport (vdm : Bool) (s : State) : Host.Outcome State Fault Refusal :=
  if s.controlServed vdm then .next (s.control 5 0 [1, 0x7E]) else .next s

/-- Get Vendor Defined Message Support: the PCI Vendor ID of Balori, and no further set. -/
def execGetVendorDefinedMsgSupport (vdm : Bool) (s : State) : Host.Outcome State Fault Refusal :=
  if s.controlServed vdm then
    .next (s.control 6 0 ([0xFF, 0x00] ++ (leBytes 2 Config.vendorId.toNat).reverse ++ (leBytes 2 Config.vendorSet.toNat).reverse))
  else .next s

/-! ## Commands named after the object they write -/

/-- An ordinary write on no particular path, of an object that is served (14 R419); its status is left in the state. -/
def State.writeObject (s : State) (idx sub : Nat) (b : List Byte) (wide : Bool) (st : Store) : State :=
  if s.helmRuns ∧ s.objServed idx sub then
    let x := s.ordWrite {} idx sub b wide st
    { x.2 with dict := { x.2.dict with status := x.1 } }
  else s

/-- The same with a number of a fixed-size object. -/
def State.writeNumber (s : State) (idx sub size v : Nat) (st : Store) : State :=
  s.writeObject idx sub (leBytes size v) (decide (2 ^ (8 * size) ≤ v)) st

/-- A signed write of the object the command names. -/
def State.writeSigned (s : State) (idx : Nat) (b : List Byte) (st : Store) : State :=
  if s.helmRuns ∧ swIndex b = idx ∧ swSub b = 0 ∧ s.objServed idx 0 then
    let x := s.signedWrite {} b st
    { x.2 with dict := { x.2.dict with status := x.1 } }
  else s

/-- DICT_WRITE: an ordinary write of any object (R367). -/
def execDictWrite (index sub : Nat) (value : List Byte) (st : Store) (s : State) : Host.Outcome State Fault Refusal :=
  .next (s.writeObject index sub value false st)

/-- OPKEY: an ordinary write of a key slot, which installs slot 0 while every slot is empty (R378). -/
def execOpkey (slot : Nat) (value : List Byte) (st : Store) (s : State) : Host.Outcome State Fault Refusal :=
  .next (s.writeObject (0x8010 + slot) 1 value false st)

/-- RESTORE_DEFAULTS (Table DICT-8). -/
def execRestoreDefaults (v : Nat) (s : State) : Host.Outcome State Fault Refusal := .next (s.writeNumber 0x1010 0 1 v .ok)

/-- PT_ALARM_CLEAR (13 R396). -/
def execPtAlarmClear (v : Nat) (s : State) : Host.Outcome State Fault Refusal := .next (s.writeNumber 0x2041 0 1 v .ok)

/-- SHUTTER_EMPTY (13 R392). -/
def execShutterEmpty (v : Nat) (st : Store) (s : State) : Host.Outcome State Fault Refusal := .next (s.writeNumber 0x2020 0 1 v st)

/-- STALL_DUMP (05 R173). -/
def execStallDump (addr : W64) (s : State) : Host.Outcome State Fault Refusal := .next (s.writeNumber 0x9010 0 8 addr.toNat .ok)

/-- STALL_CLEAR (05 R172). -/
def execStallClear (v : Nat) (s : State) : Host.Outcome State Fault Refusal := .next (s.writeNumber 0x9011 0 1 v .ok)

/-- TIER_DUMP (06 R211). -/
def execTierDump (addr : W64) (s : State) : Host.Outcome State Fault Refusal := .next (s.writeNumber 0x3010 0 8 addr.toNat .ok)

/-- TIER_CLEAR (06 R210). -/
def execTierClear (v : Nat) (s : State) : Host.Outcome State Fault Refusal := .next (s.writeNumber 0x3011 0 1 v .ok)

/-- SEXTANT_ENABLE (05 R171, 00 R4). -/
def execSextantEnable (v : Nat) (st : Store) (s : State) : Host.Outcome State Fault Refusal := .next (s.writeNumber 0x9020 1 1 v st)

/-- TORUS_LEN or TORUS_POS of an axis (10 R313, R338). -/
def execTorusLen (pos : Bool) (axis v : Nat) (st : Store) (s : State) : Host.Outcome State Fault Refusal :=
  .next (s.writeNumber (if pos then 0x5002 else 0x5001) (axis + 1) 1 v st)

/-- LINK_RETRAIN (10 R334). -/
def execLinkRetrain (v : Nat) (s : State) : Host.Outcome State Fault Refusal := .next (s.writeNumber 0x5032 0 2 v .ok)

/-- RETURN_TO_SERVICE (15 R454). -/
def execReturnToService (signedWrite : List Byte) (st : Store) (s : State) : Host.Outcome State Fault Refusal :=
  .next (s.writeSigned 0x6001 signedWrite st)

/-- REPAIR_OVERRIDE (15 R460). -/
def execRepairOverride (signedWrite : List Byte) (st : Store) (s : State) : Host.Outcome State Fault Refusal :=
  .next (s.writeSigned 0x6101 signedWrite st)

/-- BIST_START (15 R462). -/
def execBistStart (v : Nat) (s : State) : Host.Outcome State Fault Refusal := .next (s.writeNumber 0x6300 0 1 v .ok)

/-- BIST_DONE: the BIST that BIST_START began ends (15 R461, R462). -/
def execBistDone (findings : List RepairEntry) (s : State) : Host.Outcome State Fault Refusal :=
  if s.helmRuns ∧ s.obj 0x6300 1 = 1 then .next (s.bistEnd findings) else .next s

/-- RESET_REQUEST 1 (15 R451). -/
def execEngineResetRequest (s : State) : Host.Outcome State Fault Refusal := .next (s.writeNumber 0x6020 0 1 1 .ok)

/-- RESET_REQUEST 2 (15 R451). -/
def execModuleResetRequest (s : State) : Host.Outcome State Fault Refusal := .next (s.writeNumber 0x6020 0 1 2 .ok)

/-- RESET_REQUEST 3 (15 R451). -/
def execPowerCycleRequest (s : State) : Host.Outcome State Fault Refusal := .next (s.writeNumber 0x6020 0 1 3 .ok)

/-- LOG_DUMP (14 R416). -/
def execLogDump (addr : W64) (s : State) : Host.Outcome State Fault Refusal := .next (s.writeNumber 0x7010 0 8 addr.toNat .ok)

/-- LOG_FLASH_DUMP (14 R416). -/
def execLogFlashDump (addr : W64) (s : State) : Host.Outcome State Fault Refusal := .next (s.writeNumber 0x7013 0 8 addr.toNat .ok)

/-- LOG_CLEAR (14 R417). -/
def execLogClear (signedWrite : List Byte) (st : Store) (s : State) : Host.Outcome State Fault Refusal :=
  .next (s.writeSigned 0x7020 signedWrite st)

/-- FW_STAGE_OFFSET (14 R420). -/
def execFwStageOffset (v : Nat) (s : State) : Host.Outcome State Fault Refusal := .next (s.writeNumber 0x8003 1 4 v .ok)

/-- FW_STAGE_DATA (14 R420). -/
def execFwStageData (data : List Byte) (s : State) : Host.Outcome State Fault Refusal := .next (s.writeObject 0x8003 2 data false .ok)

/-- FW_UPDATE (14 R421, R422). -/
def execFwUpdate (signedWrite : List Byte) (st : Store) (s : State) : Host.Outcome State Fault Refusal :=
  .next (s.writeSigned 0x8002 signedWrite st)

/-- ATTEST_NONCE (14 R426). -/
def execAttestNonce (nonce : List Byte) (s : State) : Host.Outcome State Fault Refusal := .next (s.writeObject 0x8031 0 nonce false .ok)

end Sys2Proof.Machine
end

