-- ==== Sys2Proof/Machine/Commands.lean ====
section
/-! DEFINITION. The commands RUN, COPY, FENCE, JOURNAL_MARK and ABORT (11 R346, R352-R355; 05 R153, R158; 06 R181, R201; 08
R262; 15 R445, R446). -/

namespace Sys2Proof.Machine

/-! ## RUN -/

/-- The lowest unbound range, tensors first: DETAIL of NOT_BOUND (11 Table HOST-7). -/
def Chart.unbound (c : Chart) : Option Nat :=
  match (List.range c.tensors.length).find? (fun i => (c.tensorRange i).isNone) with
  | some i => some i
  | none => ((List.range (c.tier.getD {}).hsegs.length).find? (fun k => decide (tget 0 c.hsegAt k = 0))).map (fun k => 2 ^ 31 + k)

/-- Every store starts a RUN without a line (06 R181); what was fetched ahead is fetched again. -/
def State.emptyStores (s : State) (c : Chart) : State :=
  let s := forEach s.allRegions s (fun s r => s.modRegion r (fun x => { x with lines := [], fills := [] }))
  forEach (c.tier.getD {}).streams.zipIdx s (fun s x => s.setTstream x.2 { s.tstream x.2 with fetched := s.slowest x.2 x.1 })

/-- What a RUN reads to restore what resets have cleared since the last completed waypoint. -/
def State.closedReach (s : State) (c : Chart) : List (Nat × Nat) :=
  let shut := s.rcv.closed ++ s.rcv.cleared
  if shut.isEmpty then []
  else s.restoreReach c s.wp.count
    (fun r => shut.contains (DomKind.dataflow, s.physOf r) || shut.contains (DomKind.tier, s.physOf r))
    (fun u => shut.contains (DomKind.update, u))

/-- What resets have cleared since the last completed waypoint is restored from it, and the doors open (15 R445). -/
def State.restoreClosed (s : State) (c : Chart) : State :=
  let w := s.wp.count
  let shut := s.rcv.closed ++ s.rcv.cleared
  let s := forEach c.placed s (fun s r =>
    if shut.contains (DomKind.dataflow, s.physOf r) then s.restoreRegion c r w
    else if shut.contains (DomKind.tier, s.physOf r) then s.restoreStreams c r w else s)
  let s := s.restoreUnits c w (fun u => shut.contains (DomKind.update, u))
  let s := if shut.isEmpty then s else s.restoreRedn
  ({ s.rebaseTaps with rcv := { s.rebaseTaps.rcv with cleared := [] } } : State).openDoors s.rcv.closed

/-- A bound tap's link engine sends the start record (08 R262, 10 Table LINK-6). -/
def State.sendStart (s : State) (c : Chart) (n : Nat) (r : TapRec) : State :=
  let m := match c.map with | some x => x.machine | none => 0
  s.queueFlit r.port (mkFlit 7 0 (leBytes 8 m ++ leBytes 1 r.use ++ leBytes 1 (tapVc r) ++ zeros 6 ++ leBytes 8 n))

/-- A RUN begins: from the last completed waypoint; with bound taps no tile fires before the start records match. -/
def State.beginRun (s : State) (c : Chart) (k : Cmd) : State :=
  let n := fieldAt k.entry 8 8
  let s := { s with run := some { seq := k.seq, steps := n, waiting := !c.taps.isEmpty, since := s.now, limit := s.obj 0x4301 0, stopAt := k.stopAt, stopBy := k.stopBy } }
  let s := ((s.restoreClosed c).emptyStores c).setPasses c
  if c.taps.isEmpty then s.releaseTiles c
  else
    let s := { s with wp := { s.wp with released := false } }
    (forEach c.taps s (fun s r => s.sendStart c n r)).checkStarts

/-- RUN (R352): requires a chart, no RUN and every range bound; it waits while a fault is handled. A stack error in what it restores
ends it with FAULT (15 R433; DESIGN CHOICE, log 122). -/
def execRun (seq : Nat) (ue : Option Nat) (s : State) : Host.Outcome State Fault Refusal :=
  match s.started seq 4 with
  | none => .next s
  | some k =>
    match s.chart with
    | none => .next (s.endCmd seq 0x06 0 0)
    | some c =>
      match s.run with
      | some r => if r.seq = seq then .next s else .next (s.endCmd seq 0x05 0 0)
      | none =>
        match c.unbound with
        | some d => .next (s.endCmd seq 0x09 d 0)
        | none =>
          if s.rcv.phase ≠ .idle then .next s
          else if let some x := ueIn ue (s.closedReach c) then .next (s.endUe seq x 0)
          else .next (s.beginRun c k)

/-! ## COPY -/

/-- The first address of [a, a + n) that a write from outside may not touch (R353). -/
def State.firstRefused (s : State) (a n : Nat) : Option Nat :=
  let image := match s.chart with
    | some c => [(c.image, c.size)]
    | none => (s.hi.cmds.filter (fun c => decide (c.opcode = 1 ∧ c.jstate = 2) && !c.ended)).map
        (fun c => (fieldAt c.entry 8 8, s.devNat (fieldAt c.entry 8 8 + 8) 8))
  let tensors := match s.run, s.chart with
    | some _, some c => (List.range c.tensors.length).filterMap c.tensorRange
    | _, _ => []
  let hits := (((journalBase, journalBytes) :: image ++ tensors).filter (fun r => overlaps a n r.1 r.2)).map (fun r => max a r.1)
  match hits with
  | [] => none
  | x :: xs => some (xs.foldl min x)

/-- BULK flits of at most 224 bytes carry a copy to a partner (10 Table LINK-5). -/
def bulkFlits (dst : Nat) (bs : List Byte) : List Flit :=
  (List.range (ceilDiv bs.length 224)).map (fun i =>
    let d := (bs.drop (224 * i)).take 224
    mkFlit 0x0A 7 (leBytes 8 (dst + 224 * i) ++ leBytes 1 d.length ++ zeros 7 ++ d))

/-- Bytes that an ended copy leaves undefined: free values (R353). -/
def State.freeBytes (s : State) (a n : Nat) : List Byte := (List.range n).map (fun i => Config.lostByte (s.freeCount + 1) (a + i))

/-- The reads or the writes of a COPY wait at a stack's door (15 R431). -/
def State.copyHeld (s : State) (k : Cmd) : Bool :=
  let n := fieldAt k.entry 0x18 8
  (decide (fieldAt k.entry 0x20 1 % 16 = 0) && s.stackHeld 0 (fieldAt k.entry 8 8) n) ||
    (decide (fieldAt k.entry 0x20 1 / 16 = 0) && s.stackHeld 0 (fieldAt k.entry 0x10 8) n)

/-- COPY (R353). `pcieErrorAt` is the byte at which host memory fails; the destination from there on is undefined. A copy to a
partner whose host read fails sends nothing and confirms 0 bytes (DESIGN CHOICE, log 67). `ueAt` is the byte at which a read of
device memory meets an error that the stack cannot correct: STACK_UE, and the copy ends with FAULT as it would with a PCI Express error there
(15 R433; DESIGN CHOICE, log 122). -/
def execCopy (seq : Nat) (pcieErrorAt ueAt : Option Nat) (s : State) : Host.Outcome State Fault Refusal :=
  match s.started seq 5 with
  | none => .next s
  | some k =>
    if s.copyHeld k then .next s else
    let src := fieldAt k.entry 8 8
    let dst := fieldAt k.entry 0x10 8
    let n := fieldAt k.entry 0x18 8
    let from' := fieldAt k.entry 0x20 1 % 16
    let into := fieldAt k.entry 0x20 1 / 16
    let p := fieldAt k.entry 0x21 1
    let good := match pcieErrorAt with | some i => if from' = 1 ∨ into = 1 then min i n else n | none => n
    let ue := if from' = 0 then ueAt.filter (fun i => decide (i < good)) else none
    let data := if from' = 0 then s.devRead src n else s.hostMem.readN src n
    if from' = 0 ∧ ¬ s.inDevice src n then .next (s.endCmd seq 0x03 0 (max src s.devTop))
    else if into = 2 then
      if (s.port p).copies.any (fun c => decide (c.1 = seq)) then .next s
      else if (s.port p).st ≠ .active then .next (s.endCmd seq 0x10 p 0)
      else if good < n then .next (s.endCmd seq 0x0F 0 0)
      else if let some i := ue then .next (s.endUe seq (src + i) 0)
      else
        let fs := bulkFlits dst data
        .next ((forEach fs s (fun s f => s.queueFlit p f)).modPort p (fun x => { x with copies := x.copies ++ [(seq, fs.length, 0)] }))
    else if into = 0 ∧ ¬ s.inDevice dst n then .next (s.endCmd seq 0x03 0 (max dst s.devTop))
    else
      match (if into = 0 then s.firstRefused dst n else none) with
      | some a => .next (s.endCmd seq 0x04 0 a)
      | none =>
        let sent := match ue with | some i => i | none => good
        let bs := data.take sent ++ s.freeBytes (dst + sent) (n - sent)
        let t := if into = 0 then s.devWrite dst bs else { s with hostMem := s.hostMem.writeN dst bs }
        if let some i := ue then .next (({ t with freeCount := t.freeCount + 1 } : State).endUe seq (src + i) i)
        else if good < n then .next (({ t with freeCount := t.freeCount + 1 } : State).endCmd seq 0x0F 0 good) else .next (t.endCmd seq 0 0 n)

/-! ## FENCE, JOURNAL_MARK -/

/-- FENCE (R346): completes when every command with a lower SEQ has. -/
def execFence (seq : Nat) (s : State) : Host.Outcome State Fault Refusal :=
  match s.started seq 6 with
  | none => .next s
  | some _ => if s.hi.cmds.any (fun c => decide (c.seq < seq)) then .next s else .next (s.endCmd seq 0 0 0)

/-- JOURNAL_MARK (R349): its TAG is the CONTEXT of its journal entry. -/
def execJournalMark (seq : Nat) (s : State) : Host.Outcome State Fault Refusal :=
  match s.started seq 9 with
  | none => .next s
  | some _ => .next (s.endCmd seq 0 0 0)

/-! ## ABORT -/

/-- The commands an ABORT names: those of QUEUE whose CID matches, ABORTs apart (R354; DEDUCED, log 33). -/
def Cmd.names (a c : Cmd) : Bool :=
  let q := fieldAt a.entry 8 1
  let cid := fieldAt a.entry 0xA 2
  decide ((q = 0xFF ∨ c.queue = q) ∧ (cid = 0xFFFF ∨ c.cid = cid) ∧ c.opcode ≠ 0xA) && !c.ended

/-- So does a RUN that has been started and has not begun its work. -/
def Cmd.stopWith (c : Cmd) (at' by' : Nat) : Cmd :=
  { c with stopAt := (earlierStop c.stopAt c.stopBy at' by').1, stopBy := (earlierStop c.stopAt c.stopBy at' by').2 }

/-- The RUN in progress is that of a command. -/
def State.runs (s : State) (c : Cmd) : Bool := s.run.any (fun r => decide (r.seq = c.seq))

/-- MODE 0: the RUN of a started command stops after the first waypoint whose number is at least `w`; 0 names the next one. -/
def State.abortAt (s : State) (c : Cmd) (w by' : Nat) : State :=
  let at' := if w = 0 then s.nextWpt else w
  if s.runs c then { s with run := s.run.map (fun r => r.stopWith at' by') } else s.modCmd c.seq (fun x => x.stopWith at' by')

/-- MODE 1: the dataflow, tier and link engines are reset and the RUN ends; the chart stays loaded (R354, 15 R446). -/
def State.abortNow (s : State) (by' : Nat) : State :=
  let ds := s.replayDomains.filter (fun d => decide (d.1 ≠ DomKind.update))
  let s := (s.closeDoors ds).issueResets ds
  let s := s.endRun 0x0C by'
  { s with rcv := { s.rcv with phase := .resetOnly, incident := 0, linkHold := false } }

/-- An ABORT that has done its work completes once no commit is left undecided or unfinished (07 R234): the RUN finishes it, or
where no RUN is in progress the ABORT. -/
def State.endAbort (s : State) (seq n : Nat) (err : Option FinishErr) : State :=
  if s.commitPending then
    match s.chart with
    | some c =>
      if s.running ∨ s.rcv.phase ≠ .idle then s.modCmd seq (fun x => { x with acted := true, result := n })
      else
        let f := s.finishCommit c err
        let t := f.2.modCmd seq (fun x => { x with acted := true, result := n })
        if f.1 then t.endCmd seq 0 0 n else t.finishFails seq
    | none => s.endCmd seq 0 0 n
  else s.endCmd seq 0 0 n

/-- A started RUN stops as an ABORT asks: at a waypoint, or at once. -/
def State.stopNamed (s : State) (c : Cmd) (by' : Nat) : Option Nat → State
  | some w => s.abortAt c w by'
  | none => (s.abortNow by').endCmd c.seq 0x0C by' 0

/-- An ABORT of a mode: what has not started ends with ABORTED, a named RUN stops as `stop` says, and the ABORT completes
with the number of commands it aborts. -/
def State.abort (s : State) (seq mode : Nat) (err : Option FinishErr) (stop : State → Cmd → Option Nat) : State :=
  match s.started seq 0xA with
  | none => s
  | some a =>
    if fieldAt a.entry 9 1 ≠ mode then s
    else if a.acted then s.endAbort seq a.result err
    else
      let by' := seq % 2 ^ 32
      let named := s.hi.cmds.filter a.names
      let idle := named.filter (fun c => decide (c.jstate = 1))
      let runs := named.filter (fun c => decide (c.jstate ≠ 1 ∧ c.opcode = 4))
      let s := forEach idle s (fun s c => s.endCmd c.seq 0x0C by' 0)
      let s := forEach runs s (fun s c => s.stopNamed c by' (stop s a))
      s.endAbort seq (idle.length + runs.length) err

/-- ABORT with MODE 0 (R354); the finish of a commit may meet `err` (07 R234). -/
def execAbortAtWaypoint (seq : Nat) (err : Option FinishErr) (s : State) : Host.Outcome State Fault Refusal :=
  .next (s.abort seq 0 err (fun _ a => some (fieldAt a.entry 0x10 8)))

/-- ABORT with MODE 1 (R354); the finish of a commit may meet `err` (07 R234). -/
def execAbortImmediate (seq : Nat) (err : Option FinishErr) (s : State) : Host.Outcome State Fault Refusal :=
  .next (s.abort seq 1 err (fun s _ => s.immediateStop))

end Sys2Proof.Machine
end

