-- ==== Sys2Proof/Machine/Gemv.lean ====
section
/-! DEFINITION. The GEMV unit: MAC, MACZ, STORE and LDX (02 R58-R60; 03 R84, R86, R89, R90, R94-R100). -/

namespace Sys2Proof.Machine

/-- Combine neighbours (0,1), (2,3) and so on. -/
def pairUp {α : Type} (f : α → α → α) : List α → List α
  | a :: b :: t => f a b :: pairUp f t
  | t => t

/-- Combine a list in a pairwise tree of (0,1), (2,3) and so on upward; the fuel bounds its levels. -/
def treeSum {α : Type} (f : α → α → α) (d : α) : Nat → List α → α
  | 0, xs => xs.headD d
  | _, [] => d
  | _, [x] => x
  | n + 1, xs => treeSum f d n (pairUp f xs)

/-- Weights per chunk (02 Table TILE-8). -/
def chunkOf (c : Nat) : Nat := 1024 / elemBits c

/-- The scale of weight `e` in a chunk's scale words (03 Table FMT-3). -/
def chunkScale (c sc e : Nat) : FVal :=
  if isHx c then hxScale (bitsOf sc 7 0) (elemOf (sc >>> 32) 4 (e / 16))
  else e8m0 (elemOf sc 8 (e / 32))

/-- A decoded weight (03 R86). -/
def gemvWeight (c w sc e : Nat) : FVal :=
  let v := decodeElem c (elemOf w (elemBits c) e)
  if isBlock c then mulV v (chunkScale c sc e) else v

/-- Element `i` of the x register as the MAC uses it (03 R90). -/
def Tile.xElem (x : Tile) (i : Nat) : W16 := tget 0 x.x i

/-- The sum one MAC firing adds, for FP formats: products held in FP32, pairwise tree. -/
def gemvSum (c w sc : Nat) (xs : List W16) : W32 :=
  treeSum f32Add 0 9 (xs.zipIdx.map (fun (v, e) => toF32 (mulV (gemvWeight c w sc e) (ofBf16 v.toNat))))

/-- The sum for INT8: x converted to INT8, products and sum in INT32. -/
def gemvSumInt (w : Nat) (xs : List W16) : Int :=
  (xs.zipIdx.map (fun (v, e) =>
    signed 8 (elemOf w 8 e) * signed 8 (convInt8 .nearest (ofBf16 v.toNat)))).foldl (· + ·) 0

/-- A GEMV MAC firing; MACZ sets y[YACC] to zero first (02 R58, R59). What it adds is the tree sum (03 R90), so that an infinity in
y stays when the sum is a NaN, also one to which a product of the opposite infinity has made it (03 R91; log 41). -/
def Tile.gemv (z : Bool) (m : TileImg) (e : Entry) (x : Tile) : Tile :=
  let c := e.gfmt
  let addr := (x.stream e.wstr).ptr
  let w := wordsVal (x.readStream m e.wstr)
  let sc := if isBlock c then wordsVal (x.readStream m (e.wstr + 1)) else 0
  let n := chunkOf c
  let xs := (List.range n).map (fun i => x.xElem (e.xidx + i))
  let y : Acc := if z then {} else tget {} x.y e.yacc
  let y' : Acc := if isInt c then satAcc y (gemvSumInt w xs) else ⟨toF32 (accSum (ofF32 y.val) (ofF32 (gemvSum c w sc xs))), y.sat, false⟩
  let x := x.advance m e.wstr (strideStep (m.sd e.wstr))
  let x := if isBlock c then x.advance m (e.wstr + 1) (strideStep (m.sd (e.wstr + 1))) else x
  ({ x with y := tset {} x.y e.yacc y' } : Tile).send (if eastHalf addr then 5 else 8) (.yout e.yacc y')

/-- LDX: 64 BF16 elements into the x register, 3 or 6 steps on (02 R59, R60). -/
def Tile.ldx (m : TileImg) (e : Entry) (x : Tile) : Tile :=
  let addr := (x.stream e.xstr).ptr
  let v := wordsVal (x.readStream m e.xstr)
  let vals := (List.range 64).map (fun i => BitVec.ofNat 16 (elemOf v 16 i))
  (x.advance m e.xstr (strideStep (m.sd e.xstr))).send (latEast addr) (.xreg e.xidx vals)

/-- STORE: y[0] to y[15] as FP32 or BF16, counted into the set of XSTR (02 R59, 03 R110). -/
def Tile.gstore (m : TileImg) (e : Entry) (x : Tile) : Tile :=
  let c := if e.gfmt = 0 then 0 else 11
  let ys := (List.range 16).map (fun i => tget ({} : Acc) x.yout i)
  let (ds, x) := x.draws e.grnd 16
  let es := ys.zipIdx.map (fun (a, i) => convElem c (rndAt ds i) (accVal a) (accVal a) 1 a.sat)
  let x := x.count m e.xstr es
  (x.writeStream e.xstr (valWords (16 * elemBits c / 32) (packConv c es))).advance m e.xstr (strideStep (m.sd e.xstr))

/-! ## The commands -/

/-- GEMV_MAC (02 R58). -/
def execGemvMac (t : Nat) (e : Ecc) (s : State) : Host.Outcome State Fault Refusal :=
  .next (s.runUnit t 1 e 3 (fun n => decide (n.gop = 1)) (Tile.gemv false))
/-- GEMV_MACZ (02 R58). -/
def execGemvMacz (t : Nat) (e : Ecc) (s : State) : Host.Outcome State Fault Refusal :=
  .next (s.runUnit t 1 e 3 (fun n => decide (n.gop = 2)) (Tile.gemv true))
/-- STORE (02 R59). -/
def execStore (t : Nat) (s : State) : Host.Outcome State Fault Refusal :=
  .next (s.runUnit t 1 .ok 3 (fun n => decide (n.gop = 3)) Tile.gstore)
/-- LDX (02 R59). -/
def execLdx (t : Nat) (e : Ecc) (s : State) : Host.Outcome State Fault Refusal :=
  .next (s.runUnit t 1 e 3 (fun n => decide (n.gop = 4)) Tile.ldx)

end Sys2Proof.Machine
end

