-- ==== Sys2Proof/Machine/HelmOps.lean ====
section
/-! DEFINITION. What the Helm does of itself (14 R407, R411, R414, R417, R422, R426): restarts, the Logbook, firmware activation,
the issue of attestation reports. -/

namespace Sys2Proof.Machine

/-- The firmware in self-test has 20 s from its start (14 R422). -/
def selfTestTime : Nat := 20000000000

/-- FW_SELF_TEST_COMPLETE (R422): the counter is raised, FW_BANK set, the pending flag cleared. -/
def execFwSelfTestComplete (s : State) : Host.Outcome State Fault Refusal :=
  if s.helmRuns ∧ s.helm.selfTest ∧ s.now ≤ s.helm.bootAt + selfTestTime then
    let b := s.helm.running
    let s := s.protect s.helm.pending (max s.helm.rollback (s.fwRollback b))
    let s := ({ s with helm := { s.helm with active := b, selfTest := false, staged := false } } : State).unpend
    .next (s.event srcHelm 0x8B04 [])
  else .next s

/-- FW_SELF_TEST_TIMEOUT (R422): the former bank boots. -/
def execFwSelfTestTimeout (pufOk : Bool) (s : State) : Host.Outcome State Fault Refusal :=
  if s.helmRuns ∧ s.helm.selfTest ∧ s.helm.bootAt + selfTestTime ≤ s.now then .next (s.fwFallback pufOk) else .next s

/-- ATTEST_ISSUED (R426): the report is signed and stored. -/
def execAttestIssued (s : State) : Host.Outcome State Fault Refusal :=
  if s.helmRuns ∧ s.helm.attestSt = 1 then
    let r := s.attestSigned
    .next (({ s with helm := { s.helm with report := r, attestSt := 2 } } : State).event srcHelm 0x8C02 [])
  else .next s

/-- HELM_RESTART (R407): the active bank is verified and boots; an update in its self-test is given up. The watchdog
and a memory error restart it alike. -/
def execHelmRestart (_cause : RestartCause) (pufOk : Bool) (s : State) : Host.Outcome State Fault Refusal :=
  if s.helmRuns then
    if s.helm.selfTest then .next (s.fwFallback pufOk) else .next (s.helmReboot s.helm.active pufOk).recoveryOff.powerAtOnce
  else .next s

/-- LOG_RECORD_APPEND (R411): the Helm takes the oldest record of a source's queue. -/
def execLogRecordAppend (source : Nat) (s : State) : Host.Outcome State Fault Refusal :=
  if s.helmRuns then .next (s.logTake source) else .next s

/-- LOG_SPILL (R414): the oldest unspilled record goes to the flash ring. -/
def execLogSpill (s : State) : Host.Outcome State Fault Refusal :=
  if s.helmRuns then .next s.logSpillOne else .next s

/-- FLASH_RING_ERASED (R417): the clearing ends, and with it the DICT_SET or the request that asked for it; the MCTP
requests that have waited behind it are served (12 R376). -/
def execFlashRingErased (s : State) : Host.Outcome State Fault Refusal :=
  match s.log.clearing with
  | none => .next s
  | some (_, seq) =>
    if s.helmRuns then
      let t := (s.logErased).endCmd seq 0 0 0
      match s.dict.serving with
      | some (_, b) =>
        let t := ({ t with dict := { t.dict with serving := none, waiting := [] } } : State).answer b 0 0 []
        .next (mctpDrain s.dict.waiting t)
      | none => .next t
    else .next s

end Sys2Proof.Machine
end

