-- ==== Sys2Proof/Machine/Mem.lean ====
section
/-! DEFINITION. The memory slots and the through-routes: RD_A to RD_OUT, WR_IN, RD_T, WIN and ROUTE (02 R42, R43,
R52, R65-R71, R101; 04 R117, R133, Table FLOW-7; 06 R189, R193). -/

namespace Sys2Proof.Machine

/-- Advance stream STR of a slot by its STRIDE when ADV is 1 (02 R75). -/
def Tile.memAdv (x : Tile) (m : TileImg) (e : Entry) (i : Nat) : Tile :=
  if e.adv i then x.advance m (e.str i) (strideStep (m.sd (e.str i))) else x

/-- A read through stream STR whose bits land 3 or 6 steps on. -/
def Tile.memRead (mk : Bits → Land) (i : Nat) (m : TileImg) (e : Entry) (x : Tile) : Tile :=
  let addr := (x.stream (e.str i)).ptr
  let ws := x.readStream m (e.str i)
  (x.memAdv m e i).send (latWest addr) (mk (bmk (32 * ws.length) (wordsVal ws)))

/-- RD_OUT: the token enters its reserved slot at its latency and counts in PUSH at once (04 R117). -/
def Tile.rdOut (i : Nat) (m : TileImg) (e : Entry) (x : Tile) : Tile :=
  let addr := (x.stream (e.str i)).ptr
  let d := e.mport i
  let k : Token := ⟨BitVec.ofNat 512 (wordsVal (x.readStream m (e.str i))), false⟩
  ((x.memAdv m e i).send (latEast addr) (.outq d k)).sxAdd (5 + dirIx d) 1

/-- WR_IN and WIN: the head's 16 words, nothing for a void token. -/
def Tile.wrIn (i : Nat) (m : TileImg) (e : Entry) (x : Tile) : Tile :=
  let k := x.headD (e.mport i)
  let x := if k.void then x else x.writeStream (e.str i) (valWords 16 k.data.toNat)
  x.memAdv m e i

/-- The block a transposing read delivers: element e of row i at position i of output row e (02 R52). -/
def transposed (ew : Nat) (rows : List W32) : Nat :=
  let w := 4 * 2 ^ ew
  let n := 32 / w
  packElems w ((List.range n).flatMap (fun k => rows.map (fun r => elemOf r.toNat w k)))

/-- RD_T (02 R52). -/
def Tile.rdT (i : Nat) (m : TileImg) (e : Entry) (x : Tile) : Tile :=
  let ptr := (x.stream (e.str i)).ptr
  let st := strideStep (m.sd (e.str i))
  let rows := (List.range 16).map (fun r => x.spad.read (ptr + r * st))
  let v := transposed (e.ew i) rows
  let x := if e.adv i then x.advance m (e.str i) 1 else x
  match e.tdst i with
  | 0 => x.send 7 (.opA (bmk 512 v))
  | 1 => x.send 7 (.opB (bmk 512 v))
  | 2 => (x.send 7 (.outq (e.mport i) ⟨BitVec.ofNat 512 v, false⟩)).sxAdd (5 + dirIx (e.mport i)) 1
  | _ => x.send 7 (.spad (e.str2 i) (valWords 16 v))

/-- Sixteen words from an address lie wholly inside an open window that MEM WIN may write (06 R189). -/
def Tile.inWin (x : Tile) (m : TileImg) (a : Nat) : Bool :=
  (List.range 8).any (fun k =>
    let b := m.win k
    decide (wdMode b = 1) && (x.winOf k).isOpen && decide (wdBase b ≤ a ∧ a + 16 ≤ wdBase b + wdWords b))

/-- A MEM slot performs operation `op`. -/
def State.runMem (s : State) (t slot op : Nat) (err : Ecc) (act : TileImg → Entry → Tile → Tile) : Host.Outcome State Fault Refusal :=
  .next (s.runUnit t (3 + slot) err 3 (fun n => decide (n.mop slot = op)) act)

/-! ## The commands -/

/-- RD_A (R42). -/
def execRdA (t slot : Nat) (e : Ecc) (s : State) : Host.Outcome State Fault Refusal := s.runMem t slot 1 e (Tile.memRead .opA slot)
/-- RD_B (R42). -/
def execRdB (t slot : Nat) (e : Ecc) (s : State) : Host.Outcome State Fault Refusal := s.runMem t slot 2 e (Tile.memRead .opB slot)
/-- RD_SA (R43). -/
def execRdSA (t slot : Nat) (e : Ecc) (s : State) : Host.Outcome State Fault Refusal := s.runMem t slot 3 e (Tile.memRead .scaleA slot)
/-- RD_SB (R43). -/
def execRdSB (t slot : Nat) (e : Ecc) (s : State) : Host.Outcome State Fault Refusal := s.runMem t slot 4 e (Tile.memRead .scaleB slot)
/-- RD_SD (R101). -/
def execRdSD (t slot : Nat) (e : Ecc) (s : State) : Host.Outcome State Fault Refusal :=
  s.runMem t slot 5 e (Tile.memRead (fun b => .drainScale (BitVec.ofNat 32 b.val)) slot)
/-- RD_OUT (R117). -/
def execRdOut (t slot : Nat) (e : Ecc) (s : State) : Host.Outcome State Fault Refusal := s.runMem t slot 6 e (Tile.rdOut slot)
/-- WR_IN (R71). -/
def execWrIn (t slot : Nat) (s : State) : Host.Outcome State Fault Refusal := s.runMem t slot 7 .ok (Tile.wrIn slot)
/-- RD_T (R52). -/
def execRdT (t slot : Nat) (e : Ecc) (s : State) : Host.Outcome State Fault Refusal := s.runMem t slot 8 e (Tile.rdT slot)

/-- WIN (R189): a write outside every open WIN window is a stray access, which the tile does not perform
(R193). -/
def execWin (t slot : Nat) (s : State) : Host.Outcome State Fault Refusal :=
  match s.begin t (3 + slot) with
  | none => .next s
  | some (m, e, x) =>
    if e.mop slot = 9 ∧ ¬ (x.headD (e.mport slot)).void ∧ ¬ x.inWin m (x.stream (e.str slot)).ptr then
      .next ((s.putTile t x).tileFault t 6 [])
    else s.runMem t slot 9 .ok (Tile.wrIn slot)

/-- ROUTE (R71): each output with a source takes the token at that head. -/
def Tile.through (_m : TileImg) (e : Entry) (x : Tile) : Tile :=
  dirs.foldl (fun x d => match dirCode (e.osel d) with | some i => x.give d (x.headD i) | none => x) x

def execRoute (t : Nat) (s : State) : Host.Outcome State Fault Refusal := .next (s.runUnit t 6 .ok 3 (fun _ => true) Tile.through)

end Sys2Proof.Machine
end

