-- ==== Sys2Proof/Machine/Recovery.lean ====
section
/-! DEFINITION. Recovery: the step watchdog (15 R437), resets that complete or overrun (R428-R430, R449, R450, R453)
and the resumption of a RUN (R439-R446). -/

namespace Sys2Proof.Machine

/-! ## The step watchdog -/

/-- What the watchdog of a region sees: a firing longer than 100 µs, or no progress for STEP_WATCHDOG. -/
def State.watchdogSees (s : State) (c : Chart) (r : Nat) (longFiring : Bool) : Bool :=
  let ts := (c.tilesIn r).map (fun x => s.tile x.1)
  if longFiring then ts.any (fun x => decide (x.st = TileSt.fire ∧ x.since + 100000 < s.now))
  else ts.any (fun x => decide (x.st = TileSt.wait ∨ x.st = TileSt.fire)) &&
    decide ((s.region r).since + 1000000 * s.obj 0x6024 0 ≤ s.now)

/-- STEP_WATCHDOG (R437): EV 0x4A10, the region's doors close, the Helm queries its controller. -/
def execStepWatchdog (r : Nat) (longFiring : Bool) (s : State) : Host.Outcome State Fault Refusal :=
  match s.chart, s.run with
  | some c, some run =>
    if ¬ run.waiting ∧ c.placed.contains r ∧ decide (s.rcv.phase = .idle) ∧ ¬ s.doorClosed .dataflow (s.physOf r)
        ∧ s.watchdogSees c r longFiring then
      let s := s.event (srcDie (regionDie r)) 0x4A10 []
      let s := s.closeDoors [(.dataflow, s.physOf r), (.tier, s.physOf r)]
      .next { s with rcv := { s.rcv with queries := s.rcv.queries ++ [(r, longFiring)] } }
    else .next s
  | _, _ => .next s

/-- The watchdog of another region has expired in the incident (R437). -/
def State.otherSilent (s : State) : Bool :=
  !s.rcv.queries.isEmpty || (decide (s.rcv.incident ≠ 0) && s.rcv.faults.any (fun f => decide (f.incident = s.rcv.incident ∧ f.cause = 0x10)))

/-- REGION_QUERY_RESULT (R437): class D when the controller did not answer or a firing did not complete. When the watchdogs
of several regions expire in one incident no other region is treated as dead, R434 apart. -/
def execRegionQueryResult (r : Nat) (answered : Bool) (s : State) : Host.Outcome State Fault Refusal :=
  match s.rcv.queries.find? (fun q => decide (q.1 = r)) with
  | some (_, long) =>
    if s.helmRuns then
      let s := { s with rcv := { s.rcv with queries := s.rcv.queries.filter (fun q => decide (q.1 ≠ r)) } }
      let cls := if long ∨ ¬ answered then clsD else clsR
      let f := regionIn s r 0x10 cls 2 (leBytes 1 (if long then 0 else 1) ++ leBytes 1 (if answered then 0 else 1))
      .next ((s.regionDoors r).raiseAs f (if s.otherSilent then cls else s.effClass f))
    else .next s
  | none => .next s

/-! ## Resets -/

/-- The doors that open when a reset completes: all of its domain. With a chart loaded those of an engine reset stay closed until
the Helm releases them, and those that a replay has closed until its step 8; what a die or module reset has cleared is
remembered until it is restored (R430, R439, R447). -/
def State.openAfter (s : State) (k : DomKind) (i : Nat) : State :=
  let all := domAll s.variant k i
  if s.chart.isNone then s.openDoors all
  else if k ≠ .die ∧ k ≠ .module then s
  else
    let keep := if s.rcv.phase = .replaying then s.replayDomains else []
    let s := { s with rcv := { s.rcv with cleared := s.rcv.cleared ++ all.filter (fun d => !s.rcv.cleared.contains d) } }
    s.openDoors (all.filter (fun d => !keep.contains d))

/-- Every reset of a recovery has completed: the Helm releases the stack controllers, which hold nothing to restore (R430; log 106); without a
replay (R445) row shifts are applied too and the recovery ends. -/
def State.resetsDone (s : State) : State :=
  if s.rcv.resets ≠ [] ∨ s.rcv.phase = .idle then s
  else
    let s :=
      if s.rcv.phase = .resetOnly then
        let (s, out) := s.applyShifts
        let s := forEach out s (fun s pr => s.mapShift pr)
        { s with rcv := { s.rcv with phase := .idle, incident := 0 } }
      else s
    s.openDoors (domRange .stack 0 (4 * s.variant))

/-- A module reset has completed: READY, and out of service when its count was the third (R452, R453). -/
def State.moduleDone (s : State) : State :=
  let s := { s with hi := { s.hi with ready := decide (s.pw.state = PwState.on) } }
  match s.rcv.oosPend with
  | some cause =>
    let s := s.recordFault ⟨cause, clsO, (.module, 0), none, none, 8, none, []⟩ clsO 5 3
    s.outOfService cause (s.obj 0x6010 0)
  | none => s.gridCheck 3

/-- RESET_COMPLETE (R430): after at least 1 µs the tags advance, the state is cleared and the doors open. -/
def execResetComplete (k : DomKind) (i : Nat) (s : State) : Host.Outcome State Fault Refusal :=
  match s.rcv.resets.find? (fun x => decide (x.kind = k ∧ x.ix = i)) with
  | none => .next s
  | some p =>
    if p.at' + 1000 ≤ s.now then
      let s := (s.advanceTags k i).clearAll k i
      let s := s.traceRec srcHelm trReset (leBytes 2 (domKey k i) ++ [1])
      let s := { s with rcv := { s.rcv with resets := s.rcv.resets.filter (fun x => !(decide (x.kind = k ∧ x.ix = i))) } }
      let s := s.openAfter k i
      let s := if k = .module then s.moduleDone else if k = .die then s.gridCheck 2 else s
      .next s.resetsDone
    else .next s

/-- RESET_OVERRUN (R449): a fault of class E, and a reset of the enclosing domain. -/
def execResetOverrun (k : DomKind) (i : Nat) (s : State) : Host.Outcome State Fault Refusal :=
  match s.rcv.resets.find? (fun x => decide (x.kind = k ∧ x.ix = i)) with
  | none => .next s
  | some p =>
    if p.at' + domBound k < s.now ∧ s.helmRuns then
      let lvl := domLevel k
      let f : FaultIn := ⟨0x50, clsE, (k, i), none, none, 8, none, leBytes 1 lvl ++ leBytes 1 i ++ zeros 2 ++ leBytes 8 (s.now - p.at')⟩
      let s := s.recordFault f clsE (s.outcomeOr 4) (lvl + 1)
      let s := { s with rcv := { s.rcv with resets := s.rcv.resets.filter (fun x => !(decide (x.kind = k ∧ x.ix = i))) } }
      match k with
      | .module => .next (s.issueCycle 0x50 0)
      | .die =>
        let s := { s with rcv := { s.rcv with resets := [] } }
        .next (s.issueModule 0x50)
      | k =>
        let d := domDie k i
        let s := { s with rcv := { s.rcv with resets := s.rcv.resets.filter (fun x => !(decide (x.kind ≠ DomKind.module ∧ x.kind ≠ DomKind.die ∧ domDie x.kind x.ix = d))) } }
        .next (s.issueResets [(.die, d)])
    else .next s

/-! ## Resumption -/

/-- A partner announced the waypoint after this module's register: this module reported ready for it, completes
it and writes the records it lacks (R441); at a commit waypoint whose barrier this module has not seen
complete, the agreed flag is a free value unless it is known to be 1. -/
def State.catchUp (s : State) (c : Chart) : State :=
  if s.rcv.resumeWpt = s.wp.reg then s
  else
    let s :=
      if s.cwptNext ∧ s.commitStep ∧ ¬ s.redn.barrier.complete then
        let b := s.redn.barrier.nf || (Config.freeValue s.freeCount).getLsbD 0
        ({ s with freeCount := s.freeCount + 1 } : State).writeAgreement b
      else s
    s.recordWaypoint c

/-- Restore every placed region, stream, unit and tap from the last completed waypoint. -/
def State.restoreAll (s : State) (c : Chart) : State :=
  let w := s.wp.count
  let s := forEach c.placed s (fun s r => s.restoreRegion c r w)
  ((s.restoreUnits c w (fun _ => true)).restoreRedn.rebaseTaps).setPasses c

/-- The last completed waypoint ends a training step. -/
def State.atStepEnd (s : State) (c : Chart) : Bool := decide (s.wp.count % c.wps = 0)

/-- Steps 5 to 8 of R439; every command in progress counts the replay (11 Table HOST-6), and its journal entry is rewritten (11 R359). STATE
REPLAYED is written for the RUN alone (DEDUCED, log 136). -/
def State.resume (s : State) (c : Chart) (r : Run) : State :=
  let (s, out) := s.applyShifts
  let s := s.traceStep 5
  let caught := decide (s.rcv.resumeWpt ≠ s.wp.reg)
  let ends := s.stepEndNext
  let s := s.catchUp c
  let s := (s.restoreAll c).traceStep 6
  let s := forEach (s.hi.cmds.filter (fun x => decide (x.jstate ≠ 1 ∧ x.seq ≠ r.seq))) s
    (fun s x => s.journalCmd x.seq (fun x => { x with replays := x.replays + 1 }))
  let s := (s.journalCmd r.seq (fun x => { x with jstate := 6, replays := x.replays + 1, wpt := s.wp.count })).traceStep 7
  let s := (s.openDoors s.rcv.closed).traceStep 8
  let s := { s with rcv := { s.rcv with phase := .idle, incident := 0, doneDue := true, cleared := [] } }
  let s := (s.bump 0x6031 0 64 1).event srcHelm 0x6A02 []
  let s := if caught || r.stopDue then s.afterWaypoint c (if caught then ends else s.atStepEnd c) none else s.releaseTiles c
  forEach out s (fun s pr => s.mapShift pr)

/-- What a replay reads to restore everything from its resume waypoint. -/
def State.resumeReach (s : State) (c : Chart) : List (Nat × Nat) :=
  let t := s.applyShifts.1.catchUp c
  t.restoreReach c t.wp.count (fun _ => true) (fun _ => true)

/-- REPLAY_RESUME (R439): when every reset has completed and no port is waited for. A stack error in what it restores is a fault of its own
(R433). -/
def execReplayResume (ue : Option Nat) (s : State) : Host.Outcome State Fault Refusal :=
  match s.chart, s.run with
  | some c, some r =>
    if s.rcv.phase = .replaying ∧ s.rcv.resets = [] ∧ ¬ s.rcv.linkHold ∧ ¬ s.rcv.cycleDue ∧ s.helmRuns then
      if let some x := ueIn ue (s.resumeReach c) then .next (s.stackUe x)
      else .next (s.resume c r)
    else .next s
  | _, _ => .next s

/-- The record of the LINK_DOWN that holds the replay: the newest of the incident. -/
def State.linkDownRecord (s : State) : Nat :=
  match (s.rcv.faults.filter (fun f => decide (f.incident = s.rcv.incident ∧ f.cause = 0x43))).getLast? with
  | some f => f.number
  | none => s.rcv.incident

/-- LINK_WAIT_TIMEOUT (R444): the LINK_DOWN fault becomes class S and ends the RUN. -/
def execLinkWaitTimeout (s : State) : Host.Outcome State Fault Refusal :=
  if s.rcv.phase = .replaying ∧ s.rcv.linkHold ∧ s.rcv.linkSince + 1000000 * s.rcv.linkLimit < s.now ∧ s.helmRuns then
    let n := s.linkDownRecord
    let faults := s.rcv.faults.map (fun (f : FaultRec) => if f.number = n then { f with cls := clsS, outcome := 2 } else f)
    let s := { s with rcv := { s.rcv with faults := faults } }
    .next (s.stopRun 0x0D n)
  else .next s

end Sys2Proof.Machine
end

