-- ==== Sys2Proof/Machine/Steer.lean ====
section
/-! DEFINITION. The steering units: intakes, BRANCH, MERGE, FILTER and LOOP (04 R126-R131). -/

namespace Sys2Proof.Machine

/-- The void token a steering unit makes; its payload is not used. -/
def voidToken : Token := ⟨0, true⟩

/-- Take the next bearing (04 R128): from the pattern, or from the bearing queue, counting the token of
which it is the first. -/
def Tile.takeBearing (x : Tile) (d : W64 × W64) (u : Nat) : Bool × Tile :=
  let v := x.unitOf u
  let x := x.sxAdd 9 1
  if stBsrc d = 0 then
    (stPattern d v.pat, x.setUnitOf u { v with pat := (if v.pat = stPlen d then 0 else v.pat + 1) })
  else
    let b := v.bearq.headD ⟨false, false⟩
    let x := x.setUnitOf u { v with bearq := v.bearq.tail }
    match b.first, dirCode (stBsrc d) with
    | true, some s => (b.val, x.sxAdd (1 + dirIx s) 1)
    | _, _ => (b.val, x)

/-- Take the head of the data queue, counted against the DIN head (05 Table CHRT-11). -/
def Tile.takeData (x : Tile) (d : W64 × W64) (u : Nat) : Token × Tile :=
  let v := x.unitOf u
  let x := x.setUnitOf u { v with dataq := v.dataq.tail }
  (v.dataq.headD voidToken, match dirCode (stDin d) with | some s => x.sxAdd (1 + dirIx s) 1 | none => x)

/-- Take the IN1 head, which is popped when the firing completes. -/
def Tile.takeIn1 (x : Tile) (d : W64 × W64) : Token × Tile :=
  match dirCode (stIn1 d) with
  | some s => (x.headD s, (x.modFiring (fun f => { f with pops := f.pops ++ [s] })).sxAdd (1 + dirIx s) 1)
  | none => (voidToken, x)

/-- Emit to the output queue a code names. -/
def Tile.emitTo (x : Tile) (c : Nat) (k : Token) : Tile := match dirCode c with | some d => x.give d k | none => x

/-- BRANCH (04 Table FLOW-6). -/
def Tile.branch (u : Nat) (m : TileImg) (_e : Entry) (x : Tile) : Tile :=
  let d := m.steerOf u
  let (k, x) := x.takeData d u
  let (b, x) := x.takeBearing d u
  (x.emitTo (stOut0 d) (if b then voidToken else k)).emitTo (stOut1 d) (if b then k else voidToken)

/-- MERGE. -/
def Tile.merge (u : Nat) (m : TileImg) (_e : Entry) (x : Tile) : Tile :=
  let d := m.steerOf u
  let (k, x) := x.takeData d u
  let (i, x) := x.takeIn1 d
  let (b, x) := x.takeBearing d u
  x.emitTo (stOut0 d) (if b then i else k)

/-- FILTER. -/
def Tile.filter (u : Nat) (m : TileImg) (_e : Entry) (x : Tile) : Tile :=
  let d := m.steerOf u
  let (k, x) := x.takeData d u
  let (b, x) := x.takeBearing d u
  x.emitTo (stOut0 d) (if b then k else voidToken)

/-- LOOP (04 R130): firing 0 of an instance, the firings of its body, and firing T. -/
def Tile.loop (u : Nat) (m : TileImg) (_e : Entry) (x : Tile) : Tile :=
  let d := m.steerOf u
  let v := x.unitOf u
  if v.firing = 0 then
    let (k, x) := x.takeData d u
    let v := x.unitOf u
    (x.setUnitOf u { v with firing := 1, active := true }).emitTo (stOut0 d) k
  else
    let (r, x) := x.takeIn1 d
    let (b, x) := x.takeBearing d u
    let v := x.unitOf u
    if v.firing < stTrip d then
      let x' := x.setUnitOf u { v with firing := v.firing + 1 }
      if v.active ∧ b then x'.emitTo (stOut0 d) r
      else if v.active then (x.setUnitOf u { v with firing := v.firing + 1, hold := r, active := false }).emitTo (stOut0 d) voidToken
      else x'.emitTo (stOut0 d) voidToken
    else
      (x.setUnitOf u { v with firing := 0, active := false }).emitTo (stOut1 d) (if v.active then r else v.hold)

/-- Steering unit `u` of a tile fires in mode `mode`. -/
def State.runSteer (s : State) (t u mode : Nat) (act : TileImg → Entry → Tile → Tile) : Host.Outcome State Fault Refusal :=
  match s.img t with
  | none => .next s
  | some m => .next (s.runUnit t (7 + u) .ok 3 (fun _ => decide (stMode (m.steerOf u) = mode)) act)

/-- BRANCH (R129). -/
def execBranch (t unit : Nat) (s : State) : Host.Outcome State Fault Refusal := s.runSteer t unit 1 (Tile.branch unit)
/-- MERGE (R129). -/
def execMerge (t unit : Nat) (s : State) : Host.Outcome State Fault Refusal := s.runSteer t unit 2 (Tile.merge unit)
/-- FILTER (R129). -/
def execFilter (t unit : Nat) (s : State) : Host.Outcome State Fault Refusal := s.runSteer t unit 4 (Tile.filter unit)
/-- LOOP (R130). -/
def execLoop (t unit : Nat) (s : State) : Host.Outcome State Fault Refusal := s.runSteer t unit 3 (Tile.loop unit)

/-! ## Intakes -/

/-- A tile takes tokens into its steering queues: it runs a chart and its door is open. -/
def State.steering (s : State) (t : Nat) : Option TileImg :=
  if (s.tile t).st = .stopped ∨ s.doorClosed .dataflow (s.physOf (tileRegion t)) then none else s.img t

/-- STEER_DATA_INTAKE (R127): without any firing, while the data queue has a free slot of its 4. -/
def execSteerDataIntake (t unit : Nat) (s : State) : Host.Outcome State Fault Refusal :=
  match s.steering t with
  | none => .next s
  | some m =>
    let x := s.tile t
    let d := m.steerOf unit
    let v := x.unitOf unit
    match stMode d, dirCode (stDin d) with
    | 0, _ => .next s
    | _, none => .next s
    | _, some i =>
      (match x.inQ i with
       | [] => .next s
       | k :: rest =>
         if v.dataq.length < 4 then .next (s.putTile t ((x.setIn i rest).setUnitOf unit { v with dataq := v.dataq ++ [k] }))
         else .next s)

/-- The bearings of a token (04 R128). -/
def bearingsOf (k : Token) (n : Nat) : List Bearing :=
  (List.range n).map (fun i => ⟨!k.void && decide (elemOf k.data.toNat 32 i ≠ 0), decide (i = 0)⟩)

/-- STEER_BEARING_INTAKE (R127): while the bearing queue of 16 has room for BPT bearings. -/
def execSteerBearingIntake (t unit : Nat) (s : State) : Host.Outcome State Fault Refusal :=
  match s.steering t with
  | none => .next s
  | some m =>
    let x := s.tile t
    let d := m.steerOf unit
    let v := x.unitOf unit
    match stMode d, dirCode (stBsrc d) with
    | 0, _ => .next s
    | _, none => .next s
    | _, some i =>
      (match x.inQ i with
       | [] => .next s
       | k :: rest =>
         if v.bearq.length + stBpt d ≤ 16 then
           .next (s.putTile t ((x.setIn i rest).setUnitOf unit { v with bearq := v.bearq ++ bearingsOf k (stBpt d) }))
         else .next s)

end Sys2Proof.Machine
end

