-- ==== Sys2Proof/Machine/Transc.lean ====
section
/-! DEFINITION. The transcendental vector operations (03 R93): special values and exact cases as Table FMT-4
gives them; elsewhere a fixed function of the input within the table's bound, of which nothing more is said. -/

namespace Sys2Proof.Machine

/-! ## Values to far more than FP32 precision

Fixed point with 192 fraction bits. -/

def fxBits : Nat := 192
def fxOne : Nat := 2 ^ fxBits

/-- 2^f for a fixed-point fraction `f` in [0, 1): bits of `f` from 1/2 downward, `root` the matching root of 2. -/
def exp2Frac : Nat → Nat → Nat → Nat → Nat
  | 0, _, _, acc => acc
  | n + 1, f, root, acc =>
    let r := isqrt (root * fxOne)
    let f2 := 2 * f
    if fxOne ≤ f2 then exp2Frac n (f2 - fxOne) r (acc * r / fxOne) else exp2Frac n f2 r acc

/-- log2 of a fixed-point m in [1, 2), bit by bit by squaring. -/
def log2Frac : Nat → Nat → Nat → Nat
  | 0, _, acc => acc
  | n + 1, m, acc =>
    let q := m * m / fxOne
    if 2 * fxOne ≤ q then log2Frac n (q / 2) (2 * acc + 1) else log2Frac n q (2 * acc)

/-- The value 2^v for a finite v of moderate size, to about 2^-120. -/
def exp2Of (s : Bool) (m : Nat) (e : Int) : FVal :=
  -- v as a fixed-point integer, rounded down
  let (N, D) := inUnits m e 1 (-(fxBits : Int))
  let a : Int := ((N / D : Nat) : Int)
  let v : Int := if s then -a else a
  let k := v / (fxOne : Int)
  let f := (v % (fxOne : Int)).toNat
  .fin false (exp2Frac 150 f (2 * fxOne) fxOne) (k - fxBits)

/-- log2 of m × 2^e with m positive, to about 2^-128. -/
def log2Of (m : Nat) (e : Int) : FVal :=
  let l := Nat.log2 m
  let mf := m * fxOne / 2 ^ l
  let frac : Int := (log2Frac 150 mf 0 : Nat)
  let v : Int := (e + l) * (2 ^ 150 : Nat) + frac
  .fin (decide (v < 0)) v.natAbs (-150)

/-- log2 e with 160 fraction bits. -/
def log2e : Nat := 2108501164428393954197770173035669514763056903505

/-- tanh of a finite positive value m × 2^e: the series for small values, (E − 1) ÷ (E + 1) with E =
2^(2v log2 e) for the others. -/
def tanhOf (m : Nat) (e : Int) : FVal :=
  let v := FVal.fin false m e
  if ltV v (.fin false 1 (-20)) then
    -- v − v³/3, times 3 to stay exact, with the denominator put back in fixed point
    let v3 := mulV v (mulV v v)
    match addV (mulV v (.fin false 3 0)) (negV v3) with
    | .fin s n d => .fin s (n * 2 ^ 128 / 3) (d - 128)
    | w => w
  else if ltV (.fin false 64 0) v then .fin false (2 ^ 128 - 1) (-128)
  else
    match mulV (mulV v (.fin false log2e (-160))) (.fin false 2 0) with
    | .fin _ n d =>
      (match exp2Of false n d with
       | .fin _ x y =>
         -- E as a fixed-point number
         let (N, D) := inUnits x y 1 (-(fxBits : Int))
         let E := N / D
         .fin false ((E - fxOne) * 2 ^ 160 / (E + fxOne)) (-160)
       | w => w)
    | w => w

/-- 1 ÷ (m × 2^e). -/
def rcpOf (s : Bool) (m : Nat) (e : Int) : FVal :=
  let k := Nat.log2 m + 160
  .fin s (2 ^ k / m) (-e - k)

/-- 1 ÷ √(m × 2^e). -/
def rsqrtOf (m : Nat) (e : Int) : FVal :=
  match sqrtV m e with
  | .fin _ n d => rcpOf false n d
  | w => w

/-! ## Within the bound -/

/-- |v| ≤ k units in the last place of the FP32 value nearest to `v`, for the difference `dv`. -/
def withinUlp (k : Nat) (v dv : FVal) : Bool :=
  match v with
  | .fin _ m e =>
    let q := max (log2Rat m 1 + e) (fmtEmin fp32) - fp32.mbits
    !ltV (.fin false k q) (absV dv)
  | _ => false

/-- The FP32 value the operation gives for an exact value `v`: the nearest one, moved by the free
offset of the operation where that stays finite, keeps the sign and meets the bound. -/
def transc (op k : Nat) (x : W32) (v : FVal) : W32 :=
  let y := toF32 v
  let c : Int := ((y.toNat % 2 ^ 31 : Nat) : Int) + Config.ulpOffset op x
  let z := BitVec.ofNat 32 (c.toNat + (if y.getLsbD 31 then 2 ^ 31 else 0))
  if 0 ≤ c ∧ c ≤ 0x7F7FFFFF ∧ withinUlp k v (addV (ofF32 z) (negV v)) then z else y

/-- A value is a power of two: m × 2^e with m a power of two. -/
def isPow2 (m : Nat) : Bool := decide (m ≠ 0 ∧ 2 ^ Nat.log2 m = m)

/-- RCP (03 Table FMT-4). -/
def f32Rcp (x : W32) : W32 :=
  match ofF32 x with
  | .nan => f32Nan
  | .inf s => toF32 (.fin s 0 0)
  | .fin s m e =>
    if m = 0 then toF32 (.inf s)
    else if isPow2 m then toF32 (rcpOf s m e)
    else transc 0x1A 1 x (rcpOf s m e)

/-- RSQRT. -/
def f32Rsqrt (x : W32) : W32 :=
  match ofF32 x with
  | .nan => f32Nan
  | .inf s => if s then f32Nan else 0
  | .fin s m e =>
    if m = 0 then toF32 (.inf s)
    else if s then f32Nan
    else transc 0x1B 1 x (rsqrtOf m e)

/-- EXP2: overflow gives +∞, and a value far below the smallest subnormal lies within the bound of +0. -/
def f32Exp2 (x : W32) : W32 :=
  match ofF32 x with
  | .nan => f32Nan
  | .inf s => if s then 0 else toF32 (.inf false)
  | .fin s m e =>
    if !s && !ltV (.fin s m e) (.fin false 128 0) then toF32 (.inf false)
    else if ltV (.fin s m e) (.fin true 1024 0) then 0
    else
      let v := exp2Of s m e
      -- an integer input: the fraction of the exponent is zero
      if 0 ≤ e ∨ m % 2 ^ (-e).toNat = 0 then toF32 v else transc 0x18 2 x v

/-- LOG2. -/
def f32Log2 (x : W32) : W32 :=
  match ofF32 x with
  | .nan => f32Nan
  | .inf s => if s then f32Nan else toF32 (.inf false)
  | .fin s m e =>
    if m = 0 then toF32 (.inf true)
    else if s then f32Nan
    else if isPow2 m then f32OfInt (e + Nat.log2 m)
    else transc 0x19 2 x (log2Of m e)

/-- TANH. -/
def f32Tanh (x : W32) : W32 :=
  match ofF32 x with
  | .nan => f32Nan
  | .inf s => toF32 (.fin s 1 0)
  | .fin s m e =>
    if m = 0 then toF32 (.fin s 0 0)
    else
      let v := if s then negV (tanhOf m e) else tanhOf m e
      transc 0x1C 2 x v

end Sys2Proof.Machine
end

