-- ==== Sys2Proof/Machine/Vector.lean ====
section
/-! DEFINITION. The vector unit: the operations of 02 Table TILE-9 (02 R61, R62, R477; 03 R92, R93, R98-R101,
R110; 04 Table FLOW-7). -/

namespace Sys2Proof.Machine

/-- Some register of a list is marked void. -/
def Tile.anyVoid (x : Tile) (rs : List Nat) : Bool := rs.any (fun r => (x.vreg r).void)

/-- All 32 lanes from a function of the lane. -/
def lanesOf (f : Nat → W32) : List (Nat × W32) := (List.range 32).map (fun l => (l, f l))

/-- An operation with result VD: +0 and the void mark when a source is void (04 Table FLOW-7). -/
def Tile.vresult (x : Tile) (e : Entry) (srcs : List Nat) (lat : Nat) (f : Nat → W32) : Tile :=
  if x.anyVoid srcs then x.send lat (.vreg e.vd (lanesOf (fun _ => 0)) true)
  else x.send lat (.vreg e.vd (lanesOf f) false)

/-- The FP32 pattern of an element, exactly; a NaN is canonical (03 R79, R94). -/
def elemF32 (c w : Nat) : W32 := toF32 (decodeElem c w)

/-- LD (R477). -/
def Tile.vld (m : TileImg) (e : Entry) (x : Tile) : Tile :=
  let c := e.vfmt
  let addr := (x.stream e.vstr).ptr
  let v := wordsVal (x.readStream m e.vstr)
  (x.advance m e.vstr (strideStep (m.sd e.vstr))).send (latEast addr)
    (.vreg e.vd (lanesOf (fun l => elemF32 c (elemOf v (elemBits c) l))) false)

/-- Lanes lo to lo + n − 1 of VA converted to a format, taking draws when SUB is 1 (03 R98, R100). -/
def Tile.vconv (x : Tile) (e : Entry) (lo n : Nat) : List Conv × Tile :=
  let (ds, x) := x.draws e.vsub n
  ((List.range n).map (fun i => let v := ofF32 (x.lane e.va (lo + i)); convElem e.vfmt (rndAt ds i) v v 1 false), x)

/-- ST (R477; 04 Table FLOW-7). -/
def Tile.vst (m : TileImg) (e : Entry) (x : Tile) : Tile :=
  let c := e.vfmt
  let (es, x) := x.vconv e 0 32
  let x := if x.anyVoid [e.va] then x else (x.count m e.vstr es).writeStream e.vstr (valWords (elemBits c) (packConv c es))
  x.advance m e.vstr (strideStep (m.sd e.vstr))

/-- RECV (02 R62). -/
def Tile.vrecv (_m : TileImg) (e : Entry) (x : Tile) : Tile :=
  let c := e.vfmt
  let w := elemBits c
  let k : Token := match dirCode e.vb with | some d => x.headD d | none => ⟨x.viq.headD 0, false⟩
  let el := fun i => if k.void then (0 : W32) else elemF32 c (elemOf k.data.toNat w i)
  let half := if e.vsub then 1 else 0
  let lanes : List (Nat × W32) :=
    if w = 32 then (List.range 16).map (fun i => (16 * half + i, el i))
    else if w = 16 then lanesOf el
    else lanesOf (fun l => el (32 * half + l))
  x.send 1 (.vreg e.vd lanes k.void)

/-- SEND (02 R62): a void register sends a void token, taking the draws that the count of 04 Table FLOW-4
fixes (DEDUCED, log 32). -/
def Tile.vsend (_m : TileImg) (e : Entry) (x : Tile) : Tile :=
  let c := e.vfmt
  let w := elemBits c
  let lo := if w = 32 ∧ bitOf e.vb 3 then 16 else 0
  let n := if w = 32 then 16 else 32
  let (es, x) := x.vconv e lo n
  match dirCode (e.vb % 8) with
  | some d => x.give d (if x.anyVoid [e.va] then ⟨0, true⟩ else ⟨BitVec.ofNat 512 (packConv c es), false⟩)
  | none => x

/-- SENDA (02 R62; 04 Table FLOW-7). -/
def Tile.vsenda (_m : TileImg) (e : Entry) (x : Tile) : Tile :=
  let c := e.vfmt
  let (es, x) := x.vconv e 0 32
  let bits := if x.anyVoid [e.va] then bmk (sendaBits c) 0 else bmk (sendaBits c) (packConv c es)
  x.modFiring (fun f => { f with opA := f.opA ++ [bits] })

/-- An operation on two sources, latency 1. -/
def Tile.vbin (f : W32 → W32 → W32) (_m : TileImg) (e : Entry) (x : Tile) : Tile :=
  x.vresult e [e.va, e.vb] 1 (fun l => f (x.lane e.va l) (x.lane e.vb l))

/-- FMA. -/
def Tile.vfma (_m : TileImg) (e : Entry) (x : Tile) : Tile :=
  x.vresult e [e.va, e.vb, e.vc] 1 (fun l => f32Fma (x.lane e.va l) (x.lane e.vb l) (x.lane e.vc l))

/-- AMAX. -/
def Tile.vamax (_m : TileImg) (e : Entry) (x : Tile) : Tile :=
  x.vresult e [e.vd, e.va] 1 (fun l => f32Max (x.lane e.vd l) (f32Abs (x.lane e.va l)))

/-- SEL. -/
def Tile.vsel (_m : TileImg) (e : Entry) (x : Tile) : Tile :=
  x.vresult e [e.va, e.vb, e.vc] 1 (fun l => if f32Ge (x.lane e.vc l) 0 then x.lane e.va l else x.lane e.vb l)

/-- BCAST. -/
def Tile.vbcast (_m : TileImg) (e : Entry) (x : Tile) : Tile :=
  x.vresult e [e.va] 1 (fun _ => x.lane e.va e.vb)

/-- A transcendental operation, latency 4. -/
def Tile.vun (f : W32 → W32) (_m : TileImg) (e : Entry) (x : Tile) : Tile :=
  x.vresult e [e.va] 4 (fun l => f (x.lane e.va l))

/-- A reduction into lane 0, the other lanes 0, latency 5. -/
def Tile.vred (f : List W32 → W32) (_m : TileImg) (e : Entry) (x : Tile) : Tile :=
  let r := f ((List.range 32).map (x.lane e.va))
  x.vresult e [e.va] 5 (fun l => if l = 0 then r else 0)

/-- CNT (03 R110). -/
def Tile.vcnt (m : TileImg) (e : Entry) (x : Tile) : Tile :=
  if x.anyVoid [e.va] then x
  else
    x.count m e.vstr ((List.range 32).map (fun l => let v := ofF32 (x.lane e.va l); convElem e.vfmt .nearest v v 1 false))

/-- The vector unit performs operation `op`. -/
def State.runVec (s : State) (t op : Nat) (err : Ecc) (act : TileImg → Entry → Tile → Tile) : Host.Outcome State Fault Refusal :=
  .next (s.runUnit t 2 err 3 (fun n => decide (n.vop = op)) act)

/-! ## The commands -/

/-- LD (R477). -/
def execLd (t : Nat) (e : Ecc) (s : State) : Host.Outcome State Fault Refusal := s.runVec t 0x01 e Tile.vld
/-- ST (R477). -/
def execSt (t : Nat) (s : State) : Host.Outcome State Fault Refusal := s.runVec t 0x02 .ok Tile.vst
/-- RECV (R62). -/
def execRecv (t : Nat) (s : State) : Host.Outcome State Fault Refusal := s.runVec t 0x03 .ok Tile.vrecv
/-- SEND (R62). -/
def execSend (t : Nat) (s : State) : Host.Outcome State Fault Refusal := s.runVec t 0x04 .ok Tile.vsend
/-- SENDA (R62). -/
def execSenda (t : Nat) (s : State) : Host.Outcome State Fault Refusal := s.runVec t 0x05 .ok Tile.vsenda
/-- ADD (R92). -/
def execAdd (t : Nat) (s : State) : Host.Outcome State Fault Refusal := s.runVec t 0x08 .ok (Tile.vbin f32Add)
/-- SUB (R92). -/
def execSub (t : Nat) (s : State) : Host.Outcome State Fault Refusal := s.runVec t 0x09 .ok (Tile.vbin f32Sub)
/-- MUL (R92). -/
def execMul (t : Nat) (s : State) : Host.Outcome State Fault Refusal := s.runVec t 0x0A .ok (Tile.vbin f32Mul)
/-- FMA (R92). -/
def execFma (t : Nat) (s : State) : Host.Outcome State Fault Refusal := s.runVec t 0x0B .ok Tile.vfma
/-- MAX (R92). -/
def execMax (t : Nat) (s : State) : Host.Outcome State Fault Refusal := s.runVec t 0x0C .ok (Tile.vbin f32Max)
/-- MIN (R92). -/
def execMin (t : Nat) (s : State) : Host.Outcome State Fault Refusal := s.runVec t 0x0D .ok (Tile.vbin f32Min)
/-- AMAX (R92). -/
def execAmax (t : Nat) (s : State) : Host.Outcome State Fault Refusal := s.runVec t 0x0E .ok Tile.vamax
/-- SEL (R61). -/
def execSel (t : Nat) (s : State) : Host.Outcome State Fault Refusal := s.runVec t 0x0F .ok Tile.vsel
/-- BCAST (R61). -/
def execBcast (t : Nat) (s : State) : Host.Outcome State Fault Refusal := s.runVec t 0x10 .ok Tile.vbcast
/-- CMPGE (R92). -/
def execCmpge (t : Nat) (s : State) : Host.Outcome State Fault Refusal :=
  s.runVec t 0x11 .ok (Tile.vbin (fun a b => if f32Ge a b then f32One else 0))
/-- EXP2 (R93). -/
def execExp2 (t : Nat) (s : State) : Host.Outcome State Fault Refusal := s.runVec t 0x18 .ok (Tile.vun f32Exp2)
/-- LOG2 (R93). -/
def execLog2 (t : Nat) (s : State) : Host.Outcome State Fault Refusal := s.runVec t 0x19 .ok (Tile.vun f32Log2)
/-- RCP (R93). -/
def execRcp (t : Nat) (s : State) : Host.Outcome State Fault Refusal := s.runVec t 0x1A .ok (Tile.vun f32Rcp)
/-- RSQRT (R93). -/
def execRsqrt (t : Nat) (s : State) : Host.Outcome State Fault Refusal := s.runVec t 0x1B .ok (Tile.vun f32Rsqrt)
/-- TANH (R93). -/
def execTanh (t : Nat) (s : State) : Host.Outcome State Fault Refusal := s.runVec t 0x1C .ok (Tile.vun f32Tanh)
/-- RSUM (R92). -/
def execRsum (t : Nat) (s : State) : Host.Outcome State Fault Refusal := s.runVec t 0x20 .ok (Tile.vred (treeSum f32Add 0 6))
/-- RMAX (R61, R92). -/
def execRmax (t : Nat) (s : State) : Host.Outcome State Fault Refusal := s.runVec t 0x21 .ok (Tile.vred (treeSum f32Max 0 6))
/-- RAMAX (R61, R92). -/
def execRamax (t : Nat) (s : State) : Host.Outcome State Fault Refusal :=
  s.runVec t 0x22 .ok (Tile.vred (fun ls => treeSum f32Max 0 6 (ls.map f32Abs)))
/-- CNT (R110). -/
def execCnt (t : Nat) (s : State) : Host.Outcome State Fault Refusal := s.runVec t 0x28 .ok Tile.vcnt

end Sys2Proof.Machine
end

