-- ==== Sys2Proof/Machine/Dispatch.lean ====
section
/-! DEFINITION. The effect of each command: one arm for each row of the opcode table. -/

namespace Sys2Proof.Machine

/-- The effect of a command on everything but the queue of waiting commands. -/
def exec (i : Instr) (s : State) : Host.Outcome State Fault Refusal :=
  match i with
  | .vsbApplied pufOk => Sys2Proof.Machine.execVsbApplied pufOk s
  | .vsbLoss => Sys2Proof.Machine.execVsbLoss s
  | .vsbSag helmRuns => Sys2Proof.Machine.execVsbSag helmRuns s
  | .pwrPermitAssert held => Sys2Proof.Machine.execPwrPermitAssert held s
  | .powerupStageComplete bist => Sys2Proof.Machine.execPowerupStageComplete bist s
  | .powerupFailed mapBad => Sys2Proof.Machine.execPowerupFailed mapBad s
  | .pwrPermitDeassert held => Sys2Proof.Machine.execPwrPermitDeassert held s
  | .shutdownProgress bist => Sys2Proof.Machine.execShutdownProgress bist s
  | .shutdownTimeout => Sys2Proof.Machine.execShutdownTimeout s
  | .tripRestart => Sys2Proof.Machine.execTripRestart s
  | .moduleTrip cause seen => Sys2Proof.Machine.execModuleTrip cause seen s
  | .powerCycle => Sys2Proof.Machine.execPowerCycle s
  | .cycleOffExpiry => Sys2Proof.Machine.execCycleOffExpiry s
  | .sensorSample v => Sys2Proof.Machine.execSensorSample v s
  | .powerLoop => Sys2Proof.Machine.execPowerLoop s
  | .thermalLoop => Sys2Proof.Machine.execThermalLoop s
  | .capFloorAlarm cap => Sys2Proof.Machine.execCapFloorAlarm cap s
  | .regulatorFault pr => Sys2Proof.Machine.execRegulatorFault pr s
  | .regionTrip pr => Sys2Proof.Machine.execRegionTrip pr s
  | .shutterOpen pr => Sys2Proof.Machine.execShutterOpen pr s
  | .ptAlarmClear v => Sys2Proof.Machine.execPtAlarmClear v s
  | .shutterEmpty v st => Sys2Proof.Machine.execShutterEmpty v st s
  | .refclkLost => Sys2Proof.Machine.execRefclkLost s
  | .refclkRestored => Sys2Proof.Machine.execRefclkRestored s
  | .sqBaseWrite q cq v => Sys2Proof.Machine.execSqBaseWrite q cq v s
  | .qCtrlWrite q v => Sys2Proof.Machine.execQCtrlWrite q v s
  | .sqTailDoorbell q v => Sys2Proof.Machine.execSqTailDoorbell q v s
  | .cqHeadDoorbell q v => Sys2Proof.Machine.execCqHeadDoorbell q v s
  | .winBaseWrite v => Sys2Proof.Machine.execWinBaseWrite v s
  | .intCauseClear v => Sys2Proof.Machine.execIntCauseClear v s
  | .winStatusClear v => Sys2Proof.Machine.execWinStatusClear v s
  | .bar0RegisterWrite offset v bytes => Sys2Proof.Machine.execBar0RegisterWrite offset v bytes s
  | .bar2Read offset n ue => Sys2Proof.Machine.execBar2Read offset n ue s
  | .bar2Write offset data => Sys2Proof.Machine.execBar2Write offset data s
  | .functionLevelReset => Sys2Proof.Machine.execFunctionLevelReset s
  | .commandAccept q pcieError ue => Sys2Proof.Machine.execCommandAccept q pcieError ue s
  | .commandStart seq => Sys2Proof.Machine.execCommandStart seq s
  | .commandComplete seq pcieError => Sys2Proof.Machine.execCommandComplete seq pcieError s
  | .chartLoad seq ue => Sys2Proof.Machine.execChartLoad seq ue s
  | .chartUnload seq err => Sys2Proof.Machine.execChartUnload seq err s
  | .bind seq => Sys2Proof.Machine.execBind seq s
  | .run seq ue => Sys2Proof.Machine.execRun seq ue s
  | .copy seq pcieErrorAt ueAt => Sys2Proof.Machine.execCopy seq pcieErrorAt ueAt s
  | .fence seq => Sys2Proof.Machine.execFence seq s
  | .dictGet seq pcieError => Sys2Proof.Machine.execDictGet seq pcieError s
  | .dictSet seq pcieError st => Sys2Proof.Machine.execDictSet seq pcieError st s
  | .journalMark seq => Sys2Proof.Machine.execJournalMark seq s
  | .abortAtWaypoint seq err => Sys2Proof.Machine.execAbortAtWaypoint seq err s
  | .abortImmediate seq err => Sys2Proof.Machine.execAbortImmediate seq err s
  | .mctpGet vdm src body => Sys2Proof.Machine.execMctpGet vdm src body s
  | .mctpSet vdm src body st => Sys2Proof.Machine.execMctpSet vdm src body st s
  | .mctpSetSigned vdm src body st => Sys2Proof.Machine.execMctpSetSigned vdm src body st s
  | .setEndpointId vdm eid => Sys2Proof.Machine.execSetEndpointId vdm eid s
  | .getEndpointId vdm => Sys2Proof.Machine.execGetEndpointId vdm s
  | .getMctpVersionSupport vdm => Sys2Proof.Machine.execGetMctpVersionSupport vdm s
  | .getMessageTypeSupport vdm => Sys2Proof.Machine.execGetMessageTypeSupport vdm s
  | .getVendorDefinedMsgSupport vdm => Sys2Proof.Machine.execGetVendorDefinedMsgSupport vdm s
  | .dictWrite index sub value st => Sys2Proof.Machine.execDictWrite index sub value st s
  | .opkey slot value st => Sys2Proof.Machine.execOpkey slot value st s
  | .restoreDefaults v => Sys2Proof.Machine.execRestoreDefaults v s
  | .stallDump addr => Sys2Proof.Machine.execStallDump addr s
  | .stallClear v => Sys2Proof.Machine.execStallClear v s
  | .tierDump addr => Sys2Proof.Machine.execTierDump addr s
  | .tierClear v => Sys2Proof.Machine.execTierClear v s
  | .sextantEnable v st => Sys2Proof.Machine.execSextantEnable v st s
  | .torusLen pos axis v st => Sys2Proof.Machine.execTorusLen pos axis v st s
  | .linkRetrain v => Sys2Proof.Machine.execLinkRetrain v s
  | .returnToService signedWrite st => Sys2Proof.Machine.execReturnToService signedWrite st s
  | .repairOverride signedWrite st => Sys2Proof.Machine.execRepairOverride signedWrite st s
  | .bistStart v => Sys2Proof.Machine.execBistStart v s
  | .bistDone findings => Sys2Proof.Machine.execBistDone findings s
  | .engineResetRequest => Sys2Proof.Machine.execEngineResetRequest s
  | .moduleResetRequest => Sys2Proof.Machine.execModuleResetRequest s
  | .powerCycleRequest => Sys2Proof.Machine.execPowerCycleRequest s
  | .logDump addr => Sys2Proof.Machine.execLogDump addr s
  | .logFlashDump addr => Sys2Proof.Machine.execLogFlashDump addr s
  | .logClear signedWrite st => Sys2Proof.Machine.execLogClear signedWrite st s
  | .fwStageOffset v => Sys2Proof.Machine.execFwStageOffset v s
  | .fwStageData data => Sys2Proof.Machine.execFwStageData data s
  | .fwUpdate signedWrite st => Sys2Proof.Machine.execFwUpdate signedWrite st s
  | .fwSelfTestComplete => Sys2Proof.Machine.execFwSelfTestComplete s
  | .fwSelfTestTimeout pufOk => Sys2Proof.Machine.execFwSelfTestTimeout pufOk s
  | .attestNonce nonce => Sys2Proof.Machine.execAttestNonce nonce s
  | .attestIssued => Sys2Proof.Machine.execAttestIssued s
  | .helmRestart cause pufOk => Sys2Proof.Machine.execHelmRestart cause pufOk s
  | .logRecordAppend source => Sys2Proof.Machine.execLogRecordAppend source s
  | .logSpill => Sys2Proof.Machine.execLogSpill s
  | .passStart t => Sys2Proof.Machine.execPassStart t s
  | .firingComplete t => Sys2Proof.Machine.execFiringComplete t s
  | .null t => Sys2Proof.Machine.execNull t s
  | .mac t e => Sys2Proof.Machine.execMac t e s
  | .macz t e => Sys2Proof.Machine.execMacz t e s
  | .drainR t e => Sys2Proof.Machine.execDrainR t e s
  | .drainC t e => Sys2Proof.Machine.execDrainC t e s
  | .zero t => Sys2Proof.Machine.execZero t s
  | .gemvMac t e => Sys2Proof.Machine.execGemvMac t e s
  | .gemvMacz t e => Sys2Proof.Machine.execGemvMacz t e s
  | .store t => Sys2Proof.Machine.execStore t s
  | .ldx t e => Sys2Proof.Machine.execLdx t e s
  | .ld t e => Sys2Proof.Machine.execLd t e s
  | .st t => Sys2Proof.Machine.execSt t s
  | .recv t => Sys2Proof.Machine.execRecv t s
  | .send t => Sys2Proof.Machine.execSend t s
  | .senda t => Sys2Proof.Machine.execSenda t s
  | .add t => Sys2Proof.Machine.execAdd t s
  | .sub t => Sys2Proof.Machine.execSub t s
  | .mul t => Sys2Proof.Machine.execMul t s
  | .fma t => Sys2Proof.Machine.execFma t s
  | .max t => Sys2Proof.Machine.execMax t s
  | .min t => Sys2Proof.Machine.execMin t s
  | .amax t => Sys2Proof.Machine.execAmax t s
  | .sel t => Sys2Proof.Machine.execSel t s
  | .bcast t => Sys2Proof.Machine.execBcast t s
  | .cmpge t => Sys2Proof.Machine.execCmpge t s
  | .exp2 t => Sys2Proof.Machine.execExp2 t s
  | .log2 t => Sys2Proof.Machine.execLog2 t s
  | .rcp t => Sys2Proof.Machine.execRcp t s
  | .rsqrt t => Sys2Proof.Machine.execRsqrt t s
  | .tanh t => Sys2Proof.Machine.execTanh t s
  | .rsum t => Sys2Proof.Machine.execRsum t s
  | .rmax t => Sys2Proof.Machine.execRmax t s
  | .ramax t => Sys2Proof.Machine.execRamax t s
  | .cnt t => Sys2Proof.Machine.execCnt t s
  | .rdA t slot e => Sys2Proof.Machine.execRdA t slot e s
  | .rdB t slot e => Sys2Proof.Machine.execRdB t slot e s
  | .rdSA t slot e => Sys2Proof.Machine.execRdSA t slot e s
  | .rdSB t slot e => Sys2Proof.Machine.execRdSB t slot e s
  | .rdSD t slot e => Sys2Proof.Machine.execRdSD t slot e s
  | .rdOut t slot e => Sys2Proof.Machine.execRdOut t slot e s
  | .wrIn t slot => Sys2Proof.Machine.execWrIn t slot s
  | .rdT t slot e => Sys2Proof.Machine.execRdT t slot e s
  | .win t slot => Sys2Proof.Machine.execWin t slot s
  | .route t => Sys2Proof.Machine.execRoute t s
  | .branch t unit => Sys2Proof.Machine.execBranch t unit s
  | .merge t unit => Sys2Proof.Machine.execMerge t unit s
  | .filter t unit => Sys2Proof.Machine.execFilter t unit s
  | .loop t unit => Sys2Proof.Machine.execLoop t unit s
  | .steerDataIntake t unit => Sys2Proof.Machine.execSteerDataIntake t unit s
  | .steerBearingIntake t unit => Sys2Proof.Machine.execSteerBearingIntake t unit s
  | .meshTransfer t d parityError => Sys2Proof.Machine.execMeshTransfer t d parityError s
  | .portAccess t window e ev => Sys2Proof.Machine.execPortAccess t window e ev s
  | .lineFetch stream ev => Sys2Proof.Machine.execLineFetch stream ev s
  | .lineFill r fill ev hostError ue => Sys2Proof.Machine.execLineFill r fill ev hostError ue s
  | .portOutChunkTake t ev => Sys2Proof.Machine.execPortOutChunkTake t ev s
  | .writeBack r set way ev hostError => Sys2Proof.Machine.execWriteBack r set way ev hostError s
  | .regionReady r t e ev hostError ue => Sys2Proof.Machine.execRegionReady r t e ev hostError ue s
  | .waypointComplete err ue => Sys2Proof.Machine.execWaypointComplete err ue s
  | .stagingBucketReceive u group bucket => Sys2Proof.Machine.execStagingBucketReceive u group bucket s
  | .commitStart ue => Sys2Proof.Machine.execCommitStart ue s
  | .commitElement u ue => Sys2Proof.Machine.execCommitElement u ue s
  | .pageIn u hostError ue => Sys2Proof.Machine.execPageIn u hostError ue s
  | .updateUnitReady u => Sys2Proof.Machine.execUpdateUnitReady u s
  | .gradientScan group bucket ue => Sys2Proof.Machine.execGradientScan group bucket ue s
  | .machineBarrierComplete => Sys2Proof.Machine.execMachineBarrierComplete s
  | .barrierTimeout p => Sys2Proof.Machine.execBarrierTimeout p s
  | .exponentAgreement group ue => Sys2Proof.Machine.execExponentAgreement group ue s
  | .chainStart group bucket half chunk ue => Sys2Proof.Machine.execChainStart group bucket half chunk ue s
  | .gatherStart group bucket ue => Sys2Proof.Machine.execGatherStart group bucket ue s
  | .portTrainStart p => Sys2Proof.Machine.execPortTrainStart p s
  | .detect p lanes reversed inverted => Sys2Proof.Machine.execDetect p lanes reversed inverted s
  | .equalise p precoded => Sys2Proof.Machine.execEqualise p precoded s
  | .align p => Sys2Proof.Machine.execAlign p s
  | .fecLock p => Sys2Proof.Machine.execFecLock p s
  | .identify p first ident => Sys2Proof.Machine.execIdentify p first ident s
  | .trainStateTimeout p => Sys2Proof.Machine.execTrainStateTimeout p s
  | .generationExchange p => Sys2Proof.Machine.execGenerationExchange p s
  | .retrain p cause txHealthy rxHealthy => Sys2Proof.Machine.execRetrain p cause txHealthy rxHealthy s
  | .retrainComplete p => Sys2Proof.Machine.execRetrainComplete p s
  | .linkDown p => Sys2Proof.Machine.execLinkDown p s
  | .flitTransmit p => Sys2Proof.Machine.execFlitTransmit p s
  | .flitReceiveError p err f => Sys2Proof.Machine.execFlitReceiveError p err f s
  | .idle p f => Sys2Proof.Machine.execIdle p f s
  | .token p f => Sys2Proof.Machine.execToken p f s
  | .kvtoken p f => Sys2Proof.Machine.execKvtoken p f s
  | .reduce p f ue => Sys2Proof.Machine.execReduce p f ue s
  | .agree p f ue => Sys2Proof.Machine.execAgree p f ue s
  | .weight p f => Sys2Proof.Machine.execWeight p f s
  | .barrier p f => Sys2Proof.Machine.execBarrier p f s
  | .start p f => Sys2Proof.Machine.execStart p f s
  | .startTimeout => Sys2Proof.Machine.execStartTimeout s
  | .tapcount p f => Sys2Proof.Machine.execTapcount p f s
  | .replay p f => Sys2Proof.Machine.execReplay p f s
  | .bulk p f => Sys2Proof.Machine.execBulk p f s
  | .gen p f => Sys2Proof.Machine.execGen p f s
  | .tapSend p vc => Sys2Proof.Machine.execTapSend p vc s
  | .stepWatchdog r longFiring => Sys2Proof.Machine.execStepWatchdog r longFiring s
  | .regionQueryResult r answered => Sys2Proof.Machine.execRegionQueryResult r answered s
  | .resetComplete k ix => Sys2Proof.Machine.execResetComplete k ix s
  | .resetOverrun k ix => Sys2Proof.Machine.execResetOverrun k ix s
  | .replayResume ue => Sys2Proof.Machine.execReplayResume ue s
  | .linkWaitTimeout => Sys2Proof.Machine.execLinkWaitTimeout s
  | .pcieLinkSettle speed width => Sys2Proof.Machine.execPcieLinkSettle speed width s
  | .flashRingErased => Sys2Proof.Machine.execFlashRingErased s

end Sys2Proof.Machine
end

