-- ==== Sys2Proof/Machine/Idle.lean ====
section
/-! DEFINITION. What passes while no command waits: device time (00 R15). -/

namespace Sys2Proof.Machine

/-- One nanosecond of device time passes while standby is present (DESIGN CHOICE, log 3). -/
def idleStep (s : State) : State :=
  if s.pw.vsb then { s with pw := { s.pw with time := s.pw.time + 1 } } else s

end Sys2Proof.Machine
end

