-- ==== Sys2Proof/Safety.lean ====
section
/-! DEFINITION. The terms in which claims are made: a completed command, what a command leaves unchanged, the invariants
that every step keeps. -/

namespace Sys2Proof.Machine

/-! ## Completion -/

/-- A command completes: its effect is a next state. -/
abbrev Completes (c : Instr) (s u : State) : Prop := exec c s = .next u

/-! ## Invariants -/

/-- Device memory, the journal's reservation, the host memory that the module reaches and both firmware banks are in their canonical
form. -/
def MemoriesWf (s : State) : Prop :=
  s.mem.wf = true ∧ s.jmem.wf = true ∧ s.hostMem.wf = true ∧ s.helm.bankA.wf = true ∧ s.helm.bankB.wf = true

/-- The variant is one of the three (00 R2), FW_BANK names a bank whose image satisfies ROLLBACK_COUNTER, and so does the
image in self-test (14 R419, R422). -/
def FirmwareSafe (s : State) : Prop :=
  (s.variant = 2 ∨ s.variant = 4 ∨ s.variant = 8) ∧ s.helm.active ≤ 1 ∧
    s.helm.rollback ≤ s.fwRollback s.helm.active ∧
    (s.helm.selfTest = true → s.helm.pending = true ∧ s.helm.running = 1 - s.helm.active ∧ s.helm.rollback ≤ s.fwRollback s.helm.running)

/-! ## Tiles -/

/-- Unit `k` of tile `t` has its share of a firing in hand: `m` the tile's image, `e` its entry, `x` the tile at the start of
the firing; no output queue has two producers and no head belongs to a steering unit (02 R35, R38; 04 R117, R127). -/
def Acts (s : State) (t k : Nat) (m : TileImg) (e : Entry) (x : Tile) : Prop :=
  s.begin t k = some (m, e, x) ∧ e.clash m (s.tile t) = false

/-- Nothing differs between two states but tile `t`. -/
def OnlyTile (t : Nat) (s u : State) : Prop :=
  { u with tiles := s.tiles } = s ∧ ∀ t', t' ≠ t → u.tile t' = s.tile t'

/-- What a unit's share of a firing leaves of a tile: its registers, queues, planes, scratchpad and streams; the results in
flight, the firing's own record and the Sextant's counts may change. -/
def TileKept (x y : Tile) : Prop :=
  y = { x with flight := y.flight, firing := y.firing, since := y.since, sx := y.sx, occ := y.occ, sxcap := y.sxcap }

/-- The unit's share is done: it stands in the firing's list. -/
def ShareDone (k : Nat) (y : Tile) : Prop := ∃ f, y.firing = some f ∧ k ∈ f.done

/-- A vector operation's result lands in VD after `lat` firings: +0 and the void mark when a source is void (04 Table FLOW-7). -/
def VecLands (c : Instr) (s : State) (t : Nat) (e : Entry) (x : Tile) (lat : Nat) (srcs : List Nat) (f : Nat → W32) : Prop :=
  ∃ u, Completes c s u ∧ OnlyTile t s u ∧ TileKept x (u.tile t) ∧ ShareDone 2 (u.tile t) ∧
    (u.tile t).flight = x.flight ++
      [⟨lat, .vreg e.vd (lanesOf (fun l => if x.anyVoid srcs then 0 else f l)) (x.anyVoid srcs)⟩]

/-- A unit's share puts one result in flight, and nothing else of the tile's registers changes but the streams it advances. -/
def Sends (c : Instr) (s : State) (t k : Nat) (x : Tile) (lat : Nat) (l : Land) : Prop :=
  ∃ u, Completes c s u ∧ OnlyTile t s u ∧ ShareDone k (u.tile t) ∧
    (u.tile t).flight = x.flight ++ [⟨lat, l⟩] ∧
    TileKept { x with streams := (u.tile t).streams } (u.tile t)

/-- The tokens a unit's share adds to those the firing gives. -/
def GivesTokens (x y : Tile) (ks : List (Dir × Token)) : Prop :=
  ∃ f g, x.firing = some f ∧ y.firing = some g ∧ g.out = f.out ++ ks

/-! ## Host interface and dictionary -/

/-- A command has ended: its outcome is fixed and waits for its completion (11 R356). -/
def Ended (u : State) (seq code detail result : Nat) : Prop :=
  ∃ k, u.cmd seq = some k ∧ k.ended = true ∧ k.code = code ∧ k.detail = detail ∧ k.result = result

/-- No COPY that a port carries is command `seq`. -/
def NoCopyOf (s : State) (seq : Nat) : Prop := ∀ p, ∀ x ∈ (s.port p).copies, x.1 ≠ seq

/-- Nothing differs between two states but the host interface. -/
def OnlyHost (s u : State) : Prop := { u with hi := s.hi } = s

/-- Only one queue of the host interface differs, and it is `x`. -/
def QueueIs (s u : State) (q : Nat) (x : Queue) : Prop :=
  { u with hi := { u.hi with queues := s.hi.queues } } = s ∧ u.queue q = x ∧ ∀ q', q' ≠ q → u.queue q' = s.queue q'

/-- The objects whose write does more than store its value (12 R367). -/
def actingObjects : List Nat :=
  [0x1010, 0x2020, 0x2041, 0x3010, 0x3011, 0x5032, 0x6001, 0x6020, 0x6101, 0x6300, 0x7010, 0x7013, 0x7020, 0x8002, 0x8003,
    0x8010, 0x8011, 0x8012, 0x8013, 0x8031, 0x9010, 0x9011]

/-- One stored value of the dictionary is `n`, every other is as it was. -/
def ObjectIs (s u : State) (idx sub n : Nat) : Prop :=
  u.obj idx sub = n ∧ ∀ i j, okey i j ≠ okey idx sub → u.obj i j = s.obj i j

/-- The variant is one of the three (00 R2). -/
def VariantOk (s : State) : Prop := s.variant = 2 ∨ s.variant = 4 ∨ s.variant = 8

/-- A command is refused by the dictionary with a status, which is all that it changes. -/
def Refuses (c : Instr) (s : State) (code : Nat) : Prop :=
  ∃ u, Completes c s u ∧ u = { s with dict := { s.dict with status := code } }

/-- The module takes a signed write of object `idx` (12 R380). -/
def TakesSigned (s : State) (idx : Nat) (b : List Byte) : Prop :=
  s.helmRuns = true ∧ swIndex b = idx ∧ swSub b = 0 ∧ s.objServed idx 0 = true ∧ s.layoutBad b = none ∧
    ∃ r, objRow s.variant idx 0 = some r ∧ s.signedStatus r b = 0

/-- The counter of a signed write's slot has advanced by one, short of its greatest value, every other counter stands (12 R380). -/
def CounterAdvances (s u : State) (b : List Byte) : Prop :=
  tget 0 u.dict.opctrs (swSlot b) = satAdd 64 (swCounter b) 1 ∧
    ∀ i, i ≠ swSlot b → tget 0 u.dict.opctrs i = tget 0 s.dict.opctrs i

/-! ## Links -/

/-- Nothing differs between two states but port `p`. -/
def OnlyPort (p : Nat) (s u : State) : Prop :=
  { u with link := { u.link with ports := s.link.ports } } = s ∧ ∀ q, q ≠ p → u.port q = s.port q

/-- A port takes a sequenced flit of a type: it is ACTIVE outside an exchange, no closed door holds the flit, and GEN, TYPE and SEQ
are as expected (10 R328, R330). -/
def Receives (s : State) (p : Nat) (f : Flit) (type : Nat) : Prop :=
  (s.port p).st = .active ∧ s.rxHeld p type = false ∧ (s.port p).genOpen = false ∧ f.gen = (s.port p).partnerGen ∧ f.type = type ∧
    f.seq = (s.port p).rxSeq

/-- Nothing waits in the receive buffers of the ports. -/
def BuffersEmpty (s : State) : Prop := ∀ p vc, tget [] (s.port p).rxbuf vc = []

/-- A fault record with the next number stands among the kept ones, its time within 1 µs of device time (14 R408). -/
def Records (s u : State) (cause : Nat) : Prop :=
  ∃ f ∈ u.rcv.faults, f.number = satAdd 32 (s.obj 0x6010 0) 1 ∧ f.cause = cause ∧
    s.now ≤ f.time + 1000 ∧ f.time ≤ s.now + 1000

end Sys2Proof.Machine
end

