-- ==== Sys2Proof/Certificates/Slice0/Obligations.lean ====
section
/-! DEFINITION. The statements about the model that the provers prove. -/

open Sys2Proof Sys2Proof.Machine

/-! ## The machine -/

/-- A step takes the command at the front of the queue and runs it on the state with the rest of the queue. The queue of commands and what
a step does with it are the model's choice (logs 11 and 80): no rule of the spec speaks of them. -/
def Obligations.StepRunsFrontCommand : Prop :=
  ∀ (c : Instr) (rest : List Instr) (s : State), step { s with pending := c :: rest } = exec c { s with pending := rest }

/-- With no command waiting a step lets 1 ns of device time pass while standby is present, and changes nothing else (the model's
choice, log 3). -/
def Obligations.IdleStepPassesTime : Prop :=
  ∀ s : State, s.pending = [] →
    ∃ u, step s = .next u ∧ { u with pw := { u.pw with time := s.pw.time } } = s ∧
      u.pw.time = (if s.pw.vsb then s.pw.time + 1 else s.pw.time)

/-- Every command completes from every state, and a step answers with the command's own effect: the command at the front is
taken once, the commands behind it stand as they did, in their order, and no command changes the variant or the serial number (00
R2). What standby, PWR_PERMIT and the sensors are at after their commands is in the step's answer, whatever the state before (13
R387, R399, R400; 16 R470, Table PKG-5). That a command whose conditions do not hold completes by leaving the state as it is, so that
every command completes from every state, is the model's choice (log 2). -/
def Obligations.EveryCommandCompletes : Prop :=
  (∀ (c : Instr) (rest : List Instr) (s : State), ∃ u, step { s with pending := c :: rest } = .next u ∧
    Completes c { s with pending := rest } u ∧ u.pending = rest ∧ u.variant = s.variant ∧ u.serial = s.serial) ∧
  (∀ (rest : List Instr) (s : State),
    (∀ ok, ∃ u, step { s with pending := .vsbApplied ok :: rest } = .next u ∧ u.pw.vsb = true) ∧
    (∃ u, step { s with pending := .vsbLoss :: rest } = .next u ∧ u.pw.vsb = false) ∧
    (∀ n, 1000000 ≤ n → ∃ u, step { s with pending := .pwrPermitAssert n :: rest } = .next u ∧ u.pw.permit = true) ∧
    (∀ n, 1000000 ≤ n → ∃ u, step { s with pending := .pwrPermitDeassert n :: rest } = .next u ∧ u.pw.permit = false) ∧
    (∀ v, s.helmRuns = true → ∃ u, step { s with pending := .sensorSample v :: rest } = .next u ∧
      u.pw.vin = v.vin ∧ u.pw.standbyV = v.standby ∧ u.pw.current = v.current ∧ u.pw.power = v.power ∧ u.pw.helmT = v.helm))

/-- Bytes written to a memory are read back, every other address reads as before, and the canonical form is kept; the same holds of device
memory, journal ring included (11 R358). -/
def Obligations.MemoryReadAfterWrite : Prop :=
  (∀ (m : Memory) (a : Nat) (bs : List Byte),
    (m.writeN a bs).readN a bs.length = bs ∧
      (∀ b, b < a ∨ a + bs.length ≤ b → (m.writeN a bs).read b = m.read b) ∧
      (m.wf = true → (m.writeN a bs).wf = true)) ∧
  (∀ (s : State) (a : Nat) (bs : List Byte),
    (s.devWrite a bs).devRead a bs.length = bs ∧
      (∀ b, b < a ∨ a + bs.length ≤ b → (s.devWrite a bs).devByte b = s.devByte b) ∧
      { s.devWrite a bs with mem := s.mem, jmem := s.jmem } = s)

/-- Every step keeps device memory, the journal's reservation, host memory and both firmware banks in their canonical form. -/
def Obligations.StepKeepsMemoriesCanonical : Prop :=
  ∀ s u : State, MemoriesWf s → step s = .next u → MemoriesWf u

/-- Every step keeps the firmware banks safe from rollback: the active bank satisfies ROLLBACK_COUNTER. -/
def Obligations.StepKeepsFirmwareSafe : Prop :=
  ∀ s u : State, FirmwareSafe s → step s = .next u → FirmwareSafe u ∧ s.helm.rollback ≤ u.helm.rollback

/-- The reset state has what every step keeps: those memories in their canonical form and safe firmware. -/
def Obligations.InvariantsHoldAtReset : Prop := MemoriesWf State.reset ∧ FirmwareSafe State.reset

/-! ## Firings of a tile (02, 03, 04) -/

/-- What a unit of a tile has in hand: an entry that names it, on a tile whose door is open and which fires; the rest of the
tile is as it was, but for windows that open with the firing. That the units `e.before k` have acted before, where units of one firing
share a stream, is the model's choice (log 31). -/
def Obligations.FiringStarts : Prop :=
  ∀ (s : State) (t k : Nat) (m : TileImg) (e : Entry) (x : Tile), s.begin t k = some (m, e, x) →
    s.img t = some m ∧ e = m.entryAt (s.tile t).entry ∧ e.names k = true ∧
      s.doorClosed .dataflow (s.physOf (tileRegion t)) = false ∧ x.st = .fire ∧ x.firing.isSome = true ∧
      x = { s.tile t with st := x.st, firing := x.firing, wins := x.wins } ∧
      (∀ j ∈ e.before k, ∀ f, x.firing = some f → j ∈ f.done)

/-- The vector operations on registers (02 Table TILE-9, R61): lane by lane into VD after the latency of the table, with the
results of FP32 arithmetic rounded once (03 R92). -/
def Obligations.VectorLaneOperations : Prop :=
  ∀ (s : State) (t : Nat) (m : TileImg) (e : Entry) (x : Tile), Acts s t 2 m e x →
    (e.vop = 0x08 → VecLands (.add t) s t e x 1 [e.va, e.vb] (fun l => f32Add (x.lane e.va l) (x.lane e.vb l))) ∧
    (e.vop = 0x09 → VecLands (.sub t) s t e x 1 [e.va, e.vb] (fun l => f32Sub (x.lane e.va l) (x.lane e.vb l))) ∧
    (e.vop = 0x0A → VecLands (.mul t) s t e x 1 [e.va, e.vb] (fun l => f32Mul (x.lane e.va l) (x.lane e.vb l))) ∧
    (e.vop = 0x0B → VecLands (.fma t) s t e x 1 [e.va, e.vb, e.vc]
      (fun l => f32Fma (x.lane e.va l) (x.lane e.vb l) (x.lane e.vc l))) ∧
    (e.vop = 0x0C → VecLands (.max t) s t e x 1 [e.va, e.vb] (fun l => f32Max (x.lane e.va l) (x.lane e.vb l))) ∧
    (e.vop = 0x0D → VecLands (.min t) s t e x 1 [e.va, e.vb] (fun l => f32Min (x.lane e.va l) (x.lane e.vb l))) ∧
    (e.vop = 0x0E → VecLands (.amax t) s t e x 1 [e.vd, e.va] (fun l => f32Max (x.lane e.vd l) (f32Abs (x.lane e.va l)))) ∧
    (e.vop = 0x0F → VecLands (.sel t) s t e x 1 [e.va, e.vb, e.vc]
      (fun l => if f32Ge (x.lane e.vc l) 0 then x.lane e.va l else x.lane e.vb l)) ∧
    (e.vop = 0x10 → VecLands (.bcast t) s t e x 1 [e.va] (fun _ => x.lane e.va e.vb)) ∧
    (e.vop = 0x11 → VecLands (.cmpge t) s t e x 1 [e.va, e.vb]
      (fun l => if f32Ge (x.lane e.va l) (x.lane e.vb l) then 0x3F800000 else 0))

/-- The transcendental operations and the reductions (02 Table TILE-9; 03 R93): latency 4, and latency 5 into lane 0 with the
other lanes +0. -/
def Obligations.VectorUnaryOperations : Prop :=
  ∀ (s : State) (t : Nat) (m : TileImg) (e : Entry) (x : Tile), Acts s t 2 m e x →
    (e.vop = 0x18 → VecLands (.exp2 t) s t e x 4 [e.va] (fun l => f32Exp2 (x.lane e.va l))) ∧
    (e.vop = 0x19 → VecLands (.log2 t) s t e x 4 [e.va] (fun l => f32Log2 (x.lane e.va l))) ∧
    (e.vop = 0x1A → VecLands (.rcp t) s t e x 4 [e.va] (fun l => f32Rcp (x.lane e.va l))) ∧
    (e.vop = 0x1B → VecLands (.rsqrt t) s t e x 4 [e.va] (fun l => f32Rsqrt (x.lane e.va l))) ∧
    (e.vop = 0x1C → VecLands (.tanh t) s t e x 4 [e.va] (fun l => f32Tanh (x.lane e.va l))) ∧
    (e.vop = 0x20 → VecLands (.rsum t) s t e x 5 [e.va]
      (fun l => if l = 0 then treeSum f32Add 0 6 ((List.range 32).map (x.lane e.va)) else 0)) ∧
    (e.vop = 0x21 → VecLands (.rmax t) s t e x 5 [e.va]
      (fun l => if l = 0 then treeSum f32Max 0 6 ((List.range 32).map (x.lane e.va)) else 0)) ∧
    (e.vop = 0x22 → VecLands (.ramax t) s t e x 5 [e.va]
      (fun l => if l = 0 then treeSum f32Max 0 6 ((List.range 32).map (fun i => f32Abs (x.lane e.va i))) else 0))

/-- The special values and the exact cases of the transcendental operations (03 R93, Table FMT-4): of every NaN the canonical NaN (R79),
of both zeros and both infinities the table's values, of every negative number under RSQRT and LOG2 NaN, of every input of 128 or more
under EXP2 +∞; RCP is exact for each power of two, of either sign, whose reciprocal FP32 has, LOG2 for every power of two, EXP2 for every
integer whose power of two FP32 has. -/
def Obligations.TranscendentalSpecialValues : Prop :=
  (∀ x : W32,
    (isNan (ofF32 x) = true → f32Exp2 x = 0x7FC00000 ∧ f32Log2 x = 0x7FC00000 ∧ f32Rcp x = 0x7FC00000 ∧
      f32Rsqrt x = 0x7FC00000 ∧ f32Tanh x = 0x7FC00000) ∧
    (isZero (ofF32 x) = true → f32Rcp x = (if x.getLsbD 31 then 0xFF800000 else 0x7F800000) ∧
      f32Rsqrt x = (if x.getLsbD 31 then 0xFF800000 else 0x7F800000) ∧ f32Log2 x = 0xFF800000 ∧ f32Tanh x = x) ∧
    (x = 0x7F800000 → f32Rcp x = 0x00000000 ∧ f32Rsqrt x = 0 ∧ f32Log2 x = 0x7F800000 ∧ f32Exp2 x = 0x7F800000 ∧ f32Tanh x = 0x3F800000) ∧
    (x = 0xFF800000 → f32Rcp x = 0x80000000 ∧ f32Exp2 x = 0 ∧ f32Tanh x = 0xBF800000) ∧
    (isNan (ofF32 x) = false → isZero (ofF32 x) = false → x.getLsbD 31 = true → f32Rsqrt x = 0x7FC00000 ∧ f32Log2 x = 0x7FC00000) ∧
    (isNan (ofF32 x) = false → x.getLsbD 31 = false → 0x43000000 ≤ x.toNat → f32Exp2 x = 0x7F800000)) ∧
  (∀ n : Int,
    (-127 ≤ n → n ≤ 127 → f32Rcp (f32Pow2 n) = f32Pow2 (-n) ∧ f32Rcp (f32Neg (f32Pow2 n)) = f32Neg (f32Pow2 (-n))) ∧
    (-149 ≤ n → n ≤ 127 → f32Log2 (f32Pow2 n) = f32OfInt n ∧ f32Exp2 (f32OfInt n) = f32Pow2 n))

/-- MAC and MACZ (02 R41, R47; 03 R86-R91): every cell of the plane adds the products of its row and column in increasing
depth; a void operand adds nothing; MACZ starts from zero; the other plane and everything else of the tile stays. -/
def Obligations.ArrayMultiplyAccumulates : Prop :=
  ∀ (s : State) (t : Nat) (m : TileImg) (e : Entry) (x : Tile), Acts s t 0 m e x → ∀ z : Bool, e.aop = (if z then 2 else 1) →
    ∃ u, Completes (if z then .macz t .ok else .mac t .ok) s u ∧ OnlyTile t s u ∧ ShareDone 0 (u.tile t) ∧
      (let c := e.afmt
       let y := u.tile t
       let A := x.slice e.asrc (sliceA c) false
       let B := A.2.2.slice e.bsrc (sliceB c) true
       let old : Plane := if z then {} else x.plane e.aplane
       (∀ i j, i < 16 → j < fmtCols c →
         (y.plane e.aplane).at' i (presCol c j) =
           (if A.2.1 || B.2.1 then old.at' i (presCol c j)
            else (cellProducts c e.mix A.1 B.1 y.scaleA.cur y.scaleB.cur i j).foldl (if isInt c then accInt else accFp)
              (old.at' i (presCol c j)))) ∧
       (y.plane e.aplane).fmt = c ∧ y.plane (1 - e.aplane) = x.plane (1 - e.aplane) ∧
       y.blk = (if z then 0 else x.blk) + 1 ∧
       y.opA = (if (dirCode e.asrc).isSome then x.opA else brest x.opA (sliceA c)) ∧
       y.opB = (if (dirCode e.bsrc).isSome then x.opB else brest x.opB (sliceB c)) ∧
       TileKept { x with plane0 := y.plane0, plane1 := y.plane1, opA := y.opA, opB := y.opB, scaleA := y.scaleA, scaleB := y.scaleB, blk := y.blk } y)

/-- At a block boundary of a MAC or a MACZ, which restarts the count of the block, both current scale records become the next ones, else
they stay (02 R43, R47). That bits read beyond a scale record head the next one is the model's choice (log 89). -/
def Obligations.ScaleRecordsMoveAtBlocks : Prop :=
  ∀ (s : State) (t : Nat) (m : TileImg) (e : Entry) (x : Tile), Acts s t 0 m e x → ∀ z : Bool, e.aop = (if z then 2 else 1) →
    ∃ u, Completes (if z then .macz t .ok else .mac t .ok) s u ∧
      (isBlock e.afmt = true ∧ (z = true ∨ x.blk % blockFirings e.afmt = 0) →
        (u.tile t).scaleA.cur = bhead x.scaleA.next (recA e.afmt) ∧ (u.tile t).scaleB.cur = bhead x.scaleB.next (recB e.afmt) ∧
          (u.tile t).scaleA.next = brest x.scaleA.next (recA e.afmt) ∧ (u.tile t).scaleB.next = brest x.scaleB.next (recB e.afmt)) ∧
      (¬ (isBlock e.afmt = true ∧ (z = true ∨ x.blk % blockFirings e.afmt = 0)) →
        (u.tile t).scaleA = x.scaleA ∧ (u.tile t).scaleB = x.scaleB)

/-- DRAIN_R, DRAIN_C and ZERO (02 R47-R49): a drain converts the next unit of the plane, counts its elements, moves it to the
destination and leaves the accumulators; ZERO clears the plane. -/
def Obligations.ArrayDrainsAndZero : Prop :=
  ∀ (s : State) (t : Nat) (m : TileImg) (e : Entry) (x : Tile), Acts s t 0 m e x →
    (∀ col : Bool, e.aop = (if col then 4 else 3) →
      ∃ u, Completes (if col then .drainC t .ok else .drainR t .ok) s u ∧ OnlyTile t s u ∧ ShareDone 0 (u.tile t) ∧
        (let c := e.afmt
         let p := x.plane e.aplane
         let y := u.tile t
         let xs := drainIn p c col p.drain
         let r := drainConv c (x.draws e.arnd xs.length).1 x.drainScale xs
         let bits := packConv c r.1
         (y.plane e.aplane).acc = p.acc ∧ (y.plane e.aplane).fmt = p.fmt ∧
         (y.plane e.aplane).drain = (if p.drain + 1 = drainUnits p c col then 0 else p.drain + 1) ∧
         y.rng = (x.draws e.arnd xs.length).2.rng ∧ y.csets = (x.count m e.dstr r.1).csets ∧
         (∀ d, dirCode e.ddst = some d → GivesTokens x y [(d, ⟨BitVec.ofNat 512 bits, false⟩)] ∧ y.spad = x.spad) ∧
         (e.ddst = 5 → (∃ f g, x.firing = some f ∧ y.firing = some g ∧ g.viq = f.viq ++ [BitVec.ofNat 512 bits]) ∧ y.spad = x.spad) ∧
         (e.ddst = 0 → isBlock c = false →
           y.spad = x.spad.writeN (x.stream e.dstr).ptr (valWords (elemBits c * xs.length / 32) bits)) ∧
         TileKept { x with plane0 := y.plane0, plane1 := y.plane1, rng := y.rng, csets := y.csets, streams := y.streams, spad := y.spad } y)) ∧
    (e.aop = 5 →
      ∃ u, Completes (.zero t) s u ∧ OnlyTile t s u ∧ ShareDone 0 (u.tile t) ∧
        (∀ i j, ((u.tile t).plane e.aplane).at' i j = {}) ∧ ((u.tile t).plane e.aplane).drain = 0 ∧
        (u.tile t).plane (1 - e.aplane) = x.plane (1 - e.aplane) ∧
        TileKept { x with plane0 := (u.tile t).plane0, plane1 := (u.tile t).plane1 } (u.tile t))

/-- The GEMV unit (02 R58-R60; 03 R90): MAC adds one chunk's sum to y[YACC], MACZ starts it from zero, STORE writes the sixteen
results, LDX loads 64 elements of x. -/
def Obligations.GemvOperations : Prop :=
  ∀ (s : State) (t : Nat) (m : TileImg) (e : Entry) (x : Tile), Acts s t 1 m e x →
    (∀ z : Bool, e.gop = (if z then 2 else 1) →
      ∃ u, Completes (if z then .gemvMacz t .ok else .gemvMac t .ok) s u ∧ OnlyTile t s u ∧ ShareDone 1 (u.tile t) ∧
        (let c := e.gfmt
         let ptr := (x.stream e.wstr).ptr
         let w := wordsVal (x.readStream m e.wstr)
         let sc := if isBlock c then wordsVal (x.readStream m (e.wstr + 1)) else 0
         let xs := (List.range (chunkOf c)).map (fun i => x.xElem (e.xidx + i))
         let old : Acc := if z then {} else tget {} x.y e.yacc
         let new : Acc := if isInt c then satAcc old (gemvSumInt w xs) else ⟨toF32 (accSum (ofF32 old.val) (ofF32 (gemvSum c w sc xs))), old.sat, false⟩
         tget {} (u.tile t).y e.yacc = new ∧ (∀ i, i ≠ e.yacc → tget {} (u.tile t).y i = tget {} x.y i) ∧
         (u.tile t).flight = x.flight ++ [⟨if eastHalf ptr then 5 else 8, .yout e.yacc new⟩] ∧
         TileKept { x with y := (u.tile t).y, streams := (u.tile t).streams } (u.tile t))) ∧
    (e.gop = 4 → Sends (.ldx t .ok) s t 1 x (latEast (x.stream e.xstr).ptr)
      (.xreg e.xidx ((List.range 64).map (fun i => BitVec.ofNat 16 (elemOf (wordsVal (x.readStream m e.xstr)) 16 i))))) ∧
    (e.gop = 3 →
      ∃ u, Completes (.store t) s u ∧ OnlyTile t s u ∧ ShareDone 1 (u.tile t) ∧
        (let c := if e.gfmt = 0 then 0 else 11
         let ds := (x.draws e.grnd 16).1
         let es := (List.range 16).map (fun i =>
           let a := tget ({} : Acc) x.yout i
           convElem c (rndAt ds i) (accVal a) (accVal a) 1 a.sat)
         (u.tile t).spad = x.spad.writeN (x.stream e.xstr).ptr (valWords (16 * elemBits c / 32) (packConv c es)) ∧
         (u.tile t).csets = (x.count m e.xstr es).csets ∧ (u.tile t).rng = (x.draws e.grnd 16).2.rng ∧
         TileKept { x with rng := (u.tile t).rng, csets := (u.tile t).csets, streams := (u.tile t).streams, spad := (u.tile t).spad } (u.tile t)))

/-- The vector operations on memory and queues (02 R62, R477; 03 R110; 04 Table FLOW-7): LD and RECV land in VD, ST writes the
converted lanes unless VA is void, SEND and SENDA give a token or operand bits, CNT counts and writes nothing. RECV takes the head its
field names or the vector input queue: all 32 lanes of a 16-bit format, the half of the token that SUB names of an 8-bit one, and 16 lanes of
FP32 into the half of VD that SUB names; SEND of FP32 takes the half of VA that its field names. -/
def Obligations.VectorMoves : Prop :=
  ∀ (s : State) (t : Nat) (m : TileImg) (e : Entry) (x : Tile), Acts s t 2 m e x →
    (e.vop = 0x01 → Sends (.ld t .ok) s t 2 x (latEast (x.stream e.vstr).ptr)
      (.vreg e.vd (lanesOf (fun l => elemF32 e.vfmt (elemOf (wordsVal (x.readStream m e.vstr)) (elemBits e.vfmt) l))) false)) ∧
    (e.vop = 0x03 →
      (let k : Token := match dirCode e.vb with | some d => x.headD d | none => ⟨x.viq.headD 0, false⟩
       let el := fun (w i : Nat) => if k.void then (0 : W32) else elemF32 e.vfmt (elemOf k.data.toNat w i)
       let half := if e.vsub then 1 else 0
       (elemBits e.vfmt = 16 → Sends (.recv t) s t 2 x 1 (.vreg e.vd (lanesOf (el 16)) k.void)) ∧
       (elemBits e.vfmt = 8 → Sends (.recv t) s t 2 x 1 (.vreg e.vd (lanesOf (fun l => el 8 (32 * half + l))) k.void)) ∧
       (elemBits e.vfmt = 32 →
         Sends (.recv t) s t 2 x 1 (.vreg e.vd ((List.range 16).map (fun i => (16 * half + i, el 32 i))) k.void)))) ∧
    (e.vop = 0x02 →
      ∃ u, Completes (.st t) s u ∧ OnlyTile t s u ∧ ShareDone 2 (u.tile t) ∧
        (let es := (x.vconv e 0 32).1
         ((x.vreg e.va).void = true → (u.tile t).spad = x.spad ∧ (u.tile t).csets = x.csets) ∧
         ((x.vreg e.va).void = false →
           (u.tile t).spad = x.spad.writeN (x.stream e.vstr).ptr (valWords (elemBits e.vfmt) (packConv e.vfmt es)) ∧
           (u.tile t).csets = (x.count m e.vstr es).csets) ∧
         (u.tile t).rng = (x.draws e.vsub 32).2.rng ∧
         TileKept { x with rng := (u.tile t).rng, csets := (u.tile t).csets, streams := (u.tile t).streams, spad := (u.tile t).spad } (u.tile t))) ∧
    (e.vop = 0x04 → ∀ d, dirCode (e.vb % 8) = some d →
      ∃ u, Completes (.send t) s u ∧ OnlyTile t s u ∧ ShareDone 2 (u.tile t) ∧
        (let es := if elemBits e.vfmt = 32 then (x.vconv e (if e.vb.testBit 3 then 16 else 0) 16).1 else (x.vconv e 0 32).1
         GivesTokens x (u.tile t) [(d, if (x.vreg e.va).void then ⟨0, true⟩
           else ⟨BitVec.ofNat 512 (packConv e.vfmt es), false⟩)]) ∧
        (u.tile t).rng = (x.draws e.vsub (if elemBits e.vfmt = 32 then 16 else 32)).2.rng ∧
        TileKept { x with rng := (u.tile t).rng } (u.tile t)) ∧
    (e.vop = 0x05 →
      ∃ u f g, Completes (.senda t) s u ∧ OnlyTile t s u ∧ ShareDone 2 (u.tile t) ∧
        x.firing = some f ∧ (u.tile t).firing = some g ∧
        g.opA = f.opA ++ [bmk (sendaBits e.vfmt) (if (x.vreg e.va).void then 0 else packConv e.vfmt (x.vconv e 0 32).1)] ∧
        TileKept { x with rng := (u.tile t).rng } (u.tile t)) ∧
    (e.vop = 0x28 →
      ∃ u, Completes (.cnt t) s u ∧ OnlyTile t s u ∧ ShareDone 2 (u.tile t) ∧
        (let es := (List.range 32).map (fun l => convElem e.vfmt .nearest (ofF32 (x.lane e.va l)) (ofF32 (x.lane e.va l)) 1 false)
         (u.tile t).csets = (if (x.vreg e.va).void then x.csets else (x.count m e.vstr es).csets) ∧
         TileKept { x with csets := (u.tile t).csets } (u.tile t)))

/-- The memory slots that read (02 R42, R43, R52, R101; Tables TILE-11, TILE-12): the words of one access of the stream land at
their destination after the latency of the half they lie in. -/
def Obligations.MemorySlotReads : Prop :=
  ∀ (s : State) (t i : Nat) (m : TileImg) (e : Entry) (x : Tile), i < 3 → Acts s t (3 + i) m e x →
    (let ptr := (x.stream (e.str i)).ptr
     let ws := x.readStream m (e.str i)
     let v := bmk (32 * ws.length) (wordsVal ws)
     let rows := (List.range 16).map (fun r => x.spad.read (ptr + r * strideStep (m.sd (e.str i))))
     (e.mop i = 1 → Sends (.rdA t i .ok) s t (3 + i) x (latWest ptr) (.opA v)) ∧
     (e.mop i = 2 → Sends (.rdB t i .ok) s t (3 + i) x (latWest ptr) (.opB v)) ∧
     (e.mop i = 3 → Sends (.rdSA t i .ok) s t (3 + i) x (latWest ptr) (.scaleA v)) ∧
     (e.mop i = 4 → Sends (.rdSB t i .ok) s t (3 + i) x (latWest ptr) (.scaleB v)) ∧
     (e.mop i = 5 → Sends (.rdSD t i .ok) s t (3 + i) x (latWest ptr) (.drainScale (BitVec.ofNat 32 v.val))) ∧
     (e.mop i = 6 → Sends (.rdOut t i .ok) s t (3 + i) x (latEast ptr)
       (.outq (e.mport i) ⟨BitVec.ofNat 512 (wordsVal ws), false⟩)) ∧
     (e.mop i = 8 → Sends (.rdT t i .ok) s t (3 + i) x 7
       (match e.tdst i with
        | 0 => .opA (bmk 512 (transposed (e.ew i) rows))
        | 1 => .opB (bmk 512 (transposed (e.ew i) rows))
        | 2 => .outq (e.mport i) ⟨BitVec.ofNat 512 (transposed (e.ew i) rows), false⟩
        | _ => .spad (e.str2 i) (valWords 16 (transposed (e.ew i) rows)))))

/-- The memory slots that write (02 R71; 06 R189, R193): the head's 16 words at the stream's pointer, nothing for a void token;
a WIN write outside every open window is a stray access that the tile does not perform. -/
def Obligations.MemorySlotWrites : Prop :=
  ∀ (s : State) (t i : Nat) (m : TileImg) (e : Entry) (x : Tile), i < 3 → Acts s t (3 + i) m e x →
    (let k := x.headD (e.mport i)
     let ptr := (x.stream (e.str i)).ptr
     let writes := fun (c : Instr) => ∃ u, Completes c s u ∧ OnlyTile t s u ∧ ShareDone (3 + i) (u.tile t) ∧
       (u.tile t).spad = (if k.void then x.spad else x.spad.writeN ptr (valWords 16 k.data.toNat)) ∧
       TileKept { x with streams := (u.tile t).streams, spad := (u.tile t).spad } (u.tile t)
     (e.mop i = 7 → writes (.wrIn t i)) ∧
     (e.mop i = 9 → (k.void = true ∨ x.inWin m ptr = true) → writes (.win t i)) ∧
     (e.mop i = 9 → k.void = false → x.inWin m ptr = false →
       ∃ u, Completes (.win t i) s u ∧ u = (s.putTile t x).tileFault t 6 []))

/-- A write to the scratchpad is read back, and every other word reads as before (02 R63, R66). -/
def Obligations.ScratchpadReadAfterWrite : Prop :=
  ∀ (p : Spad) (a : Nat) (ws : List W32), ws.length ≤ 131072 →
    (p.writeN a ws).readN a ws.length = ws ∧
      ∀ b, (∀ i, i < ws.length → (a + i) % 131072 ≠ b % 131072) → (p.writeN a ws).read b = p.read b

/-- ROUTE (02 R71) and the steering units (04 R126-R131, Table FLOW-6): each output takes the token at the head its field names;
BRANCH sends the token one way and a void token the other, MERGE forwards the token the bearing names, FILTER passes a token or
a void one; LOOP sends its data token at firing 0 and takes it from the data queue alone then, at firings 1 to T - 1 the returned token
while the bearings are 1, and gives the exit one token at firing T (R130). Each firing but a LOOP's first takes one bearing: from the bearing
queue, or where BSRC is 0 from PATTERN, whose place moves on and returns to bit 0 after bit PLEN (R128). -/
def Obligations.RoutesAndSteering : Prop :=
  (∀ (s : State) (t : Nat) (m : TileImg) (e : Entry) (x : Tile), Acts s t 6 m e x →
    ∃ u, Completes (.route t) s u ∧ OnlyTile t s u ∧ ShareDone 6 (u.tile t) ∧ TileKept x (u.tile t) ∧
      GivesTokens x (u.tile t) (dirs.flatMap (fun d =>
        match dirCode (e.osel d) with | some i => [(d, x.headD i)] | none => []))) ∧
  (∀ (s : State) (t n : Nat) (m : TileImg) (e : Entry) (x : Tile), n < 4 → Acts s t (7 + n) m e x →
    (let d := m.steerOf n
     let v := x.unitOf n
     let k := v.dataq.headD voidToken
     let b := if stBsrc d = 0 then stPattern d v.pat else (v.bearq.headD ⟨false, false⟩).val
     let bears := fun (w : Steer) =>
       w.bearq = (if stBsrc d = 0 then v.bearq else v.bearq.tail) ∧
       w.pat = (if stBsrc d ≠ 0 then v.pat else if v.pat = stPlen d then 0 else v.pat + 1)
     let does := fun (c : Instr) (ks : List (Dir × Token)) (takes : Bool) => ∃ u, Completes c s u ∧ OnlyTile t s u ∧
       ShareDone (7 + n) (u.tile t) ∧ GivesTokens x (u.tile t) ks ∧ TileKept { x with steer := (u.tile t).steer } (u.tile t) ∧
       (∀ j, j ≠ n → (u.tile t).unitOf j = x.unitOf j) ∧ ((u.tile t).unitOf n).dataq = v.dataq.tail ∧
       (takes = true → bears ((u.tile t).unitOf n)) ∧
       (takes = false → ((u.tile t).unitOf n).bearq = v.bearq ∧ ((u.tile t).unitOf n).pat = v.pat)
     (∀ o0 o1, stMode d = 1 → dirCode (stOut0 d) = some o0 → dirCode (stOut1 d) = some o1 →
       does (.branch t n) [(o0, if b then voidToken else k), (o1, if b then k else voidToken)] true) ∧
     (∀ o0 i, stMode d = 2 → dirCode (stOut0 d) = some o0 → dirCode (stIn1 d) = some i →
       does (.merge t n) [(o0, if b then x.headD i else k)] true) ∧
     (∀ o0, stMode d = 4 → dirCode (stOut0 d) = some o0 → does (.filter t n) [(o0, if b then k else voidToken)] true) ∧
     (∀ o0, stMode d = 3 → v.firing = 0 → dirCode (stOut0 d) = some o0 →
       does (.loop t n) [(o0, k)] false ∧
         ∀ u, Completes (.loop t n) s u → ((u.tile t).unitOf n).firing = 1 ∧ ((u.tile t).unitOf n).active = true ∧
           ((u.tile t).unitOf n).hold = v.hold) ∧
     (∀ i, stMode d = 3 → 0 < v.firing → dirCode (stIn1 d) = some i →
       (let r := x.headD i
        let loops := fun (ks : List (Dir × Token)) (firing : Nat) (active : Bool) (hold : Token) =>
          ∃ u, Completes (.loop t n) s u ∧ OnlyTile t s u ∧ ShareDone (7 + n) (u.tile t) ∧ GivesTokens x (u.tile t) ks ∧
            TileKept { x with steer := (u.tile t).steer } (u.tile t) ∧ (∀ j, j ≠ n → (u.tile t).unitOf j = x.unitOf j) ∧
            (∃ f, (u.tile t).firing = some f ∧ i ∈ f.pops) ∧
            (let w := (u.tile t).unitOf n
             w.firing = firing ∧ w.active = active ∧ w.hold = hold ∧ w.dataq = v.dataq ∧ bears w)
        (∀ o0, dirCode (stOut0 d) = some o0 → v.firing < stTrip d →
          (v.active = true → b = true → loops [(o0, r)] (v.firing + 1) true v.hold) ∧
          (v.active = true → b = false → loops [(o0, voidToken)] (v.firing + 1) false r) ∧
          (v.active = false → loops [(o0, voidToken)] (v.firing + 1) false v.hold)) ∧
        (∀ o1, dirCode (stOut1 d) = some o1 → stTrip d ≤ v.firing →
          loops [(o1, if v.active then r else v.hold)] 0 false v.hold)))))

/-- A steering unit takes tokens into its data queue and bearings into its bearing queue while they have room (04 R127, R128). -/
def Obligations.SteeringIntakes : Prop :=
  ∀ (s : State) (t n : Nat) (m : TileImg) (i : Dir) (k : Token) (rest : List Token),
    s.steering t = some m → stMode (m.steerOf n) ≠ 0 → (s.tile t).inQ i = k :: rest →
    (let d := m.steerOf n
     let v := (s.tile t).unitOf n
     let takes := fun (c : Instr) (w : Steer) => ∃ u, Completes c s u ∧ OnlyTile t s u ∧ (u.tile t).inQ i = rest ∧
       (u.tile t).unitOf n = w ∧ (∀ j, j ≠ n → (u.tile t).unitOf j = (s.tile t).unitOf j) ∧
       TileKept { s.tile t with inq := (u.tile t).inq, steer := (u.tile t).steer } (u.tile t)
     (dirCode (stDin d) = some i → v.dataq.length < 4 → takes (.steerDataIntake t n) { v with dataq := v.dataq ++ [k] }) ∧
     (dirCode (stBsrc d) = some i → v.bearq.length + stBpt d ≤ 16 →
       takes (.steerBearingIntake t n) { v with bearq := v.bearq ++ bearingsOf k (stBpt d) }))

/-- PASS_START, NULL and FIRING_COMPLETE (05 R153, 02 R35, R39, R40): a pass starts at entry 0 with loop counters and counts at
zero and every stream at its base; a null entry fires at once; a firing that completes counts in ST_FIRES, repeats its entry REP
more times and then goes on as SEQ says: to the next entry, back to TGT while the loop's trips are not done, to the waypoint hold, or to DONE
at the end. On the S8 the end of a check entry counts an occurrence and, with SEXTANT_ENABLE 1, compares every count with its expected value:
the first that differs is captured, counted and raised as the tile fault CONFORMANCE (05 R169, R171; cause 5). WAIT after PASS_START and
FIRING_COMPLETE, where Table FLOW-1 has FETCH, is the model's choice (log 37). -/
def Obligations.PassesAndFirings : Prop :=
  ∀ (s : State) (t : Nat) (m : TileImg), s.img t = some m → s.doorClosed .dataflow (s.physOf (tileRegion t)) = false →
    (∀ r, s.run = some r → ((s.tile t).st = .idle ∨ (s.tile t).st = .done) → (s.tile t).passes < r.steps → r.waiting = false →
      s.rcv.phase = .idle → s.wp.released = true →
      ∃ u, Completes (.passStart t) s u ∧ { u with tiles := s.tiles, regions := s.regions } = s ∧
        (∀ t', t' ≠ t → u.tile t' = s.tile t') ∧
        (let y := u.tile t
         y.st = .wait ∧ y.entry = 0 ∧ y.fired = 0 ∧ y.lc = [] ∧ y.sx = [] ∧ y.passes = (s.tile t).passes + 1 ∧
         (∀ i, i < 16 → y.stream i = ⟨sdBase (m.sd i), sdBase (m.sd i), 0, 0⟩) ∧
         y.spad = (s.tile t).spad ∧ y.plane0 = (s.tile t).plane0 ∧ y.plane1 = (s.tile t).plane1 ∧ y.vregs = (s.tile t).vregs ∧
         y.inq = (s.tile t).inq ∧ y.outq = (s.tile t).outq ∧ y.rng = (s.tile t).rng)) ∧
    ((s.tile t).st = .wait → ((s.tile t).cur m).isNull = true →
      ∃ u, Completes (.null t) s u ∧ OnlyTile t s u ∧ (u.tile t).st = .fire ∧ (u.tile t).firing = some {} ∧
        (u.tile t).entry = (s.tile t).entry) ∧
    (∀ f, (s.tile t).st = .fire → (s.tile t).firing = some f →
      (((s.tile t).cur m).isNull = true ∨ ∀ k, ((s.tile t).cur m).names k = true → k < 11 → k ∈ f.done) →
      (∀ k, k < 8 → (s.tile t).due m k = true → ((s.tile t).winOf k).served = true) →
      ∃ u, Completes (.firingComplete t) s u ∧
        (let e := (s.tile t).cur m
         (¬ (s.variant = 8 ∧ e.isChk = true) → ∀ t', t' ≠ t → u.tile t' = s.tile t') ∧
         ((s.tile t).fired < e.rep → (u.tile t).fired = (s.tile t).fired + 1 ∧ (u.tile t).entry = (s.tile t).entry ∧ (u.tile t).st = .wait ∧
           tget 0 (u.tile t).stall 15 = satAdd 32 (tget 0 (s.tile t).stall 15) 1) ∧
         (e.rep ≤ (s.tile t).fired → e.isChk = false → e.isWpt = false → e.seq = 0 →
           (u.tile t).fired = 0 ∧ (u.tile t).entry = (s.tile t).entry + 1) ∧
         (e.rep ≤ (s.tile t).fired → e.isChk = false → e.isWpt = false → e.seq = 1 →
           (u.tile t).fired = 0 ∧
           (tget 0 (s.tile t).lc e.loop + 1 < m.loops.getD e.loop 0 + 1 →
             (u.tile t).entry = e.tgt ∧ tget 0 (u.tile t).lc e.loop = tget 0 (s.tile t).lc e.loop + 1) ∧
           (m.loops.getD e.loop 0 + 1 ≤ tget 0 (s.tile t).lc e.loop + 1 →
             (u.tile t).entry = (s.tile t).entry + 1 ∧ tget 0 (u.tile t).lc e.loop = 0) ∧
           ∀ k, k ≠ e.loop → tget 0 (u.tile t).lc k = tget 0 (s.tile t).lc k) ∧
         (e.rep ≤ (s.tile t).fired → e.isChk = false → e.isWpt = false → e.seq = 3 → (u.tile t).st = .done) ∧
         (e.rep ≤ (s.tile t).fired → e.isChk = true → s.variant = 8 → ∀ k r, s.checkOf m (s.tile t).entry = some (k, r) →
           (let n := tget 0 (s.tile t).occ k
            let seen := fun (j : Nat) => tget 0 ((s.tile t).settle m).sx j
            let due := fun (j : Nat) => (r.first.getD j 0 + n * r.incr.getD j 0) % 2 ^ 32
            (s.obj 0x9020 1 = 0 ∨ (∀ j, j < 11 → seen j = due j) →
              tget 0 (u.tile t).occ k = n + 1 ∧ (u.tile t).fired = 0 ∧ u.rcv = s.rcv ∧ u.dict = s.dict ∧
                (e.isWpt = false → e.seq = 0 → (u.tile t).entry = (s.tile t).entry + 1)) ∧
            (∀ j, s.obj 0x9020 1 ≠ 0 → j < 11 → seen j ≠ due j → (∀ i, i < j → seen i = due i) →
              ∃ w : State, u = w.tileFault t 5 (sxBytes ⟨j, k, n, due j, seen j⟩) ∧ (w.tile t).sxcap = some ⟨j, k, n, due j, seen j⟩ ∧
                w.obj 0x9020 2 = satAdd 32 (s.obj 0x9020 2) 1 ∧ w.rcv = s.rcv ∧ ∀ t', t' ≠ t → w.tile t' = s.tile t'))) ∧
         (e.rep ≤ (s.tile t).fired → e.isChk = false → e.isWpt = true →
           (u.tile t).st = .hold ∧ (u.tile t).wpts = (s.tile t).wpts + 1)))

/-- MESH_TRANSFER (04 R119): the oldest token of an output queue moves to the facing input queue of the neighbour while that has a
free slot of its 16, and to the Transom of an empty region (13 R393). -/
def Obligations.MeshTransfers : Prop :=
  ∀ (s : State) (t n : Nat) (d : Dir) (k : Token) (rest : List Token),
    s.isPlaced (tileRegion t) = true → s.meshUp t = true → s.tapAt t d = none → (s.tile t).outQ d = k :: rest →
    neighbour s.variant t d = some n →
    (s.isPlaced (tileRegion n) = true → s.meshUp n = true → ((s.tile n).inQ (dirOpp d)).length < 16 →
      ∃ u, Completes (.meshTransfer t d false) s u ∧ { u with tiles := s.tiles } = s ∧
        (u.tile t).outQ d = rest ∧ (u.tile n).inQ (dirOpp d) = (s.tile n).inQ (dirOpp d) ++ [k] ∧
        ∀ t', t' ≠ t → t' ≠ n → u.tile t' = s.tile t') ∧
    (s.isPlaced (tileRegion n) = false → (s.crossing n d).length < 16 →
      ∃ u, Completes (.meshTransfer t d false) s u ∧ { u with tiles := s.tiles, transom := s.transom } = s ∧
        (u.tile t).outQ d = rest ∧ u.crossing n d = s.crossing n d ++ [k] ∧
        (∀ t', t' ≠ t → u.tile t' = s.tile t') ∧
        ∀ c d', 4 * c + dirIx d' ≠ 4 * n + dirIx d → u.crossing c d' = s.crossing c d')

/-- A corrected error changes nothing that the operation without it does not, but for the count of corrected errors of the tile's region,
which advances by one, saturating, where the unit performs its share (02 R51, R68). -/
def Obligations.CorrectedErrorsOnlyCount : Prop :=
  ∀ (s : State) (t k : Nat) (m : TileImg) (e : Entry) (x : Tile) (c : Ecc → Instr), Acts s t k m e x →
    ((k = 0 ∧ ((c = Instr.mac t ∧ e.aop = 1) ∨ (c = Instr.macz t ∧ e.aop = 2) ∨ (c = Instr.drainR t ∧ e.aop = 3) ∨
        (c = Instr.drainC t ∧ e.aop = 4))) ∨
      (k = 1 ∧ ((c = Instr.gemvMac t ∧ e.gop = 1) ∨ (c = Instr.gemvMacz t ∧ e.gop = 2) ∨ (c = Instr.ldx t ∧ e.gop = 4))) ∨
      (k = 2 ∧ c = Instr.ld t ∧ e.vop = 1) ∨
      (∃ i, i < 3 ∧ k = 3 + i ∧ ((c = Instr.rdA t i ∧ e.mop i = 1) ∨ (c = Instr.rdB t i ∧ e.mop i = 2) ∨ (c = Instr.rdSA t i ∧ e.mop i = 3) ∨
        (c = Instr.rdSB t i ∧ e.mop i = 4) ∨ (c = Instr.rdSD t i ∧ e.mop i = 5) ∨ (c = Instr.rdOut t i ∧ e.mop i = 6) ∨
        (c = Instr.rdT t i ∧ e.mop i = 8)))) →
    ∃ u u', Completes (c .ok) s u ∧ ShareDone k (u.tile t) ∧ Completes (c .corrected) s u' ∧ u'.tiles = u.tiles ∧
      { u' with regions := u.regions } = u ∧
      u'.region (tileRegion t) = { u.region (tileRegion t) with spadCorr := satAdd 32 (u.region (tileRegion t)).spadCorr 1 } ∧
      ∀ r, r ≠ tileRegion t → u'.region r = u.region r

/-! ## Power and thermal control (13, 16) -/

/-- Standby power (13 R399; 14 R407, R411; 12 R366; 16 R470): its application starts device time at 0 and boots the Helm, keeps every P
object and the flash ring, clears a pending activation where the Helm has its key, and records STANDBY_APPLIED before anything else
and the Helm's restart; its loss clears the register set and keeps what the management store
holds; a sag with main power on cuts main power. The pending flag cleared at VSB_APPLIED is the model's choice (log 21), and so are the
source queue and the DATA of STANDBY_APPLIED and of the restart (logs 26 and 35). -/
def Obligations.StandbyPower : Prop :=
  ∀ s : State,
    (∀ b, s.pw.vsb = false → ∃ u, Completes (.vsbApplied b) s u ∧ u.pw.vsb = true ∧ u.pw.helmUp = true ∧ u.pw.time = 0 ∧
      u.log.flash = s.log.flash ∧ u.log.next = s.log.resume ∧ u.rcv.stamps = [] ∧ u.rcv.map = s.rcv.map ∧
      u.dict.opkeys = s.dict.opkeys ∧ u.dict.opctrs = s.dict.opctrs ∧ (b = true → u.helm.pending = false) ∧
      u.helm.rollback = s.helm.rollback ∧ u.helm.pufOk = b ∧
      (VariantOk s → ∀ i j r, j < 256 → objRow s.variant i j = some r → r.p = true → u.obj i j = s.obj i j) ∧
      (VariantOk s → ∃ later, tget [] u.log.queues srcHelm = logRec 0 0x1A01 srcHelm [] :: later ∧
        logRec 0 0x1A02 srcHelm [0x51] ∈ later) ∧ (u.pw.state = .standby ∨ u.pw.state = .starting) ∧
      (u.pw.state = .starting → s.pw.permit = true ∧ u.helm.recovery = false)) ∧
    (s.pw.vsb = true → ∃ u, Completes .vsbLoss s u ∧ u.pw.vsb = false ∧ u.pw.helmUp = false ∧ u.log.first = [] ∧ u.log.tail = [] ∧
      u.log.flash = s.log.flash ∧ u.hi.queues = [] ∧ u.rcv.map = s.rcv.map ∧ u.dict.opkeys = s.dict.opkeys ∧
      u.helm.rollback = s.helm.rollback ∧ u.helm.active = s.helm.active ∧ (s.pw.inputOn = true → u.chart = none ∧ u.mem.cells = [])) ∧
    (s.pw.vsb = true → s.pw.inputOn = true →
      (∃ u, Completes (.vsbSag false) s u ∧ u.pw.vsb = false ∧ u.pw.latch = some .rail ∧ u.chart = none ∧ u.mem.cells = []) ∧
      (s.pw.helmUp = true → ∃ u, Completes (.vsbSag true) s u ∧ u.pw.state = .tripped ∧ u.pw.inputOn = false ∧ u.mem.cells = []))

/-- Power-up (13 R400, R401; 16 R469, R475, R476): PWR_PERMIT held for 1 ms starts it from STANDBY, a shorter level is ignored; the stages
follow in order; a stage that exceeds its bound fails and returns the module to STANDBY with the rails down, any other does not. The moves
from stage 6 to 8, and from 8 to ON with READY in one command, are the model's choice (log 22). -/
def Obligations.PowerUp : Prop :=
  ∀ s : State, s.helmRuns = true → s.helm.recovery = false →
    (∀ held, held < 1000000 → Completes (.pwrPermitAssert held) s s) ∧
    (∀ held, 1000000 ≤ held → s.pw.permit = false → s.pw.state = .standby → s.pw.failPend = false → s.pw.again = false →
      ∃ u, Completes (.pwrPermitAssert held) s u ∧ u.pw.state = .starting ∧ u.pw.stage = 1 ∧ u.pw.permit = true ∧
        { u with pw := s.pw } = s) ∧
    (s.pw.state = .starting →
      (s.pw.stage = 1 → s.vinOk = true → ∃ u, Completes (.powerupStageComplete none) s u ∧
        { u with pw := { u.pw with stage := 1, stageAt := s.pw.stageAt } } = s ∧ u.pw.stage = 2 ∧ u.pw.stageAt = s.now) ∧
      (s.pw.stage = 2 → ∃ u, Completes (.powerupStageComplete none) s u ∧ u.pw.stage = 3 ∧ u.pw.inputOn = true ∧
        (∀ k, 1 ≤ k → k ≤ 3 → u.obj 0x9070 k = 0)) ∧
      (s.pw.stage = 3 → ∃ u, Completes (.powerupStageComplete none) s u ∧ u.pw.stage = 4 ∧ u.pw.railsUp = true) ∧
      (s.pw.stage = 4 → ∃ u, Completes (.powerupStageComplete none) s u ∧ u.pw.stage = 5 ∧ u.pw.stacksUp = true) ∧
      (s.pw.stage = 5 → ∀ b, ∃ u, Completes (.powerupStageComplete b) s u ∧ u.pw.stage = 6 ∧ u.pw.vpwr = u.regionVdd) ∧
      (s.pw.stage = 6 → ∃ u, Completes (.powerupStageComplete none) s u ∧ u.pw.stage = 8) ∧
      (s.pw.stage = 8 → s.rcv.oosPend = none → gridLost s.variant s.rcv.effective = false →
        ∃ u, Completes (.powerupStageComplete none) s u ∧ u.pw.state = .on ∧ u.hi.ready = true ∧ u.hi.jnext = 1 ∧
          u.jmem.cells = [] ∧ u.obj 0x1101 1 = (s.obj 0x1101 1 + 1) % 2 ^ 32) ∧
      (∀ mapBad, s.stageOver mapBad = true →
        ∃ u, Completes (.powerupFailed mapBad) s u ∧ u.pw.state = .standby ∧ u.pw.failPend = true ∧ u.pw.inputOn = false ∧ u.chart = none) ∧
      (∀ mapBad, s.stageOver mapBad = false → Completes (.powerupFailed mapBad) s s))

/-- Power-down and power cycles (13 R401, R402, R404; 16 R469): PWR_PERMIT low for 1 ms lets READY fall and gives the RUN a stop point,
no command is lost; once none is left BIST may run and the rails fall; a Helm-driven cycle, which waits
until the DICT_SET that asked for it has completed (15 R451), resets every domain, holds the switch open for CYCLE_OFF_TIME and starts again. -/
def Obligations.PowerDown : Prop :=
  ∀ s : State, s.helmRuns = true → s.helm.recovery = false →
    (∀ held, held < 1000000 → Completes (.pwrPermitDeassert held) s s) ∧
    (∀ held, 1000000 ≤ held → s.pw.permit = true → s.pw.state = .on →
      ∃ u, Completes (.pwrPermitDeassert held) s u ∧ u.pw.state = .stopping ∧ u.pw.permit = false ∧
      u.pw.stopAt = s.now ∧ u.hi.ready = false ∧ u.hi.cmds.map Cmd.seq = s.hi.cmds.map Cmd.seq ∧ u.mem = s.mem ∧
      (∀ r, s.run = some r → ∃ r', u.run = some r' ∧ r'.stopAt = some 0 ∧ r'.seq = r.seq)) ∧
    (s.pw.state = .stopping → s.pw.stopStep = 2 → s.hi.cmds = [] → s.obj 0x2030 0 = 0 → ∀ b,
      ∃ u, Completes (.shutdownProgress b) s u ∧ u.pw.stopStep = 5 ∧ { u with pw := s.pw } = s) ∧
    (s.pw.state = .stopping → s.pw.stopStep = 5 → ∀ b,
      ∃ u, Completes (.shutdownProgress b) s u ∧ u.pw.state = .standby ∧ u.pw.inputOn = false ∧ u.pw.railsUp = false ∧
        u.chart = none ∧ u.mem.cells = []) ∧
    (s.pw.state = .stopping → s.pw.stopStep = 2 → s.hi.cmds ≠ [] → s.pw.stopAt + s.obj 0x2031 0 * 1000000 ≤ s.now →
      ∃ u, Completes .shutdownTimeout s u ∧ u.run = none ∧ (∀ c ∈ u.hi.cmds, c.ended = true) ∧ u.rcv.phase = .resetOnly) ∧
    (s.rcv.cycleDue = true → s.pw.state ≠ .tripped → s.pw.failPend = false → s.cycleWaits = false → ∃ u, Completes .powerCycle s u ∧ u.pw.state = .cycling ∧ u.pw.cycleAt = s.now ∧ u.hi.ready = false ∧
      u.pw.inputOn = false ∧ u.chart = none ∧ u.hi.cmds = [] ∧ u.rcv.cycleDue = false ∧
      (∀ d ∈ domAll s.variant .module 0, u.tag d.1 d.2 = (s.tag d.1 d.2 + 1) % 256)) ∧
    (s.cycleWaits = true → Completes .powerCycle s s) ∧
    (s.pw.state = .cycling → s.pw.permit = true → s.pw.cycleAt + s.obj 0x2032 0 * 1000000 ≤ s.now →
      ∃ u, Completes .cycleOffExpiry s u ∧ u.pw.state = .starting ∧ u.pw.stage = 1 ∧ { u with pw := s.pw } = s)

/-- Module trips (13 R397, R398): a reading past a threshold of Table PWR-4 opens the switch whatever the Helm does, every rail but VSB falls, the stacks lose their contents, no
command completes, the module reads TRIPPED, no tag moves, for a trip is a reset of no domain; readings within the thresholds change nothing. It restarts only after a qualifying edge of
PWR_PERMIT, while PWR_PERMIT stays asserted, with VIN in range and every sensor cool: TRIP_RESTART leaves the state as it is otherwise. The
edge qualifies after PWR_PERMIT has been deasserted for 1 s, a deassertion waits for the next and releases THERM_TRIP#. -/
def Obligations.ModuleTrips : Prop :=
  ∀ s : State,
    (∀ c seen, s.pw.vsb = true → s.pw.inputOn = true → tripSeen s.variant c seen = true → ∃ u, Completes (.moduleTrip c seen) s u ∧ u.pw.state = .tripped ∧ u.pw.inputOn = false ∧
      u.pw.railsUp = false ∧ u.pw.stacksUp = false ∧ u.mem.cells = [] ∧ u.jmem.cells = [] ∧ u.chart = none ∧ u.run = none ∧
      u.hi.cmds = [] ∧ u.hi.queues = s.hi.queues ∧ u.hostMem = s.hostMem ∧ u.obj 0x2040 6 = satAdd 32 (s.obj 0x2040 6) 1 ∧
      u.rcv.tags = s.rcv.tags ∧ (c = .thermal → u.pw.thermTrip = true)) ∧
    (∀ c seen, s.pw.vsb = false ∨ s.pw.inputOn = false ∨ tripSeen s.variant c seen = false → Completes (.moduleTrip c seen) s s) ∧
    (∀ held, 1000000 ≤ held → s.pw.state = .tripped →
      (s.pw.permit = false → ∃ u, Completes (.pwrPermitAssert held) s u ∧
        u.pw = { s.pw with permit := true, permitAt := s.now - held,
                           armed := if s.pw.permitAt + 1000000000 ≤ s.now - held then true else s.pw.armed } ∧ { u with pw := s.pw } = s) ∧
      (s.pw.permit = true → s.pw.vsb = true → ∃ u, Completes (.pwrPermitDeassert held) s u ∧
        u.pw = { s.pw with permit := false, permitAt := s.now - held, armed := false, thermTrip := false } ∧ { u with pw := s.pw } = s)) ∧
    (s.pw.state ≠ .tripped ∨ s.pw.armed = false ∨ s.pw.permit = false ∨ s.vinOk = false ∨ s.sensorsCool = false →
      Completes .tripRestart s s) ∧
    (s.helmRuns = true → s.helm.recovery = false → s.pw.state = .tripped → s.pw.armed = true → s.pw.permit = true → s.vinOk = true →
      s.sensorsCool = true → ∃ u, Completes .tripRestart s u ∧ u.pw.state = .starting ∧ u.pw.stage = 1 ∧ { u with pw := s.pw } = s)

/-- The control loops (13 R388): above POWER_LIMIT the power cap falls by 5 mV, not below 0.55 V, below 97 % it rises by
5 mV up to REGION_VDD; every open presented region is sent its set point. -/
def Obligations.PowerLoopMovesItsCap : Prop :=
  ∀ s : State, s.loopsRun = true →
    ∃ u, Completes .powerLoop s u ∧ { u with pw := s.pw } = s ∧ u.pw.time = s.pw.time ∧ u.pw.state = s.pw.state ∧
      (let p := ofF32 s.pw.power
       let limit := s.obj 0x2001 0
       let v := min s.pw.vpwr s.regionVdd
       u.pw.vpwr = (if ltV (.fin false limit 0) p then max (v - 5000) 550000
         else if ltV (mulV p (.fin false 100 0)) (.fin false (97 * limit) 0) then min (v + 5000) s.regionVdd else v) ∧
       ∀ r, r < 24 * s.variant → s.openPresented r = true →
         (u.rpw (s.physOf r)).vset = vStep (min s.regionVdd (min u.pw.vpwr (s.rpw (s.physOf r)).vth)))

/-- Sensors and the thermal loop (13 R387-R389, R396; 14 R408): a sample is reported as taken; the thermal loop lowers the cap of a hot
open presented region by 10 mV, not below 0.55 V, and raises a cool one's by 5 mV up to REGION_VDD; a cap held at 0.55 V for 100 ms
raises the alarm: its sticky bit is set and its count advances, and INT_CAUSE bit 19 and an event follow when the sticky bit was 0 alone. -/
def Obligations.SensorsAndThermalLoop : Prop :=
  ∀ s : State,
    (∀ v : Sensors, s.helmRuns = true → (v.regionT.map Prod.fst).Nodup →
      ∃ u, Completes (.sensorSample v) s u ∧ { u with pw := s.pw, hi := s.hi, dict := s.dict, log := s.log } = s ∧
        u.pw.vin = v.vin ∧ u.pw.power = v.power ∧ u.pw.current = v.current ∧ u.pw.standbyV = v.standby ∧ u.pw.helmT = v.helm ∧
        (∀ x ∈ v.regionT, (u.rpw x.1).temp = x.2) ∧
        (∀ pr, (∀ x ∈ v.regionT, x.1 ≠ pr) → u.rpw pr = s.rpw pr)) ∧
    (s.loopsRun = true → ∃ u, Completes .thermalLoop s u ∧ { u with pw := s.pw } = s ∧ u.pw.vpwr = s.pw.vpwr ∧
      ∀ r, r < 24 * s.variant → s.openPresented r = true →
        (let x := s.rpw (s.physOf r)
         let ts := s.dieStackMax (regionDie r)
         let v := min x.vth s.regionVdd
         let hot := tempAbove x.temp (s.obj 0x2010 2) 0 || tempAbove ts (s.obj 0x2010 3) 0
         let cool := tempBelow x.temp (s.obj 0x2010 2) 3 && tempBelow ts (s.obj 0x2010 3) 3
         let w := if hot then max (v - 10000) 550000 else if cool then min (v + 5000) s.regionVdd else v
         (u.rpw (s.physOf r)).vth = w ∧ (u.rpw (s.physOf r)).vset = vStep (min s.regionVdd (min s.pw.vpwr w)))) ∧
    (∀ t, s.loopsRun = true → s.pw.vpwrFloor = some t → t + 100000000 ≤ s.now →
      ∃ u, Completes (.capFloorAlarm .power) s u ∧ (u.obj 0x2040 1).testBit 2 = true ∧
        u.obj 0x2040 4 = satAdd 32 (s.obj 0x2040 4) 1 ∧ ((s.obj 0x2040 1).testBit 2 = false → u.hi.intCause.getLsbD 19 = true) ∧
        ((s.obj 0x2040 1).testBit 2 = true → u.hi = s.hi ∧ u.log = s.log) ∧ u.tiles = s.tiles ∧ u.mem = s.mem) ∧
    (∀ r t, s.loopsRun = true → (s.rpw (s.physOf r)).floorAt = some t → t + 100000000 ≤ s.now →
      ∃ u, Completes (.capFloorAlarm (.thermal r)) s u ∧ (u.obj 0x2040 1).testBit 0 = true ∧
        u.obj 0x2040 2 = satAdd 32 (s.obj 0x2040 2) 1 ∧ ((s.obj 0x2040 1).testBit 0 = false → u.hi.intCause.getLsbD 19 = true) ∧
        ((s.obj 0x2040 1).testBit 0 = true → u.hi = s.hi ∧ u.log = s.log) ∧ u.tiles = s.tiles ∧ u.mem = s.mem)

/-- A region's trip or regulator fault closes its shutter, reads 0 mV and raises REGION_TRIP; of a region that the chart neither places
nor lends from, that is all (13 R385, R395). A shutter that R391 does not keep closed opens at the lowest cap (R388, R392). -/
def Obligations.RegionTripsAndShutters : Prop :=
  ∀ (s : State) (pr : Nat), pr < 28 * s.variant →
    (∀ why : Bool, s.pw.railsUp = true → (s.rpw pr).shutter ≠ .regulator → (s.rpw pr).shutter ≠ .tripped →
      (why = false → 110 * 16 ≤ (s.rpw pr).temp) →
      (∀ r c, s.presentedOf pr = some r → s.chart = some c → c.placed.contains r = false ∧ c.lenders.contains r = false) →
      ∃ u, Completes (if why then .regulatorFault pr else .regionTrip pr) s u ∧
        (u.rpw pr).shutter = (if why then .regulator else .tripped) ∧ (u.rpw pr).vset = 0 ∧
        (u.obj 0x2040 1).testBit 3 = true ∧ u.obj 0x2040 5 = satAdd 32 (s.obj 0x2040 5) 1 ∧
        ((s.obj 0x2040 1).testBit 3 = false → u.hi.intCause.getLsbD 19 = true) ∧
        u.rcv.faults = s.rcv.faults ∧ u.run = s.run ∧ u.chart = s.chart ∧ ∀ q, q ≠ pr → u.rpw q = s.rpw q) ∧
    (s.loopsRun = true → s.shutterAllowed pr = false → (s.rpw pr).shutter = .empty →
      ∃ u, Completes (.shutterOpen pr) s u ∧ (u.rpw pr).shutter = .opened ∧ (u.rpw pr).vth = s.regionVdd ∧
        (u.rpw pr).vset = vStep (min s.regionVdd (min s.pw.vpwr s.regionVdd)) ∧ u.tiles = s.tiles ∧ u.chart = s.chart ∧
        ∀ q, q ≠ pr → u.rpw q = s.rpw q)

/-- The reference clock and the PCI Express link (10 R331, R337; 11 R339): when the reference is lost every port that was up or training goes
DOWN, its copies end, and a fault LINK_DOWN of that port is recorded; ports that were DOWN already stay, and the chart and the memories are
untouched; with the reference every port may train again at once; the link's rate and width are reported. -/
def Obligations.ClockAndPcieLink : Prop :=
  ∀ s : State,
    (s.pw.vsb = true → s.link.refclk = true → VariantOk s →
      ∃ u, Completes .refclkLost s u ∧ u.link.refclk = false ∧
        (∀ p, p < 2 * s.variant → (u.port p).st = .down ∧
          ((s.port p).st ≠ .down → (u.port p).retryAt = none ∧ (u.port p).copies = [] ∧
            ∃ f ∈ u.rcv.faults, f.cause = 0x43 ∧ f.unit = 7 ∧ f.index = p ∧ s.now ≤ f.time + 1000 ∧ f.time ≤ s.now + 1000)) ∧
        u.chart = s.chart ∧ u.mem = s.mem ∧ u.hostMem = s.hostMem ∧
        ((∀ p, p < 2 * s.variant → (s.port p).st = .down) → { u with link := { u.link with refclk := true }, log := s.log } = s)) ∧
    (s.pw.vsb = false ∨ s.link.refclk = false → Completes .refclkLost s s) ∧
    (s.pw.vsb = false ∨ s.link.refclk = true → Completes .refclkRestored s s) ∧
    (s.pw.vsb = true → s.link.refclk = false →
      ∃ u, Completes .refclkRestored s u ∧ u.link.refclk = true ∧
        (∀ p, p < 2 * s.variant → (u.port p).retryAt = none ∧ (u.port p).st = (s.port p).st) ∧
        { u with link := s.link, log := s.log } = s) ∧
    (∀ n w, s.helmRuns = true → 1 ≤ n → n ≤ 7 → (w = 1 ∨ w = 2 ∨ w = 4 ∨ w = 8) →
      ∃ u, Completes (.pcieLinkSettle n w) s u ∧ u.hi.pcieUp = true ∧ u.obj 0x1100 1 = n ∧ u.obj 0x1100 2 = w ∧
        { u with hi := s.hi, dict := s.dict, log := s.log } = s) ∧
    (∀ n w, s.helmRuns = false ∨ n = 0 ∨ 7 < n ∨ (w ≠ 1 ∧ w ≠ 2 ∧ w ≠ 4 ∧ w ≠ 8) → Completes (.pcieLinkSettle n w) s s)

/-! ## Faults and recovery (15) -/

/-- A fault that is raised is recorded under the next number with its cause (15 R435, R436); of class R in a RUN it starts a replay that
resumes at the waypoint register, and the RUN goes on (R439). -/
def Obligations.FaultsAreRecorded : Prop :=
  ∀ (s : State) (f : FaultIn),
    Records s (s.raiseFault f) f.cause ∧
    (s.oos = false → s.rcv.phase = .idle → s.running = true → s.effClass f = clsR →
      (s.raiseFault f).rcv.phase = .replaying ∧ (s.raiseFault f).rcv.resumeWpt = s.wp.reg ∧ (s.raiseFault f).run = s.run ∧
        ∀ d ∈ s.replayDomains, (s.raiseFault f).doorClosed d.1 d.2 = true)

/-- A class R fault of a tile or a region (15 R434): it is recorded with class D when the same presented region caused one at most 900 s ago, both ends
included; otherwise with class R, and then its region is remembered with the time. -/
def Obligations.RepeatedRegionFaults : Prop :=
  ∀ (s : State) (f : FaultIn) (r : Nat), f.cls = clsR → regionCause f.cause = true → f.region = some r →
    ((∃ x ∈ s.rcv.rStamps, x.1 = r ∧ x.2 ≤ s.now ∧ s.now ≤ x.2 + 900 * 1000000000) →
      ∃ k ∈ (s.raiseFault f).rcv.faults, k.number = satAdd 32 (s.obj 0x6010 0) 1 ∧ k.cause = f.cause ∧ k.cls = clsD) ∧
    ((∀ x ∈ s.rcv.rStamps, x.1 = r → x.2 ≤ s.now → x.2 + 900 * 1000000000 < s.now) →
      (∃ k ∈ (s.raiseFault f).rcv.faults, k.number = satAdd 32 (s.obj 0x6010 0) 1 ∧ k.cause = f.cause ∧ k.cls = clsR) ∧
        (r, s.now) ∈ (s.raiseFault f).rcv.rStamps)

/-- The step watchdog and resets (15 R430, R437, R449): the watchdog closes the region's doors, which abandons what its units had waiting at other doors (R431), and queries its controller, whose
answer becomes a fault record; a reset that completes advances the tags of its domain and clears it, its doors open without a
chart and after a die or module reset outside a replay; a reset beyond its bound is a fault of class E that resets the enclosing
domain. READY low from the issue of a module reset to its completion is the model's choice (log 27). -/
def Obligations.WatchdogAndResets : Prop :=
  ∀ s : State, (s.variant = 2 ∨ s.variant = 4 ∨ s.variant = 8) →
    (∀ (c : Chart) (run : Run) (r : Nat) (long : Bool), s.chart = some c → s.run = some run → run.waiting = false → r ∈ c.placed →
      s.rcv.phase = .idle → s.doorClosed .dataflow (s.physOf r) = false → s.watchdogSees c r long = true →
      ∃ u, Completes (.stepWatchdog r long) s u ∧
        { u with tiles := s.tiles, freeCount := s.freeCount, log := s.log, rcv := s.rcv, hi := { u.hi with held := s.hi.held } } = s ∧
        (s.doorClosed .tier (s.physOf r) = false → u.hi.held =
          s.hi.held.filter (fun h => decide (h.by' ≠ .unit .dataflow (s.physOf r) ∧ h.by' ≠ .unit .tier (s.physOf r)))) ∧
        u.doorClosed .dataflow (s.physOf r) = true ∧ u.doorClosed .tier (s.physOf r) = true ∧
        u.rcv.queries = s.rcv.queries ++ [(r, long)] ∧ u.rcv.faults = s.rcv.faults ∧
        ∀ t, s.physOf (tileRegion t) ≠ s.physOf r → u.tile t = s.tile t) ∧
    (∀ (r : Nat) (answered long : Bool), s.helmRuns = true → s.rcv.queries.find? (fun q => decide (q.1 = r)) = some (r, long) →
      ∃ u, Completes (.regionQueryResult r answered) s u ∧ u.rcv.queries = s.rcv.queries.filter (fun q => decide (q.1 ≠ r)) ∧
        ∃ f ∈ u.rcv.faults, f.number = satAdd 32 (s.obj 0x6010 0) 1 ∧ f.cause = 0x10 ∧ f.unit = 2 ∧
          (long = true ∨ answered = false → f.cls = clsD)) ∧
    (∀ (k : DomKind) (i : Nat) (p : PendReset), s.rcv.resets.find? (fun x => decide (x.kind = k ∧ x.ix = i)) = some p →
      i < domCount s.variant k → p.at' + 1000 ≤ s.now →
      ∃ u, Completes (.resetComplete k i) s u ∧
        u.rcv.resets = s.rcv.resets.filter (fun x => !(decide (x.kind = k ∧ x.ix = i))) ∧
        (∀ d ∈ domAll s.variant k i, u.tag d.1 d.2 = (s.tag d.1 d.2 + 1) % 256) ∧
        (s.chart = none ∨ ((k = .die ∨ k = .module) ∧ s.rcv.phase ≠ .replaying) →
          ∀ d ∈ domAll s.variant k i, u.doorClosed d.1 d.2 = false) ∧
        (k = .dataflow → s.rcv.phase = .replaying → ∀ r, s.presentedOf i = some r → ∀ t, tileRegion t = r →
          u.tile t = (s.tile t).cleared s.freeCount) ∧
        (k = .module → s.pw.state = .on → s.rcv.oosPend = none → u.hi.ready = true)) ∧
    (∀ (k : DomKind) (i : Nat) (p : PendReset), s.rcv.resets.find? (fun x => decide (x.kind = k ∧ x.ix = i)) = some p →
      s.helmRuns = true → p.at' + domBound k < s.now →
      ∃ u, Completes (.resetOverrun k i) s u ∧
        (∃ f ∈ u.rcv.faults, f.number = satAdd 32 (s.obj 0x6010 0) 1 ∧ f.cause = 0x50 ∧ f.cls = clsE ∧
          f.outcome = (if s.rcv.incident = 0 then 4 else 6)) ∧
        (k = .module → u.rcv.cycleDue = true) ∧
        (k = .die → u.rcv.resets = [⟨.module, 0, s.now⟩] ∧ u.hi.ready = false) ∧
        (k ≠ .module → k ≠ .die → ∃ x ∈ u.rcv.resets, x.kind = .die ∧ x.ix = domDie k i))

/-- A replay resumes the RUN from the waypoint register once every reset has completed: the doors open, the tiles are released from
it, REPLAYS advances; a read of the restore that meets an error its stack cannot correct raises STACK_UE (R433); a fault whose replay exceeds REPLAY_LIMIT brings a fault of class E and a module reset; a partner that stays away for LINK_WAIT ends the RUN (15
R439, R442, R444). The model's choices: REPLAY_LIMIT is judged at the fault, with OUTCOME 4 or 6 and two records (log 84); CLASS and
OUTCOME of the kept LINK_DOWN record are rewritten (log 55); READY is low during the module reset (log 27). -/
def Obligations.ReplaysResume : Prop :=
  ∀ s : State,
    (∀ (c : Chart) (r : Run), s.chart = some c → s.run = some r → s.rcv.phase = .replaying → s.rcv.resets = [] → s.rcv.linkHold = false →
      s.rcv.cycleDue = false → s.helmRuns = true →
      (∀ ue a, ueIn ue (s.resumeReach c) = some a → ∃ u, Completes (.replayResume ue) s u ∧ Records s u 0x31) ∧
      (s.rcv.resumeWpt = s.wp.reg → r.stopDue = false → ∀ ue, ueIn ue (s.resumeReach c) = none →
      ∃ u, Completes (.replayResume ue) s u ∧ u.rcv.phase = .idle ∧ u.rcv.closed = [] ∧ u.rcv.incident = 0 ∧ u.run = s.run ∧
        u.wp = { s.wp with released := true } ∧ (s.hi.held = [] → u.mem = s.mem) ∧ u.hostMem = s.hostMem ∧
        u.obj 0x6031 0 = satAdd 64 (s.obj 0x6031 0) 1 ∧
        (c.tileList.Nodup → ∀ m ∈ c.tiles, tileRegion (c.tileOf m) ∈ c.placed →
          (u.tile (c.tileOf m)).rng = rngLoad m.seed s.wp.count))) ∧
    (∀ f : FaultIn, s.oos = false → s.rcv.phase = .idle → s.running = true → s.effClass f = clsR → s.obj 0x6022 0 < s.replaysSoFar + 1 →
      (s.raiseFault f).run = s.run ∧ (s.raiseFault f).chart = s.chart ∧ (s.raiseFault f).hi.ready = false ∧
        (∃ x ∈ (s.raiseFault f).rcv.resets, x.kind = .module) ∧
        (∃ k ∈ (s.raiseFault f).rcv.faults, k.number = satAdd 32 (s.obj 0x6010 0) 1 ∧ k.cause = f.cause ∧ k.outcome = 4) ∧
        ∃ k ∈ (s.raiseFault f).rcv.faults,
          k.number = satAdd 32 (satAdd 32 (s.obj 0x6010 0) 1) 1 ∧ k.cause = 0x52 ∧ k.cls = clsE ∧ k.outcome = 6) ∧
    (s.rcv.phase = .replaying → s.rcv.linkHold = true → s.rcv.linkSince + 1000000 * s.rcv.linkLimit < s.now → s.helmRuns = true →
      ∃ u, Completes .linkWaitTimeout s u ∧ u.run = none ∧ u.rcv.phase = .resetOnly ∧ u.chart = s.chart ∧
        u.rcv.faults = s.rcv.faults.map (fun f => if f.number = s.linkDownRecord then { f with cls := clsS, outcome := 2 } else f) ∧
        ∀ r, s.run = some r → ∀ x ∈ u.hi.cmds, x.seq = r.seq → x.ended = true)

/-! ## Host interface (11) -/

/-- The queue registers (11 R344, R345, R348): a base is written while the queue is off, Q_CTRL resets a queue that it enables, a
doorbell sets its index; a base written while the queue is on and an index above 4,095 set ERR and INT_CAUSE bit 20. That a new error
replaces the code of an earlier one is the model's choice (log 87). -/
def Obligations.QueueRegisters : Prop :=
  ∀ (s : State) (q : Nat), s.barServed = true →
    (∀ v, (s.queue q).enable = false →
      (∃ u, Completes (.sqBaseWrite q false v) s u ∧ QueueIs s u q { s.queue q with sqBase := v &&& 0xFFFFFFFFFFFFF000#64 }) ∧
      (∃ u, Completes (.sqBaseWrite q true v) s u ∧ QueueIs s u q { s.queue q with cqBase := v &&& 0xFFFFFFFFFFFFF000#64 })) ∧
    (∀ b v, (s.queue q).enable = true →
      ∃ u, Completes (.sqBaseWrite q b v) s u ∧ u.queue q = { s.queue q with err := 3 } ∧ u.hi.intCause.getLsbD 20 = true ∧
        { u with hi := s.hi, log := s.log } = s) ∧
    (∀ v : W32,
      (v.getLsbD 0 = true → (s.queue q).enable = false →
        ∃ u, Completes (.qCtrlWrite q v) s u ∧ QueueIs s u q { sqBase := (s.queue q).sqBase, cqBase := (s.queue q).cqBase, irq := v.getLsbD 1, enable := true }) ∧
      (v.getLsbD 0 = true → (s.queue q).enable = true →
        ∃ u, Completes (.qCtrlWrite q v) s u ∧ QueueIs s u q { s.queue q with irq := v.getLsbD 1 }) ∧
      (v.getLsbD 0 = false →
        ∃ u, Completes (.qCtrlWrite q v) s u ∧ OnlyHost s u ∧ u.queue q = { s.queue q with irq := v.getLsbD 1, enable := false } ∧
          u.hi.cmds.length = s.hi.cmds.length ∧ ∀ c ∈ u.hi.cmds, c.queue = q → c.post = false) ∧
      (v.toNat ≤ 4095 →
        (∃ u, Completes (.sqTailDoorbell q v) s u ∧ QueueIs s u q { s.queue q with sqTail := v.toNat }) ∧
        (∃ u, Completes (.cqHeadDoorbell q v) s u ∧ QueueIs s u q { s.queue q with cqHead := v.toNat })) ∧
      (4095 < v.toNat → ∀ c, (c = Instr.sqTailDoorbell q v ∨ c = Instr.cqHeadDoorbell q v) →
        ∃ u, Completes c s u ∧ u.queue q = { s.queue q with err := 1 } ∧ u.hi.intCause.getLsbD 20 = true))

/-- The other BAR0 registers (11 R340-R342, Tables HOST-2, HOST-3): INT_CAUSE and WIN_STATUS are cleared by the bits written, WIN_BASE
takes a multiple of the window, INT_ENABLE and the MSI-X table are written byte by byte, RO and reserved offsets ignore writes; a function level
reset clears the host interface and leaves the rest of the module alone. The mask bits of the MSI-X table at 1 after a function level
reset are the model's choice (log 8). -/
def Obligations.HostRegisters : Prop :=
  ∀ s : State, s.barServed = true →
    (∀ v, ∃ u, Completes (.intCauseClear v) s u ∧ { u with hi := { u.hi with intCause := s.hi.intCause } } = s ∧
      ∀ i, i < 64 → u.hi.intCause.getLsbD i = (s.hi.intCause.getLsbD i && !v.getLsbD i)) ∧
    (∀ v, ∃ u, Completes (.winStatusClear v) s u ∧ { u with hi := { u.hi with winCode := s.hi.winCode } } = s ∧
      ∀ i, i < 8 → u.hi.winCode.testBit i = (s.hi.winCode.testBit i && !v.getLsbD i)) ∧
    (∀ v : W64, v.toNat % s.hi.bar2Size = 0 →
      ∃ u, Completes (.winBaseWrite v) s u ∧ u = { s with hi := { s.hi with winBase := v } }) ∧
    (∀ v : W64,
      (∃ u, Completes (.bar0RegisterWrite 0x18 v 8) s u ∧ u = { s with hi := { s.hi with intEnable := v } }) ∧
      (∃ u, Completes (.bar0RegisterWrite 0x1C v 4) s u ∧ { u with hi := { u.hi with intEnable := s.hi.intEnable } } = s ∧
        u.hi.intEnable = BitVec.setWidth 64 (s.hi.intEnable.setWidth 32) + (BitVec.setWidth 64 (v.setWidth 32) <<< 32)) ∧
      (∀ o, 0x10000 ≤ o → o + 8 ≤ 0x10400 → o % 8 = 0 →
        ∃ u, Completes (.bar0RegisterWrite o v 8) s u ∧ OnlyHost s u ∧ u.hi.cmds = s.hi.cmds ∧ u.hi.queues = s.hi.queues ∧
          (∀ j, j < 8 → u.msixByte (o - 0x10000 + j) = BitVec.ofNat 8 (v.toNat / 256 ^ j)) ∧
          ∀ i, i < o - 0x10000 ∨ o - 0x10000 + 8 ≤ i → u.msixByte i = s.msixByte i) ∧
      (∀ o n, o < 0x10 ∨ (0x30 ≤ o ∧ o < 0x1000) ∨ (0x1400 ≤ o ∧ o < 0x2000) ∨ (0x2080 ≤ o ∧ o < 0x10000) ∨ 0x10400 ≤ o →
        ∃ u, Completes (.bar0RegisterWrite o v n) s u ∧ u = s)) ∧
    (∃ u, Completes .functionLevelReset s u ∧ OnlyHost s u ∧ u.hi.intCause = 0 ∧ u.hi.intEnable = 0 ∧ u.hi.winBase = 0 ∧
      u.winStatus = 0 ∧ (∀ q, u.queue q = {}) ∧ (∀ v, u.msixByte (16 * v + 12) = 1) ∧ u.hi.jnext = s.hi.jnext ∧ u.hi.ready = s.hi.ready ∧
      u.hi.cmds = s.hi.cmds.map (fun c : Cmd => { c with post := false }))

/-- The device memory window (11 R342; 15 R431): a read returns the bytes of device memory, a write stores them; at a stack's closed door
both wait; a read that meets an error the stack cannot correct raises STACK_UE, its bytes are free (the model's choice, log 122); an access
outside device memory, a write to what is protected and an access while memory is offline are refused with their code and counted. -/
def Obligations.MemoryWindow : Prop :=
  ∀ (s : State) (o : Nat), s.barServed = true →
    (let a := s.hi.winBase.toNat + o
     (∀ n, o + n ≤ s.hi.bar2Size →
       (s.inDevice a n = true → s.memOffline = false → s.stackHeld 0 a n = true →
         ∀ ue, ∃ u, Completes (.bar2Read o n ue) s u ∧ u = { s with hi := { s.hi with held := s.hi.held ++ [⟨.host, a, n, none⟩] } }) ∧
       (s.inDevice a n = true → s.memOffline = false → s.stackHeld 0 a n = false →
         (∃ u, Completes (.bar2Read o n false) s u ∧ u = { s with hi := { s.hi with reply := some (s.devRead a n) } }) ∧
         ∃ u d, Completes (.bar2Read o n true) s u ∧ Records s u 0x31 ∧ u.hi.reply = some d ∧ d.length = n ∧ u.mem = s.mem ∧ u.chart = s.chart) ∧
       (s.inDevice a n = false ∨ s.memOffline = true → s.hi.winCode = 0 →
         ∀ ue, ∃ u, Completes (.bar2Read o n ue) s u ∧ u.hi.reply = none ∧ u.hi.winCode = (if s.inDevice a n then 0x11 else 3) ∧
           u.hi.winAddr = a / 256 ∧ u.obj 0x9070 2 = satAdd 64 (s.obj 0x9070 2) 1 ∧ u.hi.intCause.getLsbD 21 = true ∧
           { u with hi := s.hi, dict := s.dict, log := s.log } = s)) ∧
     (∀ d, o + d.length ≤ s.hi.bar2Size →
       (s.inDevice a d.length = true → s.writeRefused a d.length = false → s.memOffline = false → s.stackHeld 0 a d.length = true →
         ∃ u, Completes (.bar2Write o d) s u ∧ u = { s with hi := { s.hi with held := s.hi.held ++ [⟨.host, a, d.length, some d⟩] } }) ∧
       (s.inDevice a d.length = true → s.writeRefused a d.length = false → s.memOffline = false → s.stackHeld 0 a d.length = false →
         ∃ u, Completes (.bar2Write o d) s u ∧ { u with mem := s.mem, jmem := s.jmem } = s ∧ u.devRead a d.length = d ∧
           ∀ b, b < a ∨ a + d.length ≤ b → u.devByte b = s.devByte b) ∧
       (s.inDevice a d.length = false ∨ s.writeRefused a d.length = true ∨ s.memOffline = true → s.hi.winCode = 0 →
         ∃ u, Completes (.bar2Write o d) s u ∧ { u with hi := s.hi, dict := s.dict, log := s.log } = s ∧
           u.hi.winCode = (if s.inDevice a d.length = false then 3 else if s.writeRefused a d.length then 4 else 0x11) ∧
           u.obj 0x9070 2 = satAdd 64 (s.obj 0x9070 2) 1 ∧ u.hi.intCause.getLsbD 21 = true)))

/-- Acceptance, start and completion of commands (11 R345-R349, R359): a command takes the next SEQ and a journal entry ACCEPTED; it
starts when no earlier command of its queue is left; when it has ended its entry goes to the completion queue with the phase of the
queue, and its journal entry to DONE or FAILED; the completion waits while the journal's stack has its door closed (15 R431) and behind
the DICT_SET of the reset that ended it (15 R451); a read of the journal slot may meet STACK_UE (15 R433). -/
def Obligations.CommandLifecycle : Prop :=
  ∀ s : State,
    (∀ q, s.mayAccept q = true → s.slotHeld = false →
      (let e := s.hostMem.readN ((s.queue q).sqBase.toNat + 64 * (s.queue q).sqHead) 64
       (s.acceptFails e = none → fieldAt e 0 1 ≠ 0xA →
         ∃ u k, Completes (.commandAccept q false false) s u ∧ u.hi.cmds = s.hi.cmds ++ [k] ∧ k.seq = s.hi.jnext ∧ k.queue = q ∧ k.entry = e ∧
           k.jstate = 1 ∧ k.ended = false ∧ u.hi.jnext = s.hi.jnext + 1 ∧ (u.queue q).sqHead = ((s.queue q).sqHead + 1) % 4096 ∧
           u.slotState s.hi.jnext = 1 ∧ u.hostMem = s.hostMem ∧ u.mem = s.mem ∧ u.chart = s.chart ∧ u.run = s.run) ∧
       (∀ code d, s.acceptFails e = some (code, d) → (∀ c ∈ s.hi.cmds, c.seq < s.hi.jnext) →
         ∃ u, Completes (.commandAccept q false false) s u ∧ Ended u s.hi.jnext code d 0) ∧
       (∃ u, Completes (.commandAccept q true false) s u ∧ (u.queue q).err = 2 ∧ u.hi.intCause.getLsbD 20 = true ∧ u.hi.cmds = s.hi.cmds) ∧
       ∀ pe, ∃ u, Completes (.commandAccept q pe true) s u ∧ Records s u 0x31 ∧ u.hi.jnext = s.hi.jnext ∧ u.chart = s.chart)) ∧
    (∀ seq k, s.cmd seq = some k → s.helmRuns = true → k.jstate = 1 → k.ended = false →
      (∀ d ∈ s.hi.cmds, d.queue = k.queue → seq ≤ d.seq) →
      ∃ u x, Completes (.commandStart seq) s u ∧ u.cmd seq = some x ∧ x.jstate = 2 ∧ (s.journalHeld seq = false → u.slotState seq = 2) ∧
        x.ended = (isChartOp k.opcode && s.chartBusy seq) ∧ (x.ended = true → x.code = 5) ∧ u.mem = s.mem ∧ u.chart = s.chart) ∧
    (∀ seq k, s.cmd seq = some k → s.mayComplete k = false → ∀ err, Completes (.commandComplete seq err) s s) ∧
    (∀ seq k, s.cmd seq = some k → s.mayComplete k = true →
      (let x := s.queue k.queue
       let a := x.cqBase.toNat + 32 * x.cqTail
       ∃ u, Completes (.commandComplete seq false) s u ∧ u.cmd seq = none ∧ u.slotState seq = (if k.code = 0 then 4 else 5) ∧
         (k.post = true → x.enable = true →
           u.hostMem.readN a 32 = completionEntry k x.sqHead x.phase ∧ (∀ b, b < a ∨ a + 32 ≤ b → u.hostMem.read b = s.hostMem.read b) ∧
             (u.queue k.queue).cqTail = (x.cqTail + 1) % 4096 ∧ (u.queue k.queue).phase = (if x.cqTail = 4095 then !x.phase else x.phase)) ∧
         (k.post = false → u.hostMem = s.hostMem ∧ u.hi.queues = s.hi.queues)))

/-- CHART_LOAD, CHART_UNLOAD and BIND (11 R350, R351; 05 R148, R152): each ends with the code of the first requirement it fails and
changes nothing else; a chart that passes every check is loaded with its tiles IDLE and its waypoint registers empty, device memory as
it was but for VALID of its scale records, which is 0; an unload leaves no chart, every tile IDLE, every door open and the waypoint
register as it stood; a BIND of a range outside device memory ends with ADDRESS_RANGE, of one that overlaps what the chart declares with
the code of I08; else it gives its tensor the range, and SEED of its scale record the default 1.0. A load and a BIND wait at the door of a
stack that they have to reach (15 R431). That BIND writes SEED, where Table FMT-7 gives a default alone, is the model's choice (log 51), and so
is the end with FAULT where the reads of a load meet STACK_UE (15 R433; log 122). -/
def Obligations.ChartCommands : Prop :=
  ∀ (s : State) (seq : Nat) (k : Cmd),
    (s.started seq 1 = some k →
      (∀ c ue, s.chart = some c → ∃ u, Completes (.chartLoad seq ue) s u ∧ OnlyHost s u ∧ Ended u seq 7 0 c.id) ∧
      (s.chart = none →
        (let a := fieldAt k.entry 8 8
         let c := s.readChart a
         let image := [(a, s.imageReach a)]
         let held := s.stackHeld 0 a (s.imageReach a)
         let rest := c.loadReach.any (fun r => s.stackHeld 0 r.1 r.2)
         let ends := fun (ue : Option Nat) => ∃ u, Completes (.chartLoad seq ue) s u ∧ Records s u 0x31 ∧ u.mem = s.mem ∧
           ((∀ r, s.run = some r → r.seq ≠ seq) → Ended u seq 0x0D (satAdd 32 (s.obj 0x6010 0) 1) 0)
         ∀ ue, (held = true → Completes (.chartLoad seq ue) s s) ∧
           (∀ x, held = false → ueIn ue image = some x → ends ue) ∧
           (held = false → ueIn ue image = none →
             match s.chartChecks a with
             | some f => ∃ u, Completes (.chartLoad seq ue) s u ∧ OnlyHost s u ∧ Ended u seq 8 f.code (s.failResult a f)
             | none => if rest then Completes (.chartLoad seq ue) s s else if (ueIn ue c.loadReach).isSome then ends ue else
             ∃ u, Completes (.chartLoad seq ue) s u ∧ Ended u seq 0 0 c.id ∧
             u.chart = some { c with digest := sha256 (s.devRead a c.size) } ∧ u.wp = {} ∧ (s.redn.barrier.kept = [] → u.redn = {}) ∧ u.redn.barrier.kept = [] ∧
             u.transom = [] ∧ u.run = s.run ∧
             (∀ b, (∀ t ∈ c.tensors, t.scaled = true → b ≠ t.scale + 0xB) → u.devByte b = s.devByte b) ∧
             (∀ t ∈ c.tensors, t.scaled = true → u.devByte (t.scale + 0xB) = 0) ∧ u.hostMem = s.hostMem ∧ u.obj 0x9020 2 = 0 ∧
             u.measReg 2 = sha256 (s.measReg 2 ++ sha256 (s.devRead a c.size)) ∧
             (c.tileList.Nodup → ∀ m ∈ c.tiles, (u.tile (c.tileOf m)).st = .idle ∧ (u.tile (c.tileOf m)).rng = rngLoad m.seed 0))))) ∧
    (s.started seq 2 = some k →
      (s.chart = none → ∀ err, ∃ u, Completes (.chartUnload seq err) s u ∧ OnlyHost s u ∧ Ended u seq 6 0 0) ∧
      (∀ c r, s.chart = some c → s.run = some r → ∀ err, ∃ u, Completes (.chartUnload seq err) s u ∧ OnlyHost s u ∧ Ended u seq 5 0 0) ∧
      (∀ c err, s.chart = some c → s.run = none → s.rcv.phase = .idle → NoCopyOf s seq → (s.finishCommit c err).1 = true →
        ∃ u, Completes (.chartUnload seq err) s u ∧ Ended u seq 0 0 c.id ∧ u.chart = none ∧ u.wp = { reg := s.wp.reg } ∧ u.rcv.closed = [] ∧ u.streams = [] ∧
          ∀ t ∈ c.tileList, (u.tile t).st = .idle)) ∧
    (s.started seq 3 = some k →
      (s.chart = none → ∃ u, Completes (.bind seq) s u ∧ OnlyHost s u ∧ Ended u seq 6 0 0) ∧
      (∀ c r, s.chart = some c → s.run = some r → ∃ u, Completes (.bind seq) s u ∧ OnlyHost s u ∧ Ended u seq 5 0 0) ∧
      (let ix := fieldAt k.entry 0xA 2
       let a := fieldAt k.entry 0x10 8
       let n := fieldAt k.entry 0x18 8
       (∀ c o, s.chart = some c → s.run = none → c.bindBad (fieldAt k.entry 8 1) ix a n = some o →
         ∃ u, Completes (.bind seq) s u ∧ OnlyHost s u ∧ Ended u seq 1 o 0) ∧
       (∀ c, s.chart = some c → s.run = none → fieldAt k.entry 8 1 = 0 → c.bindBad 0 ix a n = none →
         (s.inDevice a n = false → ∃ u, Completes (.bind seq) s u ∧ OnlyHost s u ∧ Ended u seq 3 0 (max a s.devTop)) ∧
         (s.inDevice a n = true → c.bindFree ix a n = false →
           ∃ u, Completes (.bind seq) s u ∧ OnlyHost s u ∧ Ended u seq 8 (codeI 8) (2 ^ 64 - 1)) ∧
         (s.inDevice a n = true → c.bindFree ix a n = true → s.seedHeld c ix = true → Completes (.bind seq) s s)) ∧
       (∀ c, s.chart = some c → s.run = none → fieldAt k.entry 8 1 = 0 → c.bindBad 0 ix a n = none → s.inDevice a n = true →
         c.bindFree ix a n = true → s.seedHeld c ix = false →
         ∃ u c', Completes (.bind seq) s u ∧ Ended u seq 0 0 0 ∧ u.chart = some c' ∧ c'.tensorRange ix = some (a, n) ∧
           (∀ j, j ≠ ix → c'.tensorRange j = c.tensorRange j) ∧
           { u with chart := s.chart, hi := s.hi, mem := s.mem, jmem := s.jmem } = s ∧
           ∀ t, c.tensors[ix]? = some t →
             (t.scaled = true → u.devRead (t.scale + 4) 4 = leBytes 4 0x3F800000) ∧
             ∀ b, t.scaled = false ∨ b < t.scale + 4 ∨ t.scale + 8 ≤ b → u.devByte b = s.devByte b) ∧
       (∀ c, s.chart = some c → s.run = none → fieldAt k.entry 8 1 = 1 → c.bindBad 1 ix a n = none →
         ∃ u c', Completes (.bind seq) s u ∧ Ended u seq 0 0 0 ∧ u.chart = some c' ∧ tget 0 c'.hsegAt ix = a + 1 ∧
           (∀ j, j ≠ ix → tget 0 c'.hsegAt j = tget 0 c.hsegAt j) ∧ { u with chart := s.chart, hi := s.hi } = s)))

/-- RUN and ABORT (11 R352, R354; 15 R445, R446): a RUN that its requirements allow is in progress from the last completed waypoint with
every door open; with taps bound each tap sends its start record, and no tile is released before every partner's record matches: one that
differs ends the RUN with MAP_MISMATCH (08 R262). An ABORT with MODE 0 gives it a stop point at or before the one asked for, with MODE 1 it ends at once while the chart stays
loaded; what has not started ends with ABORTED, and the ABORT completes unless a commit is decided (07 R234). A RUN whose restore
meets STACK_UE ends with FAULT (15 R433). The model's choices: a start record that has matched is cleared (log 65); the FAULT end (log 122). -/
def Obligations.RunAndAbort : Prop :=
  ∀ (s : State) (seq : Nat) (k : Cmd),
    (s.started seq 4 = some k →
      (s.chart = none → ∀ ue, ∃ u, Completes (.run seq ue) s u ∧ OnlyHost s u ∧ Ended u seq 6 0 0) ∧
      (∀ c r ue, s.chart = some c → s.run = some r → r.seq ≠ seq → ∃ u, Completes (.run seq ue) s u ∧ OnlyHost s u ∧ Ended u seq 5 0 0) ∧
      (∀ c d ue, s.chart = some c → s.run = none → c.unbound = some d → ∃ u, Completes (.run seq ue) s u ∧ OnlyHost s u ∧ Ended u seq 9 d 0) ∧
      (∀ c ue a, s.chart = some c → s.run = none → c.unbound = none → s.rcv.phase = .idle → ueIn ue (s.closedReach c) = some a →
        ∃ u, Completes (.run seq ue) s u ∧ Records s u 0x31 ∧ u.run = none ∧ Ended u seq 0x0D (satAdd 32 (s.obj 0x6010 0) 1) 0) ∧
      (∀ c ue, s.chart = some c → s.run = none → c.unbound = none → s.rcv.phase = .idle → ueIn ue (s.closedReach c) = none → c.taps = [] →
        ∃ u, Completes (.run seq ue) s u ∧ u.run = some { seq := k.seq, steps := fieldAt k.entry 8 8, since := s.now, limit := s.obj 0x4301 0, stopAt := k.stopAt, stopBy := k.stopBy } ∧
          u.chart = s.chart ∧
          u.wp = { s.wp with released := true } ∧ u.rcv.closed = [] ∧ (s.hi.held = [] → u.mem = s.mem) ∧ u.hostMem = s.hostMem ∧
          ∀ r, r < 24 * s.variant → (u.region r).lines = [] ∧ (u.region r).fills = []) ∧
      (∀ c ue, s.chart = some c → s.run = none → c.unbound = none → s.rcv.phase = .idle → ueIn ue (s.closedReach c) = none → c.taps ≠ [] →
        (let n := fieldAt k.entry 8 8
         let begun : Run := { seq := k.seq, steps := n, since := s.now, limit := s.obj 0x4301 0, stopAt := k.stopAt, stopBy := k.stopBy }
         let record := fun (t : TapRec) => mkFlit 7 0 (leBytes 8 (match c.map with | some x => x.machine | none => 0) ++ leBytes 1 t.use ++
           leBytes 1 (tapVc t) ++ zeros 6 ++ leBytes 8 n)
         ∃ u, Completes (.run seq ue) s u ∧ u.chart = s.chart ∧ u.hostMem = s.hostMem ∧
           (∀ p, tget [] (u.port p).sendq 0 = tget [] (s.port p).sendq 0 ++ (c.taps.filter (fun t => decide (t.port = p))).map record) ∧
           ((∀ t ∈ c.taps, s.startMatches t n = none) → u.run = some { begun with waiting := true } ∧ u.wp = { s.wp with released := false }) ∧
           ((∀ t ∈ c.taps, s.startMatches t n = some true) → u.run = some begun ∧ u.wp = { s.wp with released := true } ∧
             ∀ t ∈ c.taps, ((u.port t.port).tap (tapVc t)).startRec = none) ∧
           ∀ t, c.taps.find? (fun t => decide (s.startMatches t n = some false)) = some t →
             u.run = none ∧ u.wp.released = false ∧ Ended u seq 0xA t.port 0))) ∧
    (s.started seq 0xA = some k → k.acted = false → (s.hi.cmds.map (·.seq)).Nodup →
      (∀ m err, m = fieldAt k.entry 9 1 → m ≤ 1 →
        ∃ u, Completes (if m = 0 then .abortAtWaypoint seq err else .abortImmediate seq err) s u ∧
          (s.commitPending = false → (∃ n, Ended u seq 0 0 n) ∧ u.mem = s.mem) ∧ u.chart = s.chart ∧
          (∀ c ∈ s.hi.cmds, k.names c = true → c.jstate = 1 → Ended u c.seq 0x0C (seq % 2 ^ 32) 0) ∧
          (∀ c r, c ∈ s.hi.cmds → k.names c = true → c.jstate ≠ 1 → c.opcode = 4 → s.run = some r → r.seq = c.seq →
            (m = 0 → ∃ r' n, u.run = some r' ∧ r'.stopAt = some n ∧ r'.seq = r.seq ∧
              n ≤ (if fieldAt k.entry 0x10 8 = 0 then s.nextWpt else fieldAt k.entry 0x10 8)) ∧
            (m = 1 → s.commitPending = false →
              u.run = none ∧ u.rcv.phase = .resetOnly ∧ ∃ d, Ended u c.seq 0x0C (seq % 2 ^ 32) d))))

/-- COPY, FENCE and JOURNAL_MARK (11 R346, R349, R353; 15 R431): a copy leaves at its destination the bytes of its source and touches
nothing else, and waits at a stack's closed door; one out of or into a range outside device memory or into a protected range changes no
memory; one to a partner sends its bytes as BULK flits and ends when they are acknowledged; one whose host read fails ends with HOST_ERROR at
the byte (0 for one to a partner, the model's choice, log 67); one that meets an uncorrectable error ends with FAULT after the bytes before it
(the model's choice, log 122). FENCE completes when every command before it has. -/
def Obligations.CopyAndFence : Prop :=
  ∀ (s : State) (seq : Nat) (k : Cmd),
    (s.started seq 5 = some k → s.copyHeld k = true → ∀ pe ue, Completes (.copy seq pe ue) s s) ∧
    (s.started seq 5 = some k → s.copyHeld k = false →
      (let src := fieldAt k.entry 8 8
       let dst := fieldAt k.entry 0x10 8
       let n := fieldAt k.entry 0x18 8
       let f := fieldAt k.entry 0x20 1 % 16
       let g := fieldAt k.entry 0x20 1 / 16
       (f = 0 → s.inDevice src n = false → ∃ u, Completes (.copy seq none none) s u ∧ OnlyHost s u ∧ Ended u seq 3 0 (max src s.devTop)) ∧
       (f = 0 ∨ f = 1 → (f = 0 → s.inDevice src n = true) → g = 0 →
         (s.inDevice dst n = true → s.firstRefused dst n = none →
           ∃ u, Completes (.copy seq none none) s u ∧ Ended u seq 0 0 n ∧
             u.devRead dst n = (if f = 0 then s.devRead src n else s.hostMem.readN src n) ∧
             (∀ b, b < dst ∨ dst + n ≤ b → u.devByte b = s.devByte b) ∧ { u with hi := s.hi, mem := s.mem, jmem := s.jmem } = s) ∧
         (∀ a, s.inDevice dst n = true → s.firstRefused dst n = some a →
           ∃ u, Completes (.copy seq none none) s u ∧ OnlyHost s u ∧ Ended u seq 4 0 a) ∧
         (s.inDevice dst n = false → ∃ u, Completes (.copy seq none none) s u ∧ OnlyHost s u ∧ Ended u seq 3 0 (max dst s.devTop))) ∧
       (f = 0 → s.inDevice src n = true → g = 1 →
         ∃ u, Completes (.copy seq none none) s u ∧ Ended u seq 0 0 n ∧ u.hostMem.readN dst n = s.devRead src n ∧
           (∀ b, b < dst ∨ dst + n ≤ b → u.hostMem.read b = s.hostMem.read b) ∧ { u with hi := s.hi, hostMem := s.hostMem } = s) ∧
       (f = 0 ∨ f = 1 → (f = 0 → s.inDevice src n = true) → g = 2 →
         (let p := fieldAt k.entry 0x21 1
          let fs := bulkFlits dst (if f = 0 then s.devRead src n else s.hostMem.readN src n)
          p < 2 * s.variant → (s.port p).copies.any (fun c => decide (c.1 = seq)) = false →
          ((s.port p).st = .active →
            ∃ u, Completes (.copy seq none none) s u ∧ { u with link := s.link } = s ∧
              (u.port p).copies = (s.port p).copies ++ [(seq, fs.length, 0)] ∧ tget [] (u.port p).sendq 7 = tget [] (s.port p).sendq 7 ++ fs ∧
              ∀ q, q ≠ p → u.port q = s.port q) ∧
          ((s.port p).st ≠ .active → ∃ u, Completes (.copy seq none none) s u ∧ OnlyHost s u ∧ Ended u seq 0x10 p 0) ∧
          (∀ i ue, i < n → f = 1 → (s.port p).st = .active →
            ∃ u, Completes (.copy seq (some i) ue) s u ∧ OnlyHost s u ∧ Ended u seq 0x0F 0 0))) ∧
       (∀ i ue, i < n → f = 1 → g = 0 → s.inDevice dst n = true → s.firstRefused dst n = none →
         ∃ u, Completes (.copy seq (some i) ue) s u ∧ Ended u seq 0x0F 0 i ∧ u.devRead dst i = s.hostMem.readN src i ∧
           ∀ b, b < dst ∨ dst + n ≤ b → u.devByte b = s.devByte b) ∧
       (∀ i, i < n → f = 0 → s.inDevice src n = true → g = 1 ∨ (g = 0 ∧ s.inDevice dst n = true ∧ s.firstRefused dst n = none) →
         (∀ r, s.run = some r → r.seq ≠ seq) →
         ∃ u, Completes (.copy seq none (some i)) s u ∧ Records s u 0x31 ∧ Ended u seq 0x0D (satAdd 32 (s.obj 0x6010 0) 1) i))) ∧
    (s.started seq 6 = some k →
      ((∀ c ∈ s.hi.cmds, seq ≤ c.seq) → ∃ u, Completes (.fence seq) s u ∧ OnlyHost s u ∧ Ended u seq 0 0 0) ∧
      ((∃ c ∈ s.hi.cmds, c.seq < seq) → ∃ u, Completes (.fence seq) s u ∧ u = s)) ∧
    (s.started seq 9 = some k → ∃ u, Completes (.journalMark seq) s u ∧ OnlyHost s u ∧ Ended u seq 0 0 0)

/-! ## Object dictionary (12) -/

/-- Reads (12 R365, R372, R375) and MCTP control messages (R374): DICT_GET ends with the value of a fixed-size object or its bytes at BUF, MCTP_GET
answers with the part of the value it names; an absent object is NO_OBJECT; nothing else of the module changes. A request that meets one
still being served waits behind it, one that has the source and TAG of a request not yet answered is discarded (R376). The bytes of the
control responses come from DSP0236, which the spec does not print (the model's choice, log 72); which request is a repetition, and that a
request is served as a whole, are the model's choice too (log 107). -/
def Obligations.DictionaryReads : Prop :=
  ∀ s : State,
    (∀ seq k, s.started seq 7 = some k →
      (objRow s.variant k.dictIndex k.dictSub = none → ∃ u, Completes (.dictGet seq false) s u ∧ OnlyHost s u ∧ Ended u seq 0x20 1 0) ∧
      (∀ r, objRow s.variant k.dictIndex k.dictSub = some r →
        (let v := s.rowBytes r
         (otFixed r.ty = true → ∃ u, Completes (.dictGet seq false) s u ∧ { u with hi := s.hi, freeCount := s.freeCount } = s ∧
           Ended u seq 0 (otSize r.ty) (leVal v)) ∧
         (otFixed r.ty = false → v.length ≤ k.dictLength →
           ∃ u, Completes (.dictGet seq false) s u ∧ { u with hi := s.hi, freeCount := s.freeCount, hostMem := s.hostMem } = s ∧
             Ended u seq 0 v.length 0 ∧ u.hostMem.readN k.dictBuf v.length = v ∧
             ∀ b, b < k.dictBuf ∨ k.dictBuf + v.length ≤ b → u.hostMem.read b = s.hostMem.read b) ∧
         (otFixed r.ty = false → k.dictLength < v.length →
           ∃ u, Completes (.dictGet seq false) s u ∧ { u with hi := s.hi, freeCount := s.freeCount } = s ∧ Ended u seq 1 v.length 0)))) ∧
    (∀ vdm src body st c, (c = Instr.mctpGet vdm src body ∧ st = .ok ∧ mOp body = 1) ∨ (c = Instr.mctpSet vdm src body st ∧ mOp body = 2) ∨
        (c = Instr.mctpSetSigned vdm src body st ∧ mOp body = 3) → s.mctpServes vdm body = true → ∀ x, s.dict.serving = some x →
      (mctpSame src body x = true → Completes c s s) ∧
      (mctpSame src body x = false → (∀ y ∈ s.dict.waiting, mctpSame src body (y.1, y.2.1) = false) →
        Completes c s { s with dict := { s.dict with waiting := s.dict.waiting ++ [(src, body, st)] } })) ∧
    (∀ vdm src body, s.mctpServes vdm body = true → s.dict.serving = none → mOp body = 1 → mctpBad body = false →
      ∃ u, Completes (.mctpGet vdm src body) s u ∧ { u with dict := s.dict, freeCount := s.freeCount } = s ∧ u.dict.objs = s.dict.objs ∧
        (∀ v, s.objRead (mIndex body) (mSub body) = some v → u.dict.status = 0 ∧
          u.dict.response = mctpReply body 0 v.length ((v.drop (mOffset body)).take (mLength body))) ∧
        (s.objRead (mIndex body) (mSub body) = none → u.dict.status = 1 ∧ u.dict.response = mctpReply body 1 0 [])) ∧
    (∀ vdm, s.controlServed vdm = true →
      (∀ eid, 8 ≤ eid → eid < 0xFF → ∃ u, Completes (.setEndpointId vdm eid) s u ∧ u.dict.eid = eid ∧ { u with dict := s.dict } = s ∧
        u.dict.response = [1, 0, 0, BitVec.ofNat 8 eid, 0]) ∧
      (∃ u, Completes (.getEndpointId vdm) s u ∧
        u = { s with dict := { s.dict with response := [2, 0, BitVec.ofNat 8 s.dict.eid, 0, 0], earlier := [] } }) ∧
      (∃ u, Completes (.getMctpVersionSupport vdm) s u ∧
        u = { s with dict := { s.dict with response := [4, 0, 1, 0xF1, 0xF3, 0xFF, 0], earlier := [] } }) ∧
      (∃ u, Completes (.getMessageTypeSupport vdm) s u ∧ u = { s with dict := { s.dict with response := [5, 0, 1, 0x7E], earlier := [] } }) ∧
      (∃ u, Completes (.getVendorDefinedMsgSupport vdm) s u ∧
        { u with dict := { u.dict with response := s.dict.response, earlier := s.dict.earlier } } = s ∧
        u.dict.response.take 4 = [6, 0, 0xFF, 0]))

/-- VARIANT and STEPPING (00 R2) are RO U8 objects that report the number of PX dies and 0xB1; on the S4 and the S2 the objects of the 0x9000 range are
present as on the S8, the Sextant's read as zero and a write changes nothing (R4). -/
def Obligations.VariantObjects : Prop :=
  ∀ s : State, VariantOk s →
    (∃ r, objRow s.variant 0x1000 1 = some r ∧ r.ty = .u8 ∧ r.acc = .ro ∧ s.objRead 0x1000 1 = some [BitVec.ofNat 8 s.variant]) ∧
    (∃ r, objRow s.variant 0x1000 2 = some r ∧ r.ty = .u8 ∧ r.acc = .ro ∧ s.objRead 0x1000 2 = some [0xB1]) ∧
    (∀ r ∈ objs9, objRow s.variant r.idx r.sub = some r) ∧
    (s.variant ≠ 8 → ∀ r ∈ objs9, r.idx = 0x9020 →
      s.objRead r.idx r.sub = some (zeros (otSize r.ty)) ∧
        (s.helmRuns = true → s.helm.recovery = false → ∀ b st, Refuses (.dictWrite r.idx r.sub b st) s 0))

/-- Ordinary writes (12 R365-R368, R371, R372, R375): on every path the lowest status that applies refuses the write, which then changes nothing; a write
of an object without a behaviour of its own stores the value and nothing else; a DICT_SET with a reserved bit set is MALFORMED at VALUE (00 R14); a P object whose store fails keeps its value. In
recovery mode an object that is not served takes no write (14 R419). -/
def Obligations.DictionaryWrites : Prop :=
  ∀ s : State,
    (∀ idx sub b st, s.objServed idx sub = false → Completes (.dictWrite idx sub b st) s s) ∧
    (∀ idx sub b, s.helmRuns = true → s.objServed idx sub = true →
      (∀ st, s.ordStatus idx sub b false ≠ 0 → Refuses (.dictWrite idx sub b st) s (s.ordStatus idx sub b false)) ∧
      (s.ordStatus idx sub b false = 0 → idx ∉ actingObjects → s.sextantAbsent idx = false →
        ∃ u, Completes (.dictWrite idx sub b .ok) s u ∧ u.dict.status = 0 ∧ ObjectIs s u idx sub (leVal b) ∧
          { u with dict := { u.dict with objs := s.dict.objs, status := s.dict.status } } = s) ∧
      (∀ r st, objRow s.variant idx sub = some r → r.p = true → s.ordStatus idx sub b false = 0 → s.sextantAbsent idx = false → st ≠ .ok →
        Refuses (.dictWrite idx sub b st) s 0xE)) ∧
    (∀ seq k r, s.started seq 8 = some k → k.flags % 2 = 0 → s.log.clearing = none →
      objRow s.variant k.dictIndex k.dictSub = some r → otFixed r.ty = true → k.dictLength = 0 → k.dictBuf = 0 → k.dictValue < 2 ^ (8 * otSize r.ty) →
      (let code := s.ordStatus r.idx r.sub (leBytes (otSize r.ty) k.dictValue) false
       (∀ st, k.dictValue &&& reservedBits (okey r.idx r.sub) ≠ 0 → ∃ u, Completes (.dictSet seq false st) s u ∧ OnlyHost s u ∧ Ended u seq 1 0x18 0) ∧
       (∀ st, k.dictValue &&& reservedBits (okey r.idx r.sub) = 0 → code ≠ 0 →
         ∃ u, Completes (.dictSet seq false st) s u ∧ OnlyHost s u ∧ Ended u seq 0x20 code 0) ∧
       (code = 0 → r.idx ∉ actingObjects → s.sextantAbsent r.idx = false →
         ∃ u, Completes (.dictSet seq false .ok) s u ∧ Ended u seq 0 0 0 ∧ ObjectIs s u r.idx r.sub k.dictValue ∧
           { u with hi := s.hi, dict := { u.dict with objs := s.dict.objs } } = s))) ∧
    (∀ vdm src body, s.mctpServes vdm body = true → s.dict.serving = none → mOp body = 2 → mctpBad body = false → s.log.clearing = none →
      (let code := s.ordStatus (mIndex body) (mSub body) (mData body) false
       (∀ st, code ≠ 0 → ∃ u, Completes (.mctpSet vdm src body st) s u ∧ { u with dict := s.dict } = s ∧ u.dict.objs = s.dict.objs ∧
         u.dict.response = mctpReply body code 0 []) ∧
       (code = 0 → mIndex body ∉ actingObjects → s.sextantAbsent (mIndex body) = false →
         ∃ u, Completes (.mctpSet vdm src body .ok) s u ∧ { u with dict := s.dict } = s ∧ u.dict.response = mctpReply body 0 0 [] ∧
           ObjectIs s u (mIndex body) (mSub body) (leVal (mData body))))) ∧
    (∀ idx sub b w, objRow s.variant idx sub = none → s.ordStatus idx sub b w = 1) ∧
    (∀ idx sub b w r, objRow s.variant idx sub = some r → s.sextantAbsent idx = false → r.acc = .ro → s.ordStatus idx sub b w = 2)

/-- Signed writes (12 R378-R380): one that fails a check is counted in SIGNED_WRITES_REFUSED and changes no key, no counter and no other
object; one that passes advances the counter of its slot and extends MEAS[3]; once taken, the same bytes are refused, short of the counter's
greatest value. -/
def Obligations.SignedWrites : Prop :=
  ∀ (s : State) (w : Writer) (b : List Byte),
    (∀ st r, s.layoutBad b = none → objRow s.variant (swIndex b) (swSub b) = some r → r.acc ≠ .ro → s.signedStatus r b ≠ 0 →
      (s.signedWrite w b st).1 = s.signedStatus r b ∧
        { (s.signedWrite w b st).2 with dict := s.dict, log := s.log } = s ∧
        { (s.signedWrite w b st).2.dict with objs := s.dict.objs } = s.dict ∧
        ObjectIs s (s.signedWrite w b st).2 0x8040 0 (satAdd 32 (s.obj 0x8040 0) 1)) ∧
    ((s.signedWrite w b .ok).1 = 0 → CounterAdvances s (s.signedWrite w b .ok).2 b ∧
      (swIndex b ≠ 0x8002 → s.helm.pending = false →
        (s.signedWrite w b .ok).2.measReg 3 = sha256 (s.measReg 3 ++ sha256 (b.take (swEnd b)))) ∧
      (swCounter b + 1 < 2 ^ 64 → ∀ w' st, ((s.signedWrite w b .ok).2.signedWrite w' b st).1 ≠ 0)) ∧
    (∀ vdm src body, s.mctpServes vdm body = true → s.dict.serving = none → mOp body = 3 → mctpBad body = false →
      ∃ u, Completes (.mctpSetSigned vdm src body .ok) s u ∧
        ((s.signedWrite {} (mData body) .ok).1 = 0 → CounterAdvances s u (mData body)) ∧
        ((s.signedWrite {} (mData body) .ok).1 ≠ 0 → u.dict.opctrs = s.dict.opctrs ∧ u.dict.opkeys = s.dict.opkeys ∧
          (∀ i j, okey i j ≠ okey 0x8040 0 → u.obj i j = s.obj i j) ∧
          u.dict.response = mctpReply body (s.signedWrite {} (mData body) .ok).1 0 []))

/-- Objects that act when they are written: the dumps store their records in device memory, wait at a stack's closed door (15 R431) and are
refused into a range in use; while main power is off the counters' dumps are stored until the regions have power (12 R377), the Logbook's
are refused with BUSY (the model's choice, log 71) (05 R173, 06 R211, 14 R416); the clears, RESTORE_DEFAULTS, PT_ALARM_CLEAR, SHUTTER_EMPTY, SEXTANT_ENABLE, the torus values and
LINK_RETRAIN do what their chapters say (05 R171, R172; 06 R210; 10 R313, R334; 12 Table DICT-8; 13 R392, R396); a reserved bit of
PT_ALARM_CLEAR is MALFORMED (00 R14), and a DICT_SET of a dump that has to wait completes when the dump is written (05 R173). LINK_RETRAIN of
some ports leaving the others alone (log 14) is the model's choice. -/
def Obligations.ActingObjects : Prop :=
  ∀ s : State, VariantOk s → s.helmRuns = true → s.helm.recovery = false →
    (∀ (addr : W64) (c : Instr) (idx : Nat), (c = .stallDump addr ∧ idx = 0x9010 ∨ c = .tierDump addr ∧ idx = 0x3010 ∨
        c = .logDump addr ∧ idx = 0x7010 ∨ c = .logFlashDump addr ∧ idx = 0x7013) →
      (s.pw.stacksUp = false → idx = 0x7010 ∨ idx = 0x7013 → Refuses c s 0xB) ∧
      (s.pw.stacksUp = true ∨ idx = 0x9010 ∨ idx = 0x3010 → s.dumpRefused addr.toNat (s.dumpBytes idx) = true → Refuses c s 0xC) ∧
      (s.pw.stacksUp = false → idx = 0x9010 ∨ idx = 0x3010 → s.dumpRefused addr.toNat (s.dumpBytes idx) = false →
        Completes c s { s with dict := { s.dict with dumps := s.dict.dumps ++ [(idx, addr.toNat)], status := 0 } }) ∧
      (s.pw.stacksUp = true → s.dumpRefused addr.toNat (s.dumpBytes idx) = false →
        s.stackHeld 0 addr.toNat (s.dumpData idx).length = true →
        Completes c s { s with dict := { s.dict with status := 0 },
                               hi := { s.hi with held := s.hi.held ++ [⟨.helm, addr.toNat, (s.dumpData idx).length, some (s.dumpData idx)⟩] } }) ∧
      (s.pw.stacksUp = true → s.dumpRefused addr.toNat (s.dumpBytes idx) = false →
        s.stackHeld 0 addr.toNat (s.dumpData idx).length = false →
        ∃ u, Completes c s u ∧ { u with mem := s.mem, jmem := s.jmem, dict := s.dict } = s ∧ u.dict.status = 0 ∧
          u.devRead addr.toNat (s.dumpData idx).length = s.dumpData idx ∧
          ∀ b, b < addr.toNat ∨ addr.toNat + (s.dumpData idx).length ≤ b → u.devByte b = s.devByte b)) ∧
    (∃ u, Completes (.stallClear 1) s u ∧ { u with tiles := s.tiles, dict := s.dict } = s ∧
      ∀ t, t < 768 * s.variant → u.tile t = { s.tile t with stall := [] }) ∧
    (∃ u, Completes (.tierClear 1) s u ∧ { u with regions := s.regions, dict := s.dict } = s ∧
      ∀ r, r < 24 * s.variant → u.region r = { s.region r with tw := [] }) ∧
    (s.chart = none → ∃ u, Completes (.restoreDefaults 1) s u ∧ { u with dict := s.dict, log := s.log } = s ∧
      ∀ i j r, j < 256 → objRow s.variant i j = some r → u.obj i j = (if r.acc = .rw ∧ r.p = true then r.dflt else s.obj i j)) ∧
    (s.chart.isSome = true → Refuses (.restoreDefaults 1) s 0xB) ∧
    (∀ v, v ≤ 15 → ∃ u, Completes (.ptAlarmClear v) s u ∧ { u with dict := s.dict } = s ∧
      (∀ i, i < 8 → (u.obj 0x2040 1).testBit i = ((s.obj 0x2040 1).testBit i && !v.testBit i)) ∧
      ∀ i j, okey i j ≠ okey 0x2040 1 → u.obj i j = s.obj i j) ∧
    (∀ v, 15 < v → v < 256 → Refuses (.ptAlarmClear v) s 4) ∧
    (∀ v, v ≤ 1 → (∃ u, Completes (.shutterEmpty v .ok) s u ∧ u.obj 0x2020 0 = v ∧ u.dict.status = 0 ∧
        (v = 1 → { u with dict := s.dict } = s) ∧
        (v = 0 → s.pw.railsUp = true → s.oos = false → ∀ pr, pr < 28 * s.variant → (s.presentedOf pr).isSome = true →
          (s.rpw pr).shutter = .empty → (u.rpw pr).shutter = .opened)) ∧
      Refuses (.shutterEmpty v .value) s 0xE) ∧
    (∀ v, v ≤ 1 → s.variant = 8 → ∃ u, Completes (.sextantEnable v .ok) s u ∧ ObjectIs s u 0x9020 1 v ∧ { u with dict := s.dict } = s) ∧
    (∀ v st, s.variant ≠ 8 → Refuses (.sextantEnable v st) s 0) ∧
    (∀ (pos : Bool) (a v : Nat), a < 4 → v ≤ (if pos then 31 else 32) → (pos = false → 1 ≤ v) →
      (s.chart = none → ∃ u, Completes (.torusLen pos a v .ok) s u ∧ ObjectIs s u (if pos then 0x5002 else 0x5001) (a + 1) v ∧
        { u with dict := s.dict } = s) ∧
      (s.chart.isSome = true → Refuses (.torusLen pos a v .ok) s 0xB)) ∧
    (∀ v, v < 65536 →
      (s.running = true → Refuses (.linkRetrain v) s 0xB) ∧
      (s.running = false → s.pw.railsUp = false → Completes (.linkRetrain v) s
        { s with dict := { s.dict with status := 0 }, link := { s.link with retrain := some (s.link.retrain.getD 0 ||| v) } }) ∧
      (s.running = false → s.pw.railsUp = true → torusOk s.variant s.storedLen s.storedPos = true → s.storedLen = s.link.len →
        s.storedPos = s.link.pos →
        ∃ u, Completes (.linkRetrain v) s u ∧ u.chart = s.chart ∧ u.tiles = s.tiles ∧ u.mem = s.mem ∧ u.link.len = s.link.len ∧
          ∀ p, p < 2 * s.variant →
            (v.testBit p = true → (u.port p).st = .down ∧ (u.port p).retryAt = none ∧ (u.port p).copies = []) ∧
            (v.testBit p = false → u.port p = s.port p))) ∧
    (∀ seq k r, s.started seq 8 = some k → k.flags % 2 = 0 → s.log.clearing = none → objRow s.variant k.dictIndex k.dictSub = some r →
      otFixed r.ty = true → k.dictLength = 0 → k.dictBuf = 0 → s.ordStatus r.idx r.sub (leBytes (otSize r.ty) k.dictValue) false = 0 →
      k.dictValue < 2 ^ (8 * otSize r.ty) → s.dumpWaits seq r.idx k.dictValue = true → ∀ pe st, Completes (.dictSet seq pe st) s s)

/-- The first operator key is installed without a signature while every slot is empty, later ones are not (12 R378); a signed write of
RETURN_TO_SERVICE, REPAIR_OVERRIDE, LOG_CLEAR or FW_UPDATE that passes its checks advances its counter and acts (14 R417, R421, R422; 15 R454, R460).
That a LOG_CLEAR over MCTP is answered at FLASH_RING_ERASED, and the requests behind it wait until then, is the model's choice (logs 72
and 107). -/
def Obligations.KeysAndSignedCommands : Prop :=
  ∀ s : State, VariantOk s → s.helmRuns = true →
    (∀ v, v.length = 32 → s.anyKey = false →
      ∃ u, Completes (.opkey 0 v .ok) s u ∧ u.opkey 0 = v ∧ u.dict.status = 0 ∧ u.dict.opctrs = s.dict.opctrs ∧
        { u with dict := s.dict, log := s.log, helm := s.helm } = s) ∧
    (∀ i v st, i < 4 → v.length = 32 → s.anyKey = true → Refuses (.opkey i v st) s 5) ∧
    (∀ b, TakesSigned s 0x6001 b → swValue b = [1] → s.oos = true →
      ∃ u, Completes (.returnToService b .ok) s u ∧ u.dict.status = 0 ∧ CounterAdvances s u b ∧ u.oos = false ∧ u.obj 0x6002 0 = 0 ∧
        u.rcv.stamps = [] ∧ u.chart = s.chart) ∧
    (∀ b, TakesSigned s 0x6101 b →
      (∃ u, Completes (.repairOverride b .ok) s u ∧ u.dict.status = 0 ∧ CounterAdvances s u b ∧
        u.dict.overrides = overridesOf (swValue b) ∧ u.dict.ovPending = true ∧ u.rcv = s.rcv) ∧
      (∃ u, Completes (.repairOverride b .value) s u ∧ u.dict.status = 0xE ∧ CounterAdvances s u b ∧ u.dict.overrides = s.dict.overrides) ∧
      (∃ u, Completes (.repairOverride b .counter) s u ∧ u.dict.status = 0xE ∧ u.dict.opctrs = s.dict.opctrs ∧
        u.dict.overrides = s.dict.overrides)) ∧
    (∀ b, TakesSigned s 0x7020 b → swValue b = [1] →
      ∃ u r, Completes (.logClear b .ok) s u ∧ u.dict.status = 0 ∧ CounterAdvances s u b ∧ u.log.clearing = some (s.log.next, 0) ∧
        u.log.first = [(s.log.next, r)] ∧ r.code = 0x7A01 ∧ u.log.tail = [] ∧ u.log.next = s.log.next + 1 ∧
        u.log.flash = (s.log.flash ++ [(s.log.next, r)]).drop (s.log.flash.length + 1 - 1048576)) ∧
    (∀ c q, s.log.clearing = some (c, q) →
      ∃ u, Completes .flashRingErased s u ∧
        (s.dict.serving = none ∨ s.dict.waiting = [] →
          u.log.clearing = none ∧ u.log.flash = s.log.flash.filter (fun r => decide (c ≤ r.1)) ∧ u.log.first = s.log.first ∧
          ∀ k, s.cmd q = some k → k.ended = false → Ended u q 0 0 0) ∧
        (∀ b, s.dict.serving = some b → s.dict.waiting = [] → u.dict.serving = none ∧ u.dict.response = mctpReply b.2 0 0 []) ∧
        (∀ b, s.dict.serving = some b → ∃ v, v.dict.response = mctpReply b.2 0 0 [] ∧ v.dict.serving = none ∧ v.dict.waiting = [] ∧
          v.log.clearing = none ∧ u = mctpDrain s.dict.waiting v)) ∧
    (∀ b, TakesSigned s 0x8002 b → s.helm.selfTest = false →
      ∃ u, Completes (.fwUpdate b .ok) s u ∧ u.dict.status = 0 ∧ CounterAdvances s u b ∧ u.helm.pending = true ∧ u.helm.selfTest = true ∧
        u.helm.running = 1 - s.helm.active ∧ u.helm.active = s.helm.active ∧ u.helm.rollback = s.helm.rollback ∧
        u.helm.bankA = s.helm.bankA ∧ u.helm.bankB = s.helm.bankB ∧ u.dict.update = swValue b)

/-- BIST and the reset requests (15 R451, R459-R462): BIST_START is refused with a chart or while BIST runs and otherwise opens the shutters
of what it tests (13 R392) and starts a run whose end replaces the BIST entries of the repair map, empties the scratchpads and leaves the
counters of 05 R172 and 06 R210 as they stand;
RESET_REQUEST 1 resets every engine domain and ends the RUN, one with a commit decided at the end of its training step (11 R354, 07 R234), 2
resets the module and ends every command, 3 has the Helm cycle main power. The model's choices: RESET_REQUEST 3 with main power off does
nothing (log 34); RESET_REQUEST 1 with a commit decided replays and stops at the step end (log 103); READY is low from the issue of a
module reset (log 27); BIST is taken without main power (log 71). -/
def Obligations.BistAndResetRequests : Prop :=
  ∀ s : State, VariantOk s → s.helmRuns = true → s.helm.recovery = false →
    (s.chart.isSome = true ∨ s.obj 0x6300 1 = 1 → Refuses (.bistStart 1) s 0xB) ∧
    (s.chart = none → s.obj 0x6300 1 ≠ 1 →
      ∃ u, Completes (.bistStart 1) s u ∧ ObjectIs s u 0x6300 1 1 ∧ { u with dict := s.dict, log := s.log, pw := s.pw, rcv := s.rcv } = s ∧
        u.rcv = { s.rcv with traceq := u.rcv.traceq, shed := u.rcv.shed } ∧
        (s.pw.railsUp = false → u.pw = s.pw) ∧
        (s.pw.railsUp = true → ∀ pr, pr < 28 * s.variant → (s.rpw pr).shutter = .empty → (u.rpw pr).shutter = .opened)) ∧
    (∀ es, s.obj 0x6300 1 = 1 →
      ∃ u, Completes (.bistDone es) s u ∧
        u.rcv.map = s.rcv.map.filter (fun e => decide (e.origin ≠ 1)) ++ bistEntries s.narrowAllow es ∧
        u.rcv.bistRuns = s.rcv.bistRuns + 1 ∧ (u.obj 0x6300 1 = 2 ∨ u.obj 0x6300 1 = 3) ∧ u.rcv.effective = s.rcv.effective ∧
        (∀ t, t < 768 * s.variant → (u.tile t).spad.cells = [] ∧ (u.tile t).st = .idle ∧ (u.tile t).stall = (s.tile t).stall) ∧
        ∀ r, r < 24 * s.variant → (u.region r).tw = (s.region r).tw) ∧
    (s.running = false ∨ s.commitPending = false →
      ∃ u, Completes .engineResetRequest s u ∧ u.dict.status = 0 ∧ u.run = none ∧ u.rcv.phase = .resetOnly ∧ u.chart = s.chart ∧
        (∀ d ∈ s.engineDomains, u.doorClosed d.1 d.2 = true ∧ ∃ x ∈ u.rcv.resets, x.kind = d.1 ∧ x.ix = d.2) ∧
        ∀ r, s.run = some r → ∀ c ∈ u.hi.cmds, c.seq = r.seq → c.ended = true) ∧
    (∀ c r, s.chart = some c → s.run = some r → s.commitPending = true →
      ∃ u r' n, Completes .engineResetRequest s u ∧ u.dict.status = 0 ∧ u.run = some r' ∧ r'.seq = r.seq ∧ r'.stopAt = some n ∧
        n ≤ c.stepEndOf s.wp.count ∧ u.rcv.phase = .replaying ∧ u.chart = s.chart ∧
        ∀ d ∈ s.engineDomains, u.doorClosed d.1 d.2 = true ∧ ∃ x ∈ u.rcv.resets, x.kind = d.1 ∧ x.ix = d.2) ∧
    (∃ u, Completes .moduleResetRequest s u ∧ u.dict.status = 0 ∧ u.run = none ∧ u.hi.ready = false ∧ u.chart = s.chart ∧
      (∃ x ∈ u.rcv.resets, x.kind = .module) ∧ ∀ c ∈ u.hi.cmds, c.seq ≠ 0 → c.ended = true) ∧
    (s.pw.inputOn = true → ∃ u, Completes .powerCycleRequest s u ∧ u.dict.status = 0 ∧ u.rcv.cycleDue = true ∧ u.chart = s.chart ∧ u.mem = s.mem) ∧
    (s.pw.inputOn = false → Refuses .powerCycleRequest s 0)

/-- Firmware, attestation and Helm restarts (14 R407, R419-R422, R425, R426): staging erases and fills the inactive bank alone; a self-test
that completes in time makes the bank the active one and raises ROLLBACK_COUNTER, one that does not boots the former bank; a nonce captures the
report, which is then signed; a restart boots the active bank and touches nothing but the Helm, unless PWR_PERMIT has waited for it in
STANDBY (13 R400); with no bank that passes its checks it ends in recovery mode, without main power. The flag and the counter are
written with the key that the PUF gives (R409, R423). The model's choices: staging is BUSY while an update is pending (log 73); a restart
into recovery mode leaves main power off and the module in STANDBY (log 109); source and DATA of HELM_RESTART (logs 26 and 35). -/
def Obligations.FirmwareAndAttestation : Prop :=
  ∀ s : State, VariantOk s → s.helmRuns = true → s.helm.active ≤ 1 →
    (s.helm.pending = true → Refuses (.fwStageOffset 0) s 0xB) ∧
    (s.helm.pending = false →
      (∃ u, Completes (.fwStageOffset 0) s u ∧ u.dict.status = 0 ∧ (u.bank (1 - s.helm.active)).cells = [] ∧
        u.bank s.helm.active = s.bank s.helm.active ∧ u.obj 0x8003 1 = 0 ∧ u.helm.factory ≠ some (1 - s.helm.active) ∧
        { u with helm := s.helm, dict := s.dict, freeCount := s.freeCount } = s) ∧
      (∀ d, 0 < d.length → d.length ≤ 4096 → s.obj 0x8003 1 + d.length ≤ 0x4000000 →
        ∃ u, Completes (.fwStageData d) s u ∧ u.dict.status = 0 ∧
          (u.bank (1 - s.helm.active)).readN (s.obj 0x8003 1) d.length = d ∧ u.bank s.helm.active = s.bank s.helm.active ∧
          u.obj 0x8003 1 = s.obj 0x8003 1 + d.length ∧ { u with helm := s.helm, dict := s.dict } = s)) ∧
    (s.helm.selfTest = true → s.now ≤ s.helm.bootAt + selfTestTime →
      ∃ u, Completes .fwSelfTestComplete s u ∧ u.helm.active = s.helm.running ∧ u.helm.selfTest = false ∧
        (s.helm.pufOk = true → u.helm.pending = false ∧ u.helm.rollback = max s.helm.rollback (s.fwRollback s.helm.running)) ∧
        (s.helm.pufOk = false → u.helm.pending = s.helm.pending ∧ u.helm.rollback = s.helm.rollback) ∧ { u with helm := s.helm, log := s.log } = s) ∧
    (∀ k, s.helm.selfTest = true → s.helm.bootAt + selfTestTime ≤ s.now → s.fwPasses s.helm.active = true →
      ∃ u, Completes (.fwSelfTestTimeout k) s u ∧ u.helm.active = s.helm.active ∧ u.helm.running = s.helm.active ∧
        (k = true → u.helm.pending = false) ∧ (k = false → u.helm.pending = s.helm.pending) ∧ u.helm.pufOk = k ∧ u.helm.selfTest = false ∧ u.helm.rollback = s.helm.rollback) ∧
    (∀ n, n.length = 32 → s.helm.recovery = false →
      (s.helm.attestSt ≠ 1 → s.helm.pufOk = true →
        ∃ u, Completes (.attestNonce n) s u ∧ u.dict.status = 0 ∧ u.helm = { s.helm with captured := s.attestFields n, attestSt := 1 } ∧
          { u with helm := s.helm, dict := s.dict } = s) ∧
      (s.helm.attestSt = 1 ∨ s.helm.pufOk = false → Refuses (.attestNonce n) s 0xB)) ∧
    (s.helm.attestSt = 1 → ∃ u, Completes .attestIssued s u ∧ u.helm = { s.helm with report := s.attestSigned, attestSt := 2 } ∧
      { u with helm := s.helm, log := s.log } = s) ∧
    (∀ c k, s.helm.selfTest = false → s.fwPasses 0 = false → s.fwPasses 1 = false →
      ∃ u, Completes (.helmRestart c k) s u ∧ u.helm.recovery = true ∧ u.pw.inputOn = false ∧ (s.pw.inputOn = true → u.pw.state = .standby)) ∧
    (∀ c k, s.helm.selfTest = false → s.fwPasses s.helm.active = true →
      ∃ u, Completes (.helmRestart c k) s u ∧ u.helm.running = s.helm.active ∧ u.helm.active = s.helm.active ∧ u.helm.recovery = false ∧
        u.measReg 0 = sha256 (zeros 32 ++ s.fwDigest s.helm.active) ∧ u.obj 0x1040 0 = satAdd 32 (s.obj 0x1040 0) 1 ∧
        { u with helm := s.helm, dict := s.dict, log := s.log, pw := s.pw } = s ∧ (s.pw.state ≠ .standby → u.pw = s.pw))

/-- The Logbook (14 R411, R413-R415; 15 R457): an event waits in its source's queue of 16 or is lost and counted; the Helm appends the oldest of a
queue under the next SEQ, in the first-fill area, whose last slot LOG_FIRST_FULL takes, and then in a ring of 1,024, where a record that is
overwritten before it was spilled is counted in LOG_LOST, and serves no source twice before every other that holds a
record; the oldest record not yet spilled goes to the flash ring. A trace record is taken when no Logbook record waits. The model's choices:
LOG_FIRST_FULL comes from the Helm's source and carries no DATA (log 26); a source served in the round is passed over while another waits, and
one command takes Logbook records and trace records (log 108). -/
def Obligations.LogbookOperations : Prop :=
  ∀ s : State,
    (∀ src code data, s.pw.vsb = true →
      { s.event src code data with log := s.log } = s ∧
      ((tget [] s.log.queues src).length < 16 → (s.event src code data).log.lost = s.log.lost ∧
        tget [] (s.event src code data).log.queues src = tget [] s.log.queues src ++ [logRec (s.stampAt src) code src data]) ∧
      (16 ≤ (tget [] s.log.queues src).length → (s.event src code data).log = { s.log with lost := satAdd 64 s.log.lost 1 })) ∧
    (∀ src, tget [] s.log.queues src ≠ [] → s.log.mayServe src = false → Completes (.logRecordAppend src) s s) ∧
    (∀ src r rest, s.helmRuns = true → s.log.waiting = [] → tget [] s.rcv.traceq src = r :: rest →
      ∃ u, Completes (.logRecordAppend src) s u ∧ u.rcv.trace = (s.rcv.trace ++ [r]).drop (s.rcv.trace.length + 1 - 8192) ∧
        tget [] u.rcv.traceq src = rest ∧ { u with rcv := { u.rcv with trace := s.rcv.trace, traceq := s.rcv.traceq } } = s) ∧
    (∀ src r rest, s.helmRuns = true → tget [] s.log.queues src = r :: rest → s.log.mayServe src = true →
      ∃ u, Completes (.logRecordAppend src) s u ∧ { u with log := s.log } = s ∧ tget [] u.log.queues src = rest ∧
        (∀ q, q ≠ src → tget [] u.log.queues q = tget [] s.log.queues q) ∧ u.log.flash = s.log.flash ∧
        (∀ q ∈ u.log.waiting, q ∉ u.log.round → u.log.mayServe src = false) ∧
        (s.log.first.length < 65534 → u.log.first = s.log.first ++ [(s.log.next, r)] ∧ u.log.tail = s.log.tail ∧ u.log.next = s.log.next + 1 ∧
          u.log.lost = s.log.lost) ∧
        (s.log.first.length = 65534 → u.log.first = s.log.first ++ [(s.log.next, r), (s.log.next + 1, logRec s.now 0x7A02 srcHelm [])] ∧
          u.log.tail = s.log.tail ∧ u.log.next = s.log.next + 2 ∧ u.log.lost = s.log.lost) ∧
        (s.log.first.length = 65535 → u.log.first = s.log.first ++ [(s.log.next, r)] ∧ u.log.tail = s.log.tail ∧ u.log.next = s.log.next + 1 ∧
          u.log.lost = s.log.lost) ∧
        (65536 ≤ s.log.first.length → u.log.first = s.log.first ∧ u.log.next = s.log.next + 1 ∧
          u.log.tail = (s.log.tail ++ [(s.log.next, r)]).drop (s.log.tail.length + 1 - 1024) ∧
          (∀ x older, s.log.tail = x :: older → 1024 ≤ s.log.tail.length → s.log.spilled ≤ x.1 → u.log.lost = satAdd 64 s.log.lost 1) ∧
          (s.log.tail.length < 1024 ∨ (∀ x older, s.log.tail = x :: older → x.1 < s.log.spilled) → u.log.lost = s.log.lost))) ∧
    (∀ r, s.helmRuns = true → (s.log.first ++ s.log.tail).find? (fun r => decide (s.log.spilled ≤ r.1)) = some r →
      ∃ u, Completes .logSpill s u ∧ { u with log := s.log } = s ∧ u.log.spilled = r.1 + 1 ∧ u.log.first = s.log.first ∧
        u.log.tail = s.log.tail ∧ u.log.flash = (s.log.flash ++ [r]).drop (s.log.flash.length + 1 - 1048576))

/-! ## Memory tiers and waypoints (06, 15) -/

/-- The region ports and stores (06 R178-R181, R190, R191, R198, R199): a port access moves 16 words between the scratchpad and the first chunk of its
window; a chunk that leaves the port goes to the lent segment or the store line, which becomes dirty, an ACCUM chunk added to the old
values of the other copy or to zeros; a fill brings a whole line, valid and clean; a
write-back leaves the line valid, clean and in device memory. What memory protection finds has clauses of its own in the rules that
raise faults; here it finds nothing. -/
def Obligations.TierTransfers : Prop :=
  ∀ s : State,
    (∀ t w m i r, s.img t = some m → s.streamOf t w = some (i, r) → (s.tile t).st = .fire → (s.tile t).due m w = true →
      ((s.tile t).winOf w).served = false → s.tierUp (tileRegion t) = true →
      wdBase (m.win w) ≤ ((s.tile t).winOf w).ptr → ((s.tile t).winOf w).ptr + 16 ≤ wdBase (m.win w) + wdWords (m.win w) →
      (let x := s.tile t
       let p := (x.winOf w).ptr
       (∀ pay, wdMode (m.win w) = 2 → x.portIn.find? (fun e => decide (e.1 = w)) = some (w, pay) →
         ∃ u, Completes (.portAccess t w .ok .ok) s u ∧ (u.tile t).spad = x.spad.writeN p (valWords 16 pay.toNat) ∧
           ((u.tile t).winOf w).served = true ∧ tget 0 (u.tstream i).taken (t % 32) = tget 0 (s.tstream i).taken (t % 32) + 1 ∧
           { u.tile t with spad := x.spad, wins := x.wins, portIn := x.portIn } = x ∧ (∀ t', t' ≠ t → (u.tile t').spad = (s.tile t').spad) ∧
           u.mem = s.mem) ∧
       (wdMode (m.win w) = 3 → x.portOut.length < 8 →
         ∃ u, Completes (.portAccess t w .ok .ok) s u ∧ (u.tile t).portOut = x.portOut ++ [(w, BitVec.ofNat 512 (wordsVal (x.spad.readN p 16)))] ∧
           ((u.tile t).winOf w).served = true ∧ { u.tile t with wins := x.wins, portOut := x.portOut } = x ∧
           ∀ t', t' ≠ t → u.tile t' = s.tile t'))) ∧
    (∀ t w pay rest i r, (s.tile t).portOut = (w, pay) :: rest → s.streamOf t w = some (i, r) → s.tierUp (tileRegion t) = true → r.kind ≠ 3 →
      (let a := s.chunkAt r r.base (s.tstream i).given
       let rg := tileRegion t
       (r.space = 1 →
         ∃ u, Completes (.portOutChunkTake t .ok) s u ∧ (u.tile t).portOut = rest ∧ (u.tstream i).given = (s.tstream i).given + 1 ∧
           ((u.region rg).lent r.seg).readN a 64 = leBytes 64 pay.toNat ∧ { u with tiles := s.tiles, regions := s.regions, streams := s.streams } = s) ∧
       (∀ k l, r.space ≠ 1 → (s.region rg).find r.tag (lineAddr a) = some (k, l) → l.data.length = 128 → a % 64 = 0 →
         ∃ u l', Completes (.portOutChunkTake t .ok) s u ∧ (u.tile t).portOut = rest ∧ (u.tstream i).given = (s.tstream i).given + 1 ∧
           (u.region rg).find r.tag (lineAddr a) = some (k, l') ∧ l'.half a = true ∧ l'.dirty = true ∧
           (l'.data.drop (a % 128)).take 64 = leBytes 64 pay.toNat ∧ u.mem = s.mem))) ∧
    (∀ t w pay rest i r, (s.tile t).portOut = (w, pay) :: rest → s.streamOf t w = some (i, r) → s.tierUp (tileRegion t) = true → r.kind = 3 →
      (let y := s.tstream i
       let rg := tileRegion t
       let old := s.chunkAt r (if y.gen % 2 = 0 then r.base else r.alt) y.given
       let new := s.chunkAt r (if y.gen % 2 = 0 then r.alt else r.base) y.given
       let fresh := r.zevery ≠ 0 ∧ y.gen % r.zevery = 0
       (∀ was, r.space = 1 → (fresh ∧ was = zeros 64 ∨ ¬ fresh ∧ was = ((s.region rg).lent r.seg).readN old 64) →
         ∃ u, Completes (.portOutChunkTake t .ok) s u ∧ (u.tile t).portOut = rest ∧ (u.tstream i).given = y.given + 1 ∧ (u.tstream i).gen = y.gen ∧
           ((u.region rg).lent r.seg).readN new 64 = accumChunk was (leBytes 64 pay.toNat) ∧ u.mem = s.mem) ∧
       (∀ k l was, r.space ≠ 1 → (s.region rg).find r.tag (lineAddr new) = some (k, l) → l.data.length = 128 → new % 64 = 0 →
         (fresh ∧ was = zeros 64 ∨
           ¬ fresh ∧ lineAddr old ≠ lineAddr new ∧ ∃ k' l', (s.region rg).find r.tag (lineAddr old) = some (k', l') ∧ k' ≠ k ∧ l'.half old = true ∧
             was = (l'.data.drop (old % 128)).take 64) →
         ∃ u l'', Completes (.portOutChunkTake t .ok) s u ∧ (u.tile t).portOut = rest ∧ (u.tstream i).given = y.given + 1 ∧ (u.tstream i).gen = y.gen ∧
           (u.region rg).find r.tag (lineAddr new) = some (k, l'') ∧ l''.half new = true ∧ l''.dirty = true ∧
           (l''.data.drop (new % 128)).take 64 = accumChunk was (leBytes 64 pay.toNat) ∧ u.mem = s.mem))) ∧
    (∀ i r, s.tsRec i = some r → r.kind = 1 → s.tierUp (tileRegion (s.ctile r.tile)) = true → s.wp.released = true →
      (s.tstream i).fetched < s.accessLimit r → (s.tstream i).fetched = s.slowest i r →
      ∃ u, Completes (.lineFetch i .ok) s u ∧ (u.tstream i).accessed = true ∧ (s.tstream i).fetched < (u.tstream i).fetched ∧
        (u.tstream i).fetched ≤ (s.tstream i).fetched + 2 ∧ u.mem = s.mem ∧ u.hostMem = s.hostMem ∧
        (∀ t, (u.tile t).spad = (s.tile t).spad) ∧
        (r.space ≠ 1 → (s.region (tileRegion (s.ctile r.tile))).find r.tag (lineAddr (s.chunkAt r r.base (s.tstream i).fetched)) = none →
          ∃ f ∈ (u.region (tileRegion (s.ctile r.tile))).fills,
            f.space = r.tag ∧ f.line = lineAddr (s.chunkAt r r.base (s.tstream i).fetched))) ∧
    (∀ r n f w, (s.region r).fills[n]? = some f → s.tierUp r = true → s.stackHeld f.space (128 * f.line) 128 = false →
      (s.region r).find f.space f.line = none → s.freeWay r (setOf f.line) = some w →
      ∃ u l, Completes (.lineFill r n .ok false false) s u ∧ (u.region r).line (setOf f.line) w = some l ∧ l.space = f.space ∧ l.line = f.line ∧
        l.valid0 = true ∧ l.valid1 = true ∧ l.dirty = false ∧ l.data = s.tierRead f.space (128 * f.line) 128 ∧
        (u.region r).fills = (s.region r).fills.eraseIdx n ∧ u.mem = s.mem ∧ u.hostMem = s.hostMem) ∧
    (∀ r set way l, s.tierUp r = true → s.evictionDue r set = true → (s.ways r set).any (fun w => ((s.region r).line set w).isNone) = false →
      s.victim r set = some (way, l) → l.dirty = true → l.space = 0 → l.data.length = 128 → s.stackHeld 0 (128 * l.line) 128 = false →
      ∃ u, Completes (.writeBack r set way .ok false) s u ∧ (u.region r).line set way = some { l with dirty0 := false, dirty1 := false } ∧
        (l.dirty0 = true → u.devRead (128 * l.line) 64 = l.data.take 64) ∧ (l.dirty1 = true → u.devRead (128 * l.line + 64) 64 = l.data.drop 64) ∧
        (∀ b, b < 128 * l.line ∨ 128 * l.line + 128 ≤ b → u.devByte b = s.devByte b) ∧
        { u with mem := s.mem, jmem := s.jmem, regions := s.regions } = s)

/-- Waypoints (15 R438, 06 R205; 03 R113, R115): a region whose tiles hold becomes ready with its tiles' counter sets added to the tallies of
their tensors, once for the waypoint, and cleared, everything else that it writes being what it saves, and its scratchpads as they
were; its read of a LIVE extent may meet an error, corrected and counted or SPAD_UE at that tile (02 R68), that of the tally table STACK_UE,
as may the reads at the end of a training step (15 R433); when everything is ready the next waypoint completes: the registers take its number, and the RUN ends after its last training step or
goes on. The number that the register takes, wp.count + 1 (log 30), and the clearing of counter sets of no tensor (log 52) are the model's
choices. -/
def Obligations.WaypointsComplete : Prop :=
  ∀ (s : State) (c : Chart), s.chart = some c →
    (∀ (t k id : Nat) (m : TileImg), k < 8 → m.cset.getD k 0xFFFF = id → id ≠ 0xFFFF → ((tget {} (s.tile t).csets k).conv ≠ 0) →
      (∀ j, j < 8 → j ≠ k → m.cset.getD j 0xFFFF ≠ id) →
      (let v := tget {} (s.tile t).csets k
       let a := c.tally + 32 * id
       let u := s.addSets c true t m
       u.devNat a 8 = (s.devNat a 8 + v.conv) % 2 ^ 64 ∧ u.devNat (a + 8) 8 = (s.devNat (a + 8) 8 + v.zero) % 2 ^ 64 ∧
         u.devNat (a + 0x10) 4 = satAdd 32 (s.devNat (a + 0x10) 4) v.sat ∧ u.devNat (a + 0x14) 4 = satAdd 32 (s.devNat (a + 0x14) 4) v.nonfin ∧
         u.devNat (a + 0x18) 4 = max (s.devNat (a + 0x18) 4) v.amax.toNat ∧ (u.tile t).csets = [])) ∧
    (∀ r t, s.regionHolds c r = true → s.savesHeld c r = false →
      ∃ u, Completes (.regionReady r t .ok .ok false none) s u ∧ (u.region r).ready = true ∧ r ∈ u.wp.tallied ∧
        { u.wp with tallied := s.wp.tallied } = s.wp ∧ u.run = s.run ∧ u.chart = s.chart ∧
        (∀ b, (b < c.wptArea ∨ c.wptArea + 512 * c.tiles.length ≤ b) →
          (∀ tr, c.tier = some tr → (b < tr.save ∨ tr.save + 32 * tr.streams.length ≤ b) ∧
            ∀ l ∈ tr.lives, ∀ e, c.liveExtent l = some e →
              (b < e.source ∨ e.source + 4 * e.words ≤ b) ∧ (b < l.alt ∨ l.alt + 4 * e.words ≤ b)) →
          (∀ l ∈ (s.region r).lines, l.2.dirty = true → l.2.space = 0 →
            l.2.data.length ≤ 128 ∧ (b < 128 * l.2.line ∨ 128 * l.2.line + 128 ≤ b)) →
          u.devByte b = ((c.tilesIn r).foldl (fun v x => v.addSets c (!s.wp.tallied.contains r) x.1 x.2) s).devByte b) ∧
        (∀ x ∈ c.tilesIn r, (u.tile x.1).csets = []) ∧ (∀ t, { u.tile t with csets := (s.tile t).csets } = s.tile t) ∧
        ∀ q, q ≠ r → u.region q = s.region q) ∧
    (∀ r t, s.regionHolds c r = true → s.savesHeld c r = false →
      (c.readsLive r t = true → ∀ ev b ue, ∃ u f, Completes (.regionReady r t .fatal ev b ue) s u ∧ f ∈ u.rcv.faults ∧
        f.number = satAdd 32 (s.obj 0x6010 0) 1 ∧ f.cause = 3 ∧ f.trow = tileRow t ∧ f.tcol = tileCol t) ∧
      (c.readsLive r t = true → tileRegion t = r → ∃ u, Completes (.regionReady r t .corrected .ok false none) s u ∧
        (u.region r).spadCorr = satAdd 32 (s.region r).spadCorr 1 ∧ (u.region r).ready = true) ∧
      (∀ ev b ue a, ueIn ue [(c.tally, 32 * c.tensors.length)] = some a →
        ∃ u, Completes (.regionReady r t .ok ev b ue) s u ∧ Records s u 0x31)) ∧
    (∀ r err ue a, s.run = some r → s.waypointReady = true → r.waiting = false → ueIn ue (s.stepReads c) = some a →
      ∃ u, Completes (.waypointComplete err ue) s u ∧ Records s u 0x31) ∧
    (∀ r, s.run = some r → s.waypointReady = true → r.waiting = false → ∀ err ue, ueIn ue (s.stepReads c) = none →
      ∃ u, Completes (.waypointComplete err ue) s u ∧ u.wp.count = s.wp.count + 1 ∧ u.wp.reg = BitVec.ofNat 64 (s.wp.count + 1) ∧
        u.wp.tsteps = s.wp.tsteps + (if s.stepEndNext then 1 else 0) ∧ u.chart = s.chart ∧ (∀ q ∈ c.placed, (u.region q).ready = false) ∧
        (s.stepEndNext = true → r.steps ≤ r.done + 1 →
          u.run = none ∧ ∀ k, s.cmd r.seq = some k → k.ended = false → Ended u r.seq 0 0 (r.done + 1)) ∧
        (¬ (s.stepEndNext = true ∧ r.steps ≤ r.done + 1) → r.stopAt = none →
          u.run = some { r with done := r.done + (if s.stepEndNext then 1 else 0) } ∧ u.wp.released = true))

/-! ## Training state (07) -/

/-- The commit (07 R213, R222, R225, R227, R228, R231, R244): a master weight that does not saturate survives its encoding; staging takes the complete sums of a
bucket; the decision is written once and every unit begins; an element advances the unit, its pool and the counters; a page comes in from its
segment, and the frame of a block that has been filled goes back to it; a read of the stacks may meet STACK_UE (15 R433); a unit that is ready has saved its running record. COMMIT_START that writes no decision where one was finished before is the
model's choice (log 95), and so is what STACK_UE leaves of an element (log 122). -/
def Obligations.CommitAndPaging : Prop :=
  (∀ w : W32, (encodeWeight w).2.2 = false → decodeWeight (encodeWeight w).1 (encodeWeight w).2.1 = w) ∧
  ∀ (s : State) (cu : Upd), s.updSec = some cu →
    (∀ n i x g grp b j, s.unitRec n = some (i, x) → s.rgroup grp = some g → stageIx (cu.runsOf x) grp (32 * b) 0 = some j → s.running = true →
      s.unitUp n = true → s.doorClosed .stack x.stack = false → (s.unit n).accept = true → (grp, b) ∉ (s.unit n).staged →
      (∀ h c, h < 2 → c < 171 → (s.redn.sums.find? (fun p => decide (p.group = grp ∧ p.bucket = b ∧ p.half = h ∧ p.chunk = c ∧
        p.axis = g.axisList.length))).isSome = true) →
      ∃ u, Completes (.stagingBucketReceive n grp b) s u ∧ (u.unit n).staged = (s.unit n).staged ++ [(grp, b)] ∧
        u.redn = { s.redn with sums := s.redn.sums.filter (fun p => !(decide (p.group = grp ∧ p.bucket = b))) } ∧
        { u with mem := s.mem, jmem := s.jmem, dict := s.dict, upd := s.upd, redn := s.redn } = s) ∧
    (s.running = true → s.commitOpen = true → s.commitStep = true → s.upd.started = false → s.rcv.phase = .idle →
      cu.units.all s.stagingDone = true → s.stackHeld 0 cu.commit 64 = false →
      (s.upd.finished ≠ 0 → ∀ ue, ueIn ue (s.constReads cu) = none → Completes (.commitStart ue) s { s with upd := { s.upd with started := true } }) ∧
      (∀ ue a, ueIn ue (s.constReads cu) = some a → ∃ u, Completes (.commitStart ue) s u ∧ Records s u 0x31) ∧
      (s.upd.finished = 0 → s.commitNat 0 1 = 0 → ∀ ue, ueIn ue (s.constReads cu) = none → ∃ u, Completes (.commitStart ue) s u ∧ u.upd.started = true ∧ u.commitNat 0 1 = (if s.redn.flag then 2 else 1) ∧
        { u with mem := s.mem, jmem := s.jmem, upd := s.upd } = s ∧
        (s.redn.flag = false → ∀ x ∈ cu.units, (u.unit (2 * x.stack + x.unit)).active = true ∧ (u.unit (2 * x.stack + x.unit)).pos = 0 ∧
          (u.unit (2 * x.stack + x.unit)).k = (s.unit (2 * x.stack + x.unit)).k))) ∧
    (∀ n i x e, s.unitRec n = some (i, x) → (s.unit n).active = true → s.unitUp n = true → (cu.commitSeq x)[(s.unit n).pos]? = some e →
      s.elemHeld x e = false → (cu.groups.getD e.grp {}).host = false →
      (meStep (s.mapEntry x e.ix) ≠ ((s.unit n).k + 1) % 16384 →
        ∃ u, Completes (.commitElement n false) s u ∧ (u.unit n).pos = (s.unit n).pos + 1 ∧ (u.unit n).k = (s.unit n).k ∧
          (u.unit n).whead = ((s.unit n).whead + 1) % 2 ^ 32 ∧ (u.unit n).wtail = ((s.unit n).wtail + 1) % 2 ^ 32 ∧
          u.obj 0x9041 0 = satAdd 64 (s.obj 0x9041 0) 1 ∧ u.tiles = s.tiles ∧ u.chart = s.chart ∧ u.hostMem = s.hostMem) ∧
      (meStep (s.mapEntry x e.ix) = ((s.unit n).k + 1) % 16384 → s.poolHead n x = meCur (s.mapEntry x e.ix) →
        ∃ u, Completes (.commitElement n false) s u ∧ (u.unit n).pos = (s.unit n).pos + 1 ∧ (u.unit n).k = (s.unit n).k ∧
          u.obj 0x9041 1 = satAdd 64 (s.obj 0x9041 1) 1 ∧ u.tiles = s.tiles ∧ u.hostMem = s.hostMem) ∧
      (meStep (s.mapEntry x e.ix) = ((s.unit n).k + 1) % 16384 → s.poolHead n x ≠ meCur (s.mapEntry x e.ix) →
        ∃ u, Completes (.commitElement n false) s u ∧ Records s u 0x30)) ∧
    (∀ n i x e, s.unitRec n = some (i, x) → (s.unit n).active = true → s.unitUp n = true → (cu.commitSeq x)[(s.unit n).pos]? = some e →
      (s.elemHeld x e = true → ∀ ue, Completes (.commitElement n ue) s s) ∧
      (s.elemHeld x e = false → ∃ u, Completes (.commitElement n true) s u ∧ Records s u 0x31 ∧ u.mem = s.mem ∧ u.upd = s.upd)) ∧
    (∀ n i x e, s.unitRec n = some (i, x) → s.running = true → s.unitUp n = true → s.tierUp (pagerOf n) = true → s.commitStep = true →
      s.pw.stacksUp = true → s.doorClosed .stack x.stack = false →
      (x.pageWpt + 1 < s.wptIx ∨ (x.pageWpt + 1 = s.wptIx ∧ s.wp.released = true)) → (s.unit n).active = false → (cu.hostElems x)[(s.unit n).paged]? = some e →
      (s.unit n).paged < cu.hostBefore x (s.unit n).pos + x.frameCnt → ∀ ue,
      ∃ u, Completes (.pageIn n false ue) s u ∧ (u.unit n).paged = (s.unit n).paged + 1 ∧
        u.devRead (x.frame (s.unit n).paged) 4096 =
          s.hostMem.readN (s.hostSlot (cu.groups.getD e.grp {}) (meCur (s.mapEntry x e.ix))) 4096 ∧
        { u with mem := s.mem, jmem := s.jmem, upd := s.upd } = s) ∧
    (∀ n i x e, s.unitRec n = some (i, x) → s.running = true → s.unitUp n = true → s.tierUp (pagerOf n) = true → s.commitStep = true →
      s.pw.stacksUp = true → s.doorClosed .stack x.stack = false →
      (x.pageWpt + 1 < s.wptIx ∨ (x.pageWpt + 1 = s.wptIx ∧ s.wp.released = true)) → (s.unit n).active = true → (s.unit n).filled = true →
      (s.unit n).backed = false → (cu.hostElems x)[cu.hostBefore x (s.unit n).pos]? = some e →
      (let at' := x.frame (cu.hostBefore x (s.unit n).pos)
       let slot := s.hostSlot (cu.groups.getD e.grp {}) (meCur (s.mapEntry x e.ix) ^^^ 1)
       (∀ ue, ueIn ue [(at', 4096)] = none → ∃ u, Completes (.pageIn n false ue) s u ∧ u.unit n = { s.unit n with backed := true } ∧
         u.hostMem.readN slot 4096 = s.devRead at' 4096 ∧ (∀ b, b < slot ∨ slot + 4096 ≤ b → u.hostMem.read b = s.hostMem.read b) ∧
         { u with hostMem := s.hostMem, upd := s.upd } = s) ∧
       ∀ ue a, ueIn ue [(at', 4096)] = some a → ∃ u, Completes (.pageIn n false ue) s u ∧ Records s u 0x31)) ∧
    (∀ n i x, s.unitRec n = some (i, x) → s.running = true → (s.unit n).ready = false → s.unitUp n = true → (s.stepEndNext && s.commitStep) = false →
      s.stackHeld 0 (cu.recordAt (s.nextWpt % 2) i) 4096 = false →
      ∃ u, Completes (.updateUnitReady n) s u ∧ u.unit n = { s.unit n with ready := true } ∧ { u with mem := s.mem, jmem := s.jmem, upd := s.upd } = s ∧
        u.devRead (cu.recordAt (s.nextWpt % 2) i) (runningRecord (s.unit n) cu.groups.length).length = runningRecord (s.unit n) cu.groups.length)

/-! ## Reduction and barriers (09) -/

/-- What begins the reduction (09 R291, R293, R294, R303, R306, R308, R309): a scan leaves a bucket's local exponent; the barrier of a machine whose axes
are done completes and writes the agreed flag; a module alone agrees with itself and owns its sums; the first flit of a chain and the flits of a
gather wait on their ports for two free credits, and a chain begins once; what each reads of the stacks may meet STACK_UE (15 R433). The model's choices: where a flit that begins a chain waits (log
85); the ports of pair index 0 for BARRIER, AGREE and REPLAY, and of WEIGHT flits by chunk (log 12); the timeout as it was at the report
(log 44). -/
def Obligations.ReductionBegins : Prop :=
  ∀ s : State,
    (∀ grp g b, s.rgroup grp = some g → s.running = true → s.cwptNext = true → s.commitStep = true → s.rcv.phase = .idle → b < g.buckets →
      (grp, b) ∉ s.redn.scanned → s.placedRegions.all (fun r => (s.region r).ready) = true →
      (let x := exponentByte ((List.range 16384).map (fun e => ofF32 (s.gradElem g b e)))
       (∀ ue a, ueIn ue [(s.gradCopy g + 65536 * b, 65536)] = some a → ∃ u, Completes (.gradientScan grp b ue) s u ∧ Records s u 0x31) ∧
       ∀ ue, ueIn ue [(s.gradCopy g + 65536 * b, 65536)] = none → ∃ u, Completes (.gradientScan grp b ue) s u ∧ u.devRead (g.agree + b) 1 = [BitVec.ofNat 8 x] ∧
         u.redn = { s.redn with scanned := s.redn.scanned ++ [(grp, b)], scanBad := s.redn.scanBad || decide (x = 0xFF) } ∧
         { u with mem := s.mem, jmem := s.jmem, redn := s.redn } = s)) ∧
    (s.running = true → s.rcv.phase = .idle → s.redn.barrier.complete = false →
      (s.redn.barrier.reported = true → s.redn.barrier.axis = 4 →
        ∃ u, Completes .machineBarrierComplete s u ∧ u.redn.barrier.complete = true ∧ u.link = s.link ∧ u.tiles = s.tiles ∧
          ((s.cwptNext && s.commitStep) = true → u.redn.flag = s.redn.barrier.nf ∧ u.redn.flagSet = true ∧
            u.obj 0x5100 3 = (if s.redn.barrier.nf then 1 else 0)) ∧
          ((s.cwptNext && s.commitStep) = false → u.mem = s.mem)) ∧
      (s.redn.barrier.reported = false → s.othersReady = true → (∀ a, a < 4 → s.runLen a < 2) → (∀ c, s.chart = some c → c.taps = []) →
        ∃ u, Completes .machineBarrierComplete s u ∧ u.redn.barrier.reported = true ∧ u.redn.barrier.complete = true ∧ u.link = s.link ∧
          ((s.cwptNext && s.commitStep) = true → u.redn.flag = (s.redn.barrier.nf || s.nonfinBit) ∧ u.redn.flagSet = true))) ∧
    (∀ p, s.running = true → s.multi = true → s.redn.barrier.reported = true → s.redn.barrier.complete = false →
      s.redn.barrier.since + 1000 * s.redn.barrier.limit ≤ s.now → s.rcv.phase = .idle → s.oos = false →
      ∃ u, Completes (.barrierTimeout p) s u ∧ Records s u 0x44 ∧ u.run = none ∧ u.rcv.phase = .resetOnly ∧ u.chart = s.chart) ∧
    (∀ grp g, s.rgroup grp = some g → s.reducing = true → BuffersEmpty s →
      (grp ∉ s.redn.agreed → (∀ a ∈ s.redn.agreeing, a.group ≠ grp) →
        (∀ ue a, ueIn ue [(g.agree, g.buckets)] = some a → ∃ u, Completes (.exponentAgreement grp ue) s u ∧ Records s u 0x31) ∧
        ∀ ue, ueIn ue [(g.agree, g.buckets)] = none → ∃ u, Completes (.exponentAgreement grp ue) s u ∧ u.devRead (g.agree + g.buckets) g.buckets = s.devRead g.agree g.buckets ∧
          (grp ∈ u.redn.agreed ∨ ∃ a ∈ u.redn.agreeing, a.group = grp) ∧
          ((∀ a, a < 4 → s.runLen a = 1) → g.axisList ≠ [] → u.redn.agreed = s.redn.agreed ++ [grp])) ∧
      (∀ b h c, b < g.buckets → c < 171 → g.axisList.head? = some 0 → grp ∈ s.redn.agreed → (0, grp, b, 256 * h + c) ∉ s.redn.chains →
        (0, grp, b, 256 * h + c) ∉ s.redn.begun →
        (let q := (List.range (chunkElems c)).map (fun e => s.qValue g b (8192 * h + 48 * c + e))
         (∀ ue a q', s.contribution grp g 0 b h c = some q' → s.runLen 0 = 1 ∨ s.chainPlace 0 (s.bucketOwner g 0 b) h = 0 →
           ueIn ue (s.chunkReads g b h c) = some a → ∃ u, Completes (.chainStart grp b h c ue) s u ∧ Records s u 0x31) ∧
         (s.runLen 0 = 1 →
           ∃ u, Completes (.chainStart grp b h c none) s u ∧ ⟨grp, b, h, c, 1, q⟩ ∈ u.redn.sums ∧ (0, grp, b, 256 * h + c) ∈ u.redn.chains ∧
             u.link = s.link ∧ u.mem = s.mem) ∧
         (s.runLen 0 ≠ 1 → s.chainPlace 0 (s.bucketOwner g 0 b) h = 0 → s.twoCredits (s.chunkPort 0 h c) g.vc = true →
           ∃ u, Completes (.chainStart grp b h c none) s u ∧ (0, grp, b, 256 * h + c) ∈ u.redn.chains ∧
             (0, grp, b, 256 * h + c) ∈ u.redn.begun ∧ u.mem = s.mem ∧
             tget [] (u.port (s.chunkPort 0 h c)).startq g.vc =
               tget [] (s.port (s.chunkPort 0 h c)).startq g.vc ++ [mkFlit 3 g.vc (reducePayload grp b c h 0 q)]))) ∧
      (∀ b, b < g.buckets → s.ownsBucket g b = true → 2 ≤ s.runLen 0 → (grp, b) ∉ s.redn.gathered → s.upd.started = true → s.commitNat 0 1 = 1 →
        s.bucketCommitted grp b = true →
        (∀ ue a, ueIn ue [(g.wimage + 32768 * b, 32768)] = some a → ∃ u, Completes (.gatherStart grp b ue) s u ∧ Records s u 0x31) ∧
        ∀ ue, ueIn ue [(g.wimage + 32768 * b, 32768)] = none → ∃ u, Completes (.gatherStart grp b ue) s u ∧ u.redn = { s.redn with gathered := s.redn.gathered ++ [(grp, b)] } ∧
          { u with redn := s.redn, link := s.link } = s ∧
          ∀ q, tget [] (u.port q).startq g.vc = tget [] (s.port q).startq g.vc ++
            [0, 1].flatMap (fun h => ((List.range 74).filter (fun c => decide (s.chunkPort 0 h c = q))).map (fun c =>
              mkFlit 5 g.vc (redHeader grp b c h (weightElems c) ++
                s.devRead (g.wimage + 32768 * b + 2 * (8192 * h + 112 * c)) (2 * weightElems c))))))

/-- What a reduction flit does (09 R294, R300, R306, R308): a REDUCE at the owner is added to the module's own values and kept, and one whose residues differ asks
for a retry, and raises RESIDUE when it differs again; what these read of the stacks may meet STACK_UE (15 R433); an AGREE takes the greater exponents; a WEIGHT is written into the weight image; a BARRIER is heard and passed on while hops are left. -/
def Obligations.ReductionFlits : Prop :=
  ∀ (s : State) (p : Nat) (f : Flit),
    (let hd := fieldAt f.payload 0 6
     let i := bitsOf hd 47 40
     let b := bitsOf hd 39 16
     let c := bitsOf hd 15 8
     let h := bitsOf hd 7 7
     (∀ g q sums, Receives s p f 3 → 3 ≤ f.vc → f.vc ≤ 6 → residuesOk f = true → s.reducing = true → BuffersEmpty s → p < 2 * s.variant →
       s.rgroup i = some g → g.axisList.findIdx? (fun a => decide (a = portAxis p)) = some 0 → bitsOf hd 6 6 = 0 →
       s.contribution i g 0 b h c = some q → addSums (payloadSums f) q = some sums →
       s.chainPlace (portAxis p) (s.bucketOwner g (portAxis p) b) h + 1 = s.runLen (portAxis p) →
       ∃ u, Completes (.reduce p f none) s u ∧ ⟨i, b, h, c, 1, sums⟩ ∈ u.redn.sums ∧ (portAxis p, i, b, 256 * h + c) ∈ u.redn.chains ∧
         (u.port p).rxSeq = ((s.port p).rxSeq + 1) % 4096 ∧ u.mem = s.mem ∧ u.tiles = s.tiles) ∧
     (∀ g ue a, Receives s p f 3 → 3 ≤ f.vc → f.vc ≤ 6 → residuesOk f = true → s.rgroup i = some g →
       ueIn ue (s.chunkReads g b h c) = some a → ∃ u, Completes (.reduce p f ue) s u ∧ Records s u 0x31) ∧
     (Receives s p f 3 → residuesOk f = false → (s.port p).resFor ≠ some (s.port p).rxSeq →
       ∀ ue, ∃ u, Completes (.reduce p f ue) s u ∧ (u.port p).nakPend = true ∧ (u.port p).rxSeq = (s.port p).rxSeq ∧
         (u.port p).resFor = some (s.port p).rxSeq ∧ u.redn = s.redn ∧ u.obj 0x9060 3 = satAdd 64 (s.obj 0x9060 3) 1) ∧
     (Receives s p f 3 → residuesOk f = false → (s.port p).resFor = some (s.port p).rxSeq →
       ∀ ue, ∃ u, Completes (.reduce p f ue) s u ∧ Records s u 0x42) ∧
     (∀ g k, Receives s p f 4 → 3 ≤ f.vc → f.vc ≤ 6 → s.reducing = true → BuffersEmpty s → p < 2 * s.variant → s.rgroup i = some g → f.payload.length = 240 →
       s.redn.agreeing.find? (fun a => decide (a.group = i)) = some k → g.axisList[k.axis]? = some (portAxis p) →
       (∀ ue a, ueIn ue [(g.agree + g.buckets, g.buckets)] = some a → ∃ u, Completes (.agree p f ue) s u ∧ Records s u 0x31) ∧
       ∃ u, Completes (.agree p f none) s u ∧ (u.port p).rxSeq = ((s.port p).rxSeq + 1) % 4096 ∧
         u.devRead (g.agree + g.buckets + b) (min (hd % 65536) 224) =
           ((s.devRead (g.agree + g.buckets + b) (min (hd % 65536) 224)).zip (bytesAt f.payload 6 (min (hd % 65536) 224))).map
             (fun x => if x.1.toNat < x.2.toNat then x.2 else x.1)) ∧
     (∀ g, Receives s p f 5 → 3 ≤ f.vc → f.vc ≤ 6 → s.rgroup i = some g → f.payload.length = 240 →
       ∃ u, Completes (.weight p f) s u ∧ (u.port p).rxSeq = ((s.port p).rxSeq + 1) % 4096 ∧
         u.redn = { s.redn with weights := s.redn.weights ++ [(i, b, 128 * h + c)] } ∧
         u.devRead (g.wimage + 32768 * b + 2 * (8192 * h + 112 * c)) (2 * min (hd % 128) 112) = bytesAt f.payload 6 (2 * min (hd % 128) 112))) ∧
    (Receives s p f 6 → f.vc = 0 → 2 ≤ s.runLen (portAxis p) → fieldAt f.payload 8 1 = portAxis p → fieldAt f.payload 0 8 = s.nextWpt →
      ∃ u, Completes (.barrier p f) s u ∧ (u.port p).rxSeq = ((s.port p).rxSeq + 1) % 4096 ∧
        u.redn.barrier.nf = (s.redn.barrier.nf || decide (fieldAt f.payload 9 1 = 1)) ∧
        tget 0 u.redn.barrier.heard (heardKey s.nextWpt (portAxis p) (1 - p % 2)) =
          tget 0 s.redn.barrier.heard (heardKey s.nextWpt (portAxis p) (1 - p % 2)) + 1 ∧
        tget [] (u.port (p ^^^ 1)).sendq 0 = tget [] (s.port (p ^^^ 1)).sendq 0 ++
          (if fieldAt f.payload 0xA 1 = 0 then []
           else [mkFlit 6 0 (leBytes 8 s.nextWpt ++ leBytes 1 (portAxis p) ++
             leBytes 1 (if fieldAt f.payload 9 1 = 1 then 1 else 0) ++ leBytes 1 (fieldAt f.payload 0xA 1 - 1))]))

/-! ## Links (10) -/

/-- A port trains (10 R320, R321, Tables LINK-7, LINK-8): the states follow in order; a partner whose IDENT fails a check or a state that exceeds its
bound puts the port DOWN for 1 s with the code; a full training takes all four lanes; retraining and generation exchanges (R330, R331, R333) return it to work or take it DOWN.
PORT_TRAIN_START standing for the move to DETECT (log 16), ports whose axis is unchanged being left alone (log 14), and the frame number and
the signal levels that training starts from (log 105) are the model's choices. -/
def Obligations.PortsTrain : Prop :=
  ∀ (s : State) (p : Nat),
    (s.canTrain p = true → torusOk s.variant s.storedLen s.storedPos = true → s.storedLen = s.link.len → s.storedPos = s.link.pos →
      2 ≤ s.axisLen (portAxis p) →
      ∃ u, Completes (.portTrainStart p) s u ∧ (u.port p).st = .detect ∧ (u.port p).since = s.now ∧
        (u.port p).rate = s.obj 0x5011 0 ∧ { u with link := s.link, hi := s.hi } = s ∧
        ∀ q, q ≠ p → u.port q = s.port q) ∧
    (s.canTrain p = true → torusOk s.variant s.storedLen s.storedPos = true → s.storedLen = s.link.len → s.storedPos = s.link.pos →
      s.axisLen (portAxis p) < 2 →
      ∃ u, Completes (.portTrainStart p) s u ∧ OnlyPort p s u ∧ u.port p = { s.port p with retryAt := none }) ∧
    (s.canTrain p = false → Completes (.portTrainStart p) s s) ∧
    (∀ lanes rev inv, (s.port p).st = .detect →
      (lanes % 16 = 15 → ∃ u, Completes (.detect p lanes rev inv) s u ∧ (u.port p).st = .equalise ∧ (u.port p).rxMask = 15 ∧
        (u.port p).txMask = 15 ∧ (u.port p).reversed = rev ∧ (u.port p).inverted = inv ∧ { u with link := s.link, hi := s.hi } = s) ∧
      (lanes % 16 ≠ 15 → Completes (.detect p lanes rev inv) s s)) ∧
    (∀ pre, (s.port p).st = .equalise → ∃ u, Completes (.equalise p pre) s u ∧
      u.port p = { s.port p with st := .align, since := s.now, precoded := pre % 16, frame := [], frameNo := 0, frameMask := 0, levels := [] } ∧ { u with link := s.link, hi := s.hi } = s) ∧
    ((s.port p).st = .align → ∃ u, Completes (.align p) s u ∧ u.port p = { s.port p with st := .fecLock, since := s.now } ∧
      { u with link := s.link, hi := s.hi } = s) ∧
    ((s.port p).st = .fecLock → ∃ u, Completes (.fecLock p) s u ∧ u.port p = { s.port p with st := .identify, since := s.now } ∧
      { u with link := s.link, hi := s.hi } = s) ∧
    (∀ d, (s.port p).st = .identify →
      (∀ d', d' ≠ d → Completes (.identify p d' d) s s) ∧
      (s.identFail p d = 0 → ∃ u, Completes (.identify p d d) s u ∧ (u.port p).st = .active ∧ (u.port p).ident = d ∧ (u.port p).genOpen = true ∧
        ∀ q, q ≠ p → u.port q = s.port q) ∧
      (s.identFail p d ≠ 0 → ∃ u, Completes (.identify p d d) s u ∧ (u.port p).st = .down ∧ (u.port p).retryAt = some (s.now + 1000000000) ∧
        u.obj (0x5020 + p) 4 = s.identFail p d ∧ u.obj (0x5020 + p) 0xA = satAdd 32 (s.obj (0x5020 + p) 0xA) 1)) ∧
    (∀ b code, trainBound (s.port p).st = some (b, code) → (s.port p).since + b < s.now →
      ∃ u, Completes (.trainStateTimeout p) s u ∧ (u.port p).st = .down ∧ (u.port p).retryAt = some (s.now + 1000000000) ∧
        (code ≠ 0 → u.obj (0x5020 + p) 4 = code) ∧ u.tiles = s.tiles ∧ u.chart = s.chart) ∧
    ((s.port p).st = .active → s.linkReset p = false →
      ((s.port p).genOpen = true → ∃ u, Completes (.generationExchange p) s u ∧ OnlyPort p s u ∧
        u.port p = { (s.port p).restart with genSend := some false }) ∧
      (∀ f : Flit, f.type = 0x0E →
        (f.vc ≠ 0 → ∃ u, Completes (.gen p f) s u ∧ OnlyPort p s u ∧ (u.port p).nakPend = true ∧ (u.port p).genOpen = (s.port p).genOpen ∧
          (u.port p).partnerGen = (s.port p).partnerGen) ∧
        (f.vc = 0 → fieldAt f.payload 1 1 = 1 → (s.port p).genOpen = true → ∃ u, Completes (.gen p f) s u ∧ OnlyPort p s u ∧
          (u.port p).genOpen = false ∧ (u.port p).partnerGen = fieldAt f.payload 0 1 ∧ ∀ vc, vc < 8 → tget 0 (u.port p).credits vc = vcSlots vc) ∧
        (f.vc = 0 → fieldAt f.payload 1 1 ≠ 1 → ∃ u, Completes (.gen p f) s u ∧ OnlyPort p s u ∧ (u.port p).genSend = some true ∧
          (u.port p).genOpen = false ∧ (u.port p).partnerGen = fieldAt f.payload 0 1))) ∧
    (∀ cause tx rx, (s.port p).st = .active → s.retrainWhy p cause = true →
      ∃ u, Completes (.retrain p cause tx rx) s u ∧ (u.port p).st = .retrain ∧ (u.port p).retrainAt = some s.now ∧
        (cause = .naks → (u.port p).txMask = (s.port p).txMask ∧ (u.port p).rxMask = (s.port p).rxMask) ∧
        (cause ≠ .naks → (u.port p).txMask = narrowTo (s.port p).txMask tx ∧ (u.port p).rxMask = narrowTo (s.port p).rxMask rx) ∧
        u.tiles = s.tiles ∧ ∀ q, q ≠ p → u.port q = s.port q) ∧
    ((s.port p).st = .retrain → s.retrainFailed p = false →
      ∃ u, Completes (.retrainComplete p) s u ∧ (u.port p).st = .active ∧ (u.port p).nakPend = true ∧
        { u with link := s.link, hi := s.hi, rcv := { u.rcv with linkHold := s.rcv.linkHold } } = s ∧
        (s.rcv.linkHold = true → u.established = true → u.rcv.linkHold = false)) ∧
    (s.retrainFailed p = true → ∃ u, Completes (.linkDown p) s u ∧ (u.port p).st = .down ∧ (u.port p).copies = [] ∧ Records s u 0x43)

/-- Flits and taps (10 R317, R319, R321, R323-R328; 08 R254-R265, R277; 11 R353; 15 R441): the transmitter sends IDENT in IDENTIFY, and the chosen flit
under the next SEQ, which it keeps for a retry; an error asks for it again; IDLE acknowledges; tokens reach their tap, start and count records are kept, a BULK flit writes device memory, REPLAY starts a replay.
The model's choices: a damaged flit is asked for again whatever was asked before (log 17); the tags a ring's block must have are found
from the tap's token count (log 13), and a tap that no ring record names has none to check (log 125). -/
def Obligations.FlitsAndTaps : Prop :=
  ∀ (s : State) (p : Nat) (f : Flit),
    ((s.port p).st = .identify → s.linkReset p = false →
      ∃ u h, Completes (.flitTransmit p) s u ∧ (u.port p).lastTx = some h ∧ h.type = 0x0F ∧ h.payload = s.ownIdent p ∧
        (u.port p).frame.getLast? = some h ∧ ∀ q, q ≠ p → u.port q = s.port q) ∧
    ((s.port p).st = .align ∨ (s.port p).st = .fecLock → s.linkReset p = false →
      ∃ u h, Completes (.flitTransmit p) s u ∧ (u.port p).lastTx = some h ∧ h.type = 0 ∧ h.gen = 0 ∧
        (u.port p).frame.getLast? = some h ∧ ∀ q, q ≠ p → u.port q = s.port q) ∧
    ((s.port p).st = .active → s.linkReset p = false → (s.port p).genOpen = false →
      (∀ vc g rest, s.onward p = none → (s.port p).genSend = none → (s.port p).resend = [] → (s.port p).retry.length < 512 →
        (s.port p).beginChains.choose = some vc → tget [] (s.port p).beginChains.sendq vc = g :: rest →
        ∃ u h, Completes (.flitTransmit p) s u ∧ (u.port p).lastTx = some h ∧ h.seq = (s.port p).txSeq ∧ h.type = g.type ∧
          h.payload = g.payload ∧ h.ack = (s.port p).rxSeq ∧ h.gen = (if g.type = 0 then 0 else s.tag .link p) ∧ tget [] (u.port p).sendq vc = rest ∧
          (u.port p).txSeq = ((s.port p).txSeq + 1) % 4096 ∧ (u.port p).retry = (s.port p).retry ++ [{ g with seq := (s.port p).txSeq }] ∧
          tget 0 (u.port p).credits vc = tget 0 (s.port p).credits vc - 1 ∧ (u.port p).frame.getLast? = some h ∧
          u.obj 0x9060 2 = (if 3 ≤ g.type ∧ g.type ≤ 5 then satAdd 64 (s.obj 0x9060 2) 1 else s.obj 0x9060 2) ∧
          ∀ q, q ≠ p → u.port q = s.port q) ∧
      (∀ e, e = .badType ∨ (∃ c, e = .crc c ∧ c ≠ flitCrc f) ∨ (∃ n, e = .fec n) ∨ (e = .seqLate ∧ 1 ≤ seqDiff f.seq (s.port p).rxSeq ∧
          seqDiff f.seq (s.port p).rxSeq ≤ 2048 ∧ (s.port p).nakFor ≠ some (s.port p).rxSeq) →
        ∃ u, Completes (.flitReceiveError p e f) s u ∧ (u.port p).nakPend = true ∧ (u.port p).nakFor = some (s.port p).rxSeq ∧
          { u with link := s.link, dict := s.dict } = s ∧ (∀ n, e = .fec n → u.obj (0x5020 + p) 6 = satAdd 64 (s.obj (0x5020 + p) 6) n)) ∧
      (∀ n, ∃ u, Completes (.flitReceiveError p (.corrected n) f) s u ∧ { u with dict := s.dict } = s ∧
        u.obj (0x5020 + p) 5 = satAdd 64 (s.obj (0x5020 + p) 5) n) ∧
      (∃ u, Completes (.flitReceiveError p .residue f) s u ∧
        ((s.port p).resFor = some (s.port p).rxSeq → Records s u 0x42) ∧
        ((s.port p).resFor ≠ some (s.port p).rxSeq → (u.port p).nakPend = true ∧ (u.port p).resFor = some (s.port p).rxSeq ∧
          { u with link := s.link, dict := s.dict } = s)) ∧
      (∀ e, e = .seqDup ∨ e = .crc (flitCrc f) → Completes (.flitReceiveError p e f) s s) ∧
      (f.type = 0 → f.vc ≠ 0 → ∃ u, Completes (.idle p f) s u ∧ OnlyPort p s u ∧ (u.port p).nakPend = true ∧
        (u.port p).retry = (s.port p).retry ∧ (u.port p).credits = (s.port p).credits) ∧
      (f.type = 0 → f.vc = 0 →
        ∃ u, Completes (.idle p f) s u ∧ { u with link := s.link, hi := s.hi } = s ∧ (u.port p).rxSeq = (s.port p).rxSeq ∧
          (u.port p).retry = (s.port p).retry.filter (fun g => !(decide (1 ≤ seqDiff f.ack g.seq ∧ seqDiff f.ack g.seq ≤ 2048))) ∧
          tget 0 (u.port p).credits f.cvc = tget 0 (s.port p).credits f.cvc + seqDiff f.cfree (tget 0 (s.port p).seenFree f.cvc)) ∧
      (∀ r, s.tapRec p 2 = some r → r.use ≠ 3 → s.tapWaiting r ≠ [] → s.tapMay p 2 r = true → s.linkDoor p = false →
        s.doorClosed .dataflow (s.physOf (tileRegion (s.tapTile r).1)) = false →
        (let k := min 3 (s.tapWaiting r).length
         ∃ u, Completes (.tapSend p 2) s u ∧ u.tapWaiting r = (s.tapWaiting r).drop k ∧
           tget [] (u.port p).sendq 2 = tget [] (s.port p).sendq 2 ++ [mkFlit 1 2 (tokenPayload ((s.tapWaiting r).take k))] ∧
           ((u.port p).tap 2).sent = ((s.port p).tap 2).sent + k ∧ u.obj 0x9050 1 = satAdd 64 (s.obj 0x9050 1) k))) ∧
    (Receives s p f 1 → f.vc = 2 →
      (∀ r, f.hops = 0 → s.tapRec p 2 = some r →
        ∃ u, Completes (.token p f) s u ∧ (u.port p).rxSeq = ((s.port p).rxSeq + 1) % 4096 ∧
          ((u.port p).tap 2).queue = ((s.port p).tap 2).queue ++ markLast (flitTokens f) ∧ u.tiles = s.tiles) ∧
      (f.hops ≠ 0 → ∃ u, Completes (.token p f) s u ∧ (u.port p).rxSeq = ((s.port p).rxSeq + 1) % 4096 ∧
        tget [] (u.port p).rxbuf 2 = tget [] (s.port p).rxbuf 2 ++ [f])) ∧
    (∀ t, Receives s p f 2 → f.vc = 1 → s.ringOf p = none → s.tapRec p 1 = some t →
      ∃ u, Completes (.kvtoken p f) s u ∧ (u.port p).rxSeq = ((s.port p).rxSeq + 1) % 4096 ∧
        ((u.port p).tap 1).queue = ((s.port p).tap 1).queue ++ markLast (flitTokens f) ∧ u.tiles = s.tiles) ∧
    (∀ r t, Receives s p f 2 → f.vc = 1 → s.ringOf p = some r → s.tapRec p 1 = some t →
      (s.kvExpect p r t.rtokens = (f.ring, f.kind, f.round, f.origin) →
        ∃ u, Completes (.kvtoken p f) s u ∧ (u.port p).rxSeq = ((s.port p).rxSeq + 1) % 4096 ∧
          ((u.port p).tap 1).queue = ((s.port p).tap 1).queue ++ markLast (flitTokens f) ∧ u.tiles = s.tiles) ∧
      (s.kvExpect p r t.rtokens ≠ (f.ring, f.kind, f.round, f.origin) → ∃ u, Completes (.kvtoken p f) s u ∧ Records s u 0x41)) ∧
    (Receives s p f 7 → f.vc = 0 → s.run = none →
      ∃ u, Completes (.start p f) s u ∧ (u.port p).rxSeq = ((s.port p).rxSeq + 1) % 4096 ∧
        ((u.port p).tap (fieldAt f.payload 9 1)).startRec =
          some (fieldAt f.payload 0 8, fieldAt f.payload 8 1, fieldAt f.payload 9 1, fieldAt f.payload 0x10 8)) ∧
    (∀ r, Receives s p f 8 → f.vc = 0 → s.boundTaps.find? (fun r => decide (r.port = p)) = some r →
      (let t := (s.port p).tap (tapVc r)
       (s.redn.barrier.reported = false → fieldAt f.payload 0 8 ≠ s.wp.count →
         ∃ u, Completes (.tapcount p f) s u ∧ (u.port p).rxSeq = ((s.port p).rxSeq + 1) % 4096 ∧
           ((u.port p).tap (tapVc r)).pcount = some (fieldAt f.payload 0 8, fieldAt f.payload 8 4, fieldAt f.payload 0xC 4)) ∧
       (fieldAt f.payload 0 8 = s.wp.count →
         ∃ u, Completes (.tapcount p f) s u ∧
           (fieldAt f.payload 8 4 = t.lastRecvd ∧ fieldAt f.payload 0xC 4 = t.lastSent → u.rcv = s.rcv) ∧
           (¬ (fieldAt f.payload 8 4 = t.lastRecvd ∧ fieldAt f.payload 0xC 4 = t.lastSent) → Records s u 0x40)))) ∧
    (∀ run r, s.run = some run → run.waiting = true → run.since + run.limit * 1000000 ≤ s.now →
      s.boundTaps.find? (fun r => decide (s.startMatches r run.steps ≠ some true)) = some r →
      ∃ u, Completes .startTimeout s u ∧ u.run = none ∧ u.chart = s.chart ∧ u.tiles = s.tiles ∧
        ∀ k, s.cmd run.seq = some k → k.ended = false → Ended u run.seq 0x0B r.port run.done) ∧
    (Receives s p f 9 → f.vc = 0 → s.running = true → s.rcv.phase = .idle → s.oos = false →
      ∃ u, Completes (.replay p f) s u ∧ Records s u 0x45 ∧ u.rcv.phase = .replaying ∧ u.run = s.run ∧
        u.rcv.resumeWpt = higherWpt s.wp.reg (BitVec.ofNat 64 (fieldAt f.payload 0 8))) ∧
    (Receives s p f 0x0A → f.vc = 7 → f.payload.length = 240 → bulkBytes f ≤ 224 →
      (let a := fieldAt f.payload 0 8
       (s.inDevice a (bulkBytes f) = true → s.writeRefused a (bulkBytes f) = false → (∀ k ∈ s.hi.cmds, k.opcode ≠ 1) →
         s.stackHeld 0 a (bulkBytes f) = true →
         ∃ u, Completes (.bulk p f) s u ∧ (u.port p).rxSeq = ((s.port p).rxSeq + 1) % 4096 ∧ u.mem = s.mem ∧
           u.hi.held = s.hi.held ++ [⟨.unit .link p, a, bulkBytes f, some (bytesAt f.payload 0x10 (bulkBytes f))⟩]) ∧
       (s.inDevice a (bulkBytes f) = true → s.writeRefused a (bulkBytes f) = false → (∀ k ∈ s.hi.cmds, k.opcode ≠ 1) →
         s.stackHeld 0 a (bulkBytes f) = false →
         ∃ u, Completes (.bulk p f) s u ∧ (u.port p).rxSeq = ((s.port p).rxSeq + 1) % 4096 ∧
           u.devRead a (bulkBytes f) = bytesAt f.payload 0x10 (bulkBytes f) ∧
           ∀ b, b < a ∨ a + bulkBytes f ≤ b → u.devByte b = s.devByte b) ∧
       (s.inDevice a (bulkBytes f) = false → ∃ u, Completes (.bulk p f) s u ∧ u.mem = s.mem ∧
         u.obj 0x9070 1 = satAdd 64 (s.obj 0x9070 1) 1)))

/-! ## Reset -/

/-- What the module holds before standby is applied (00 R2, R15; 11 Tables HOST-2, HOST-3; 12 R363; 13 Table PWR-5; 14 R419; 15 R432, R452), with the model's
choices where the spec gives no value: tags 0 (log 5), the variant whose objects stand at their defaults (log 1), an empty Logbook and empty key
slots (log 5). POWER_STATE STANDBY with every rail down, no chart, no RUN, no command, the BAR0 registers and WIN_STATUS 0, JOURNAL_NEXT 1, the waypoint register all
ones, every tag 0, every object at its default, the Logbook empty. -/
def Obligations.ResetState : Prop :=
  State.reset.pw.state = .standby ∧ State.reset.pw.railsUp = false ∧ State.reset.chart = none ∧ State.reset.run = none ∧
    State.reset.hi.cmds = [] ∧ State.reset.hi.intCause = 0 ∧ State.reset.hi.intEnable = 0 ∧ State.reset.hi.winBase = 0 ∧ State.reset.winStatus = 0 ∧
    State.reset.hi.jnext = 1 ∧ State.reset.modState = 0 ∧ (∀ q, State.reset.queue q = {}) ∧ State.reset.wp.reg = BitVec.allOnes 64 ∧
    (∀ k i, State.reset.tag k i = 0) ∧ (∀ i j r, j < 256 → objRow 8 i j = some r → State.reset.obj i j = r.dflt) ∧ State.reset.log = {} ∧
    (∀ p, (State.reset.port p).st = .down) ∧ State.reset.dict.opkeys = [] ∧ State.reset.pending = []
end

