-- ==== Sys2Proof/Laws/Tab.lean ====
section
/-! SUPPORT. Laws of sparse tables: what a set entry reads as, that it leaves every other entry alone, and that it keeps the
canonical form. -/

namespace Sys2Proof.Machine

variable {α : Type}

theorem tget_tdel_same (d : α) (t : Tab α) (k : Nat) : tget d (tdel t k) k = d := by
  induction t with
  | nil => rfl
  | cons e t ih =>
    by_cases h : e.1 = k
    · simpa [tdel, h] using ih
    · simpa [tdel, h, tget] using ih

theorem tget_tdel_other (d : α) (t : Tab α) {j k : Nat} (h : j ≠ k) : tget d (tdel t k) j = tget d t j := by
  induction t with
  | nil => rfl
  | cons e t ih =>
    by_cases hk : e.1 = k
    · simpa [tdel, hk, tget, Ne.symm h] using ih
    · by_cases hj : e.1 = j
      · simp [tdel, tget, hj, h]
      · simpa [tdel, hk, tget, hj] using ih

theorem tget_tinsert_same (d : α) (t : Tab α) (k : Nat) (v : α) (h : ∀ e ∈ t, e.1 ≠ k) : tget d (tinsert t k v) k = v := by
  induction t with
  | nil => simp [tinsert, tget]
  | cons e t ih =>
    by_cases hk : k < e.1
    · simp [tinsert, hk, tget]
    · simpa [tinsert, hk, tget, h e List.mem_cons_self] using ih (fun x hx => h x (List.mem_cons_of_mem _ hx))

theorem tget_tinsert_other (d : α) (t : Tab α) {j k : Nat} (v : α) (h : j ≠ k) : tget d (tinsert t k v) j = tget d t j := by
  induction t with
  | nil => simp [tinsert, tget, Ne.symm h]
  | cons e t ih =>
    obtain ⟨i, x⟩ := e
    by_cases hk : k < i
    · simp [tinsert, hk, tget, Ne.symm h]
    · by_cases hj : i = j
      · subst hj
        simp [tinsert, hk, tget]
      · simp [tinsert, hk, tget, hj, ih]

theorem key_ne_of_mem_tdel {t : Tab α} {k : Nat} {e : Nat × α} (h : e ∈ tdel t k) : e.1 ≠ k := by
  simpa using (List.mem_filter.1 h).2

variable [DecidableEq α]

/-- A set entry reads as it was set. -/
@[simp] theorem tget_tset_same (d : α) (t : Tab α) (k : Nat) (v : α) : tget d (tset d t k v) k = v := by
  unfold tset
  split
  · rw [tget_tdel_same, ‹v = d›]
  · exact tget_tinsert_same d _ k v (fun e h => key_ne_of_mem_tdel h)

/-- Every other entry reads as before. -/
theorem tget_tset_other (d : α) (t : Tab α) {j k : Nat} (v : α) (h : j ≠ k) : tget d (tset d t k v) j = tget d t j := by
  unfold tset
  split
  · exact tget_tdel_other d t h
  · rw [tget_tinsert_other d _ v h, tget_tdel_other d t h]

@[simp] theorem tget_tmod_same (d : α) (t : Tab α) (k : Nat) (f : α → α) : tget d (tmod d t k f) k = f (tget d t k) := by
  simp [tmod]

theorem tget_tmod_other (d : α) (t : Tab α) {j k : Nat} (f : α → α) (h : j ≠ k) : tget d (tmod d t k f) j = tget d t j :=
  tget_tset_other d t _ h

/-- The bound below which no key of a canonical table lies. -/
theorem tabWfFrom_lower (d : α) (lo lo' : Option Nat) (t : Tab α) (h : tabWfFrom d lo t = true)
    (hl : ∀ l, lo' = some l → ∀ e ∈ t, l < e.1) : tabWfFrom d lo' t = true := by
  cases t with
  | nil => rfl
  | cons e t =>
    obtain ⟨i, v⟩ := e
    simp only [tabWfFrom, Bool.and_eq_true] at h ⊢
    refine ⟨⟨?_, h.1.2⟩, h.2⟩
    cases lo' with
    | none => rfl
    | some l => simpa using hl l rfl (i, v) List.mem_cons_self

theorem tabWfFrom_keys (d : α) (t : Tab α) : ∀ (lo : Option Nat), tabWfFrom d lo t = true → ∀ l, lo = some l → ∀ e ∈ t, l < e.1 := by
  induction t with
  | nil => intro _ _ _ _ e he; cases he
  | cons e t ih =>
    obtain ⟨i, v⟩ := e
    rintro _ h l rfl x hx
    simp only [tabWfFrom, Bool.and_eq_true, decide_eq_true_eq] at h
    rcases List.mem_cons.1 hx with rfl | hx
    · exact h.1.1
    · exact Nat.lt_trans h.1.1 (ih (some i) h.2 i rfl x hx)

theorem tabWfFrom_tdel (d : α) (k : Nat) (t : Tab α) : ∀ (lo : Option Nat), tabWfFrom d lo t = true → tabWfFrom d lo (tdel t k) = true := by
  induction t with
  | nil => intro _ h; exact h
  | cons e t ih =>
    obtain ⟨i, v⟩ := e
    intro lo h
    have hs := h
    simp only [tabWfFrom, Bool.and_eq_true] at h
    by_cases hk : i = k
    · have : tdel ((i, v) :: t) k = tdel t k := by simp [tdel, hk]
      rw [this]
      refine tabWfFrom_lower d (some i) lo _ (ih _ h.2) (fun l hl x hx => ?_)
      exact tabWfFrom_keys d _ lo hs l hl x (List.mem_cons_of_mem _ (List.mem_filter.1 hx).1)
    · have : tdel ((i, v) :: t) k = (i, v) :: tdel t k := by simp [tdel, hk]
      rw [this]
      simp only [tabWfFrom, Bool.and_eq_true]
      exact ⟨h.1, ih _ h.2⟩

theorem tabWfFrom_tinsert (d : α) (k : Nat) (v : α) (hv : v ≠ d) (t : Tab α) : ∀ (lo : Option Nat), tabWfFrom d lo t = true →
    (∀ l, lo = some l → l < k) → (∀ e ∈ t, e.1 ≠ k) → tabWfFrom d lo (tinsert t k v) = true := by
  induction t with
  | nil =>
    intro lo _ hl _
    cases lo with
    | none => simp [tinsert, tabWfFrom, hv]
    | some l => simp [tinsert, tabWfFrom, hv, hl l rfl]
  | cons e t ih =>
    obtain ⟨i, x⟩ := e
    intro lo h hl hk
    by_cases hi : k < i
    · have h2 := h
      simp only [tabWfFrom, Bool.and_eq_true] at h
      simp only [tinsert, hi, if_true, tabWfFrom, Bool.and_eq_true, decide_eq_true_eq]
      refine ⟨⟨?_, hv⟩, ⟨trivial, by simpa using h.1.2⟩, h.2⟩
      cases lo with
      | none => trivial
      | some l => simpa using hl l rfl
    · simp only [tabWfFrom, Bool.and_eq_true] at h
      simp only [tinsert, hi, if_false, tabWfFrom, Bool.and_eq_true]
      have hik : i ≠ k := hk (i, x) List.mem_cons_self
      exact ⟨h.1, ih _ h.2 (fun l hl => by cases hl; omega) (fun y hy => hk y (List.mem_cons_of_mem _ hy))⟩

/-- A set entry keeps the canonical form. -/
theorem tabWf_tset (d : α) (t : Tab α) (k : Nat) (v : α) (h : tabWf d t = true) : tabWf d (tset d t k v) = true := by
  unfold tset tabWf
  split
  · exact tabWfFrom_tdel d k t none h
  · exact tabWfFrom_tinsert d k v ‹_› _ none (tabWfFrom_tdel d k t none h) (fun l hl => by cases hl) (fun e he => key_ne_of_mem_tdel he)

end Sys2Proof.Machine
end

