-- ==== Sys2Proof/Laws/Memory.lean ====
section
/-! SUPPORT. Laws of the byte memories: a written byte reads back, every other byte reads as before, every operation keeps the
canonical form. -/

namespace Sys2Proof.Machine

/-! ## One byte -/

@[simp] theorem Memory.blank_write (m : Memory) (a : Nat) (b : Byte) : (m.write a b).blank = m.blank := rfl
@[simp] theorem Memory.epoch_write (m : Memory) (a : Nat) (b : Byte) : (m.write a b).epoch = m.epoch := rfl

@[simp] theorem Memory.read_write_same (m : Memory) (a : Nat) (b : Byte) : (m.write a b).read a = b :=
  tget_tset_same _ _ _ _

theorem Memory.read_write_other (m : Memory) {a c : Nat} (b : Byte) (h : c ≠ a) : (m.write a b).read c = m.read c := by
  simp only [Memory.read, Memory.blank_write]
  rw [Memory.write]
  -- the default differs from address to address: only the table's entries are compared
  unfold tset
  split
  · exact tget_tdel_other _ _ h
  · rw [tget_tinsert_other _ _ _ h, tget_tdel_other _ _ h]

/-! ## The canonical form -/

theorem Memory.wfFrom_keys (m : Memory) (t : List Host.Cell) :
    ∀ lo, m.wfFrom lo t = true → ∀ l, lo = some l → ∀ e ∈ t, l < e.1 := by
  induction t with
  | nil => intro _ _ _ _ e he; cases he
  | cons e t ih =>
    obtain ⟨i, v⟩ := e
    rintro _ h l rfl x hx
    simp only [Memory.wfFrom, Bool.and_eq_true, decide_eq_true_eq] at h
    rcases List.mem_cons.1 hx with rfl | hx
    · exact h.1.1
    · exact Nat.lt_trans h.1.1 (ih (some i) h.2 i rfl x hx)

theorem Memory.wfFrom_lower (m : Memory) (lo lo' : Option Nat) (t : List Host.Cell) (h : m.wfFrom lo t = true)
    (hl : ∀ l, lo' = some l → ∀ e ∈ t, l < e.1) : m.wfFrom lo' t = true := by
  cases t with
  | nil => rfl
  | cons e t =>
    obtain ⟨i, v⟩ := e
    simp only [Memory.wfFrom, Bool.and_eq_true] at h ⊢
    refine ⟨⟨?_, h.1.2⟩, h.2⟩
    cases lo' with
    | none => rfl
    | some l => simpa using hl l rfl (i, v) List.mem_cons_self

theorem Memory.wfFrom_tdel (m : Memory) (k : Nat) (t : List Host.Cell) :
    ∀ lo, m.wfFrom lo t = true → m.wfFrom lo (tdel t k) = true := by
  induction t with
  | nil => intro _ h; exact h
  | cons e t ih =>
    obtain ⟨i, v⟩ := e
    intro lo h
    have hs := h
    simp only [Memory.wfFrom, Bool.and_eq_true] at h
    by_cases hk : i = k
    · rw [show tdel ((i, v) :: t) k = tdel t k by simp [tdel, hk]]
      exact m.wfFrom_lower (some i) lo _ (ih _ h.2) (fun l hl x hx =>
        m.wfFrom_keys _ lo hs l hl x (List.mem_cons_of_mem _ (List.mem_filter.1 hx).1))
    · rw [show tdel ((i, v) :: t) k = (i, v) :: tdel t k by simp [tdel, hk]]
      simp only [Memory.wfFrom, Bool.and_eq_true]
      exact ⟨h.1, ih _ h.2⟩

theorem Memory.wfFrom_tinsert (m : Memory) (k : Nat) (v : Byte) (hv : v ≠ m.blank k) (t : List Host.Cell) :
    ∀ lo, m.wfFrom lo t = true → (∀ l, lo = some l → l < k) → (∀ e ∈ t, e.1 ≠ k) → m.wfFrom lo (tinsert t k v) = true := by
  induction t with
  | nil =>
    intro lo _ hl _
    cases lo with
    | none => simp [tinsert, Memory.wfFrom, hv]
    | some l => simp [tinsert, Memory.wfFrom, hv, hl l rfl]
  | cons e t ih =>
    obtain ⟨i, x⟩ := e
    intro lo h hl hk
    simp only [Memory.wfFrom, Bool.and_eq_true] at h
    by_cases hi : k < i
    · simp only [tinsert, hi, if_true, Memory.wfFrom, Bool.and_eq_true, decide_eq_true_eq]
      refine ⟨⟨?_, hv⟩, ⟨trivial, by simpa using h.1.2⟩, h.2⟩
      cases lo with
      | none => trivial
      | some l => simpa using hl l rfl
    · simp only [tinsert, hi, if_false, Memory.wfFrom, Bool.and_eq_true]
      have hik : i ≠ k := hk (i, x) List.mem_cons_self
      exact ⟨h.1, ih _ h.2 (fun l hl => by cases hl; omega) (fun y hy => hk y (List.mem_cons_of_mem _ hy))⟩

/-- The canonical form depends on the lost contents' number alone. -/
theorem Memory.wfFrom_epoch (m n : Memory) (h : m.epoch = n.epoch) (t : List Host.Cell) : ∀ lo, m.wfFrom lo t = n.wfFrom lo t := by
  induction t with
  | nil => intro _; rfl
  | cons e t ih =>
    intro lo
    have hb : m.blank = n.blank := by funext a; simp [Memory.blank, h]
    simp only [Memory.wfFrom, hb, ih]

/-- A byte written keeps the canonical form. -/
theorem Memory.wf_write (m : Memory) (a : Nat) (b : Byte) (h : m.wf = true) : (m.write a b).wf = true := by
  unfold Memory.wf at h ⊢
  rw [(m.write a b).wfFrom_epoch m rfl]
  simp only [Memory.write, tset]
  split
  · exact m.wfFrom_tdel a _ none h
  · exact m.wfFrom_tinsert a b ‹_› _ none (m.wfFrom_tdel a _ none h) (fun l hl => by cases hl) (fun e he => key_ne_of_mem_tdel he)

/-- A list of bytes written keeps the canonical form. -/
theorem Memory.wf_writeN (bs : List Byte) : ∀ (m : Memory) (a : Nat), m.wf = true → (m.writeN a bs).wf = true := by
  induction bs with
  | nil => intro m _ h; exact h
  | cons b bs ih => intro m a h; exact ih _ _ (m.wf_write a b h)

/-- A memory that has lost its contents is in canonical form, and so is the empty one. -/
@[simp] theorem Memory.wf_lost (n : Nat) : (Memory.lost n).wf = true := rfl
@[simp] theorem Memory.wf_empty : ({} : Memory).wf = true := rfl

/-! ## Device memory and the state -/

/-- A write of device memory keeps every memory canonical. -/
theorem MemoriesWf.devPut {s : State} (h : MemoriesWf s) (a : Nat) (b : Byte) : MemoriesWf (s.devPut a b) := by
  unfold State.devPut
  split
  · exact ⟨h.1, Memory.wf_write _ a b h.2.1, h.2.2⟩
  · exact ⟨Memory.wf_write _ a b h.1, h.2⟩

theorem MemoriesWf.devWrite (bs : List Byte) : ∀ {s : State} (a : Nat), MemoriesWf s → MemoriesWf (s.devWrite a bs) := by
  induction bs with
  | nil => intro _ _ h; exact h
  | cons b bs ih => intro s a h; exact ih _ (h.devPut a b)

theorem MemoriesWf.loseMemory {s : State} (h : MemoriesWf s) : MemoriesWf s.loseMemory := ⟨rfl, rfl, h.2.2⟩

/-- Memories that are the same are canonical together. -/
theorem MemoriesWf.congr {s u : State} (h : MemoriesWf s) (hm : u.mem = s.mem) (hj : u.jmem = s.jmem) (hh : u.hostMem = s.hostMem)
    (hl : u.helm = s.helm) : MemoriesWf u := by
  unfold MemoriesWf
  rw [hm, hj, hh, hl]
  exact h

/-- A byte of device memory put reads back, every other byte reads as before. -/
@[simp] theorem devByte_devPut_same (s : State) (a : Nat) (b : Byte) : (s.devPut a b).devByte a = b := by
  unfold State.devPut State.devByte
  by_cases h : inJournal a = true <;> simp [h]

theorem devByte_devPut_other (s : State) {a c : Nat} (b : Byte) (h : c ≠ a) : (s.devPut a b).devByte c = s.devByte c := by
  unfold State.devPut State.devByte
  by_cases ha : inJournal a = true <;> by_cases hc : inJournal c = true <;> simp [ha, hc, Memory.read_write_other _ _ h]

/-- A write of device memory changes device memory alone. -/
theorem devPut_frame (s : State) (a : Nat) (b : Byte) : { s.devPut a b with mem := s.mem, jmem := s.jmem } = s := by
  unfold State.devPut
  split <;> rfl

end Sys2Proof.Machine
end

