-- ==== Sys2Proof/Laws/State.lean ====
section
/-! SUPPORT. Laws of the state's updates: each leaves every other field as it was, and what it sets reads back. -/

namespace Sys2Proof.Machine

/-! ## setTile -/

@[simp] theorem State.setTile_pending (s : State) (t : Nat) (x : Tile) : (s.setTile t x).pending = s.pending := rfl
@[simp] theorem State.setTile_freeCount (s : State) (t : Nat) (x : Tile) : (s.setTile t x).freeCount = s.freeCount := rfl
@[simp] theorem State.setTile_variant (s : State) (t : Nat) (x : Tile) : (s.setTile t x).variant = s.variant := rfl
@[simp] theorem State.setTile_serial (s : State) (t : Nat) (x : Tile) : (s.setTile t x).serial = s.serial := rfl
@[simp] theorem State.setTile_pw (s : State) (t : Nat) (x : Tile) : (s.setTile t x).pw = s.pw := rfl
@[simp] theorem State.setTile_hi (s : State) (t : Nat) (x : Tile) : (s.setTile t x).hi = s.hi := rfl
@[simp] theorem State.setTile_dict (s : State) (t : Nat) (x : Tile) : (s.setTile t x).dict = s.dict := rfl
@[simp] theorem State.setTile_helm (s : State) (t : Nat) (x : Tile) : (s.setTile t x).helm = s.helm := rfl
@[simp] theorem State.setTile_log (s : State) (t : Nat) (x : Tile) : (s.setTile t x).log = s.log := rfl
@[simp] theorem State.setTile_chart (s : State) (t : Nat) (x : Tile) : (s.setTile t x).chart = s.chart := rfl
@[simp] theorem State.setTile_run (s : State) (t : Nat) (x : Tile) : (s.setTile t x).run = s.run := rfl
@[simp] theorem State.setTile_wp (s : State) (t : Nat) (x : Tile) : (s.setTile t x).wp = s.wp := rfl
@[simp] theorem State.setTile_transom (s : State) (t : Nat) (x : Tile) : (s.setTile t x).transom = s.transom := rfl
@[simp] theorem State.setTile_regions (s : State) (t : Nat) (x : Tile) : (s.setTile t x).regions = s.regions := rfl
@[simp] theorem State.setTile_streams (s : State) (t : Nat) (x : Tile) : (s.setTile t x).streams = s.streams := rfl
@[simp] theorem State.setTile_upd (s : State) (t : Nat) (x : Tile) : (s.setTile t x).upd = s.upd := rfl
@[simp] theorem State.setTile_redn (s : State) (t : Nat) (x : Tile) : (s.setTile t x).redn = s.redn := rfl
@[simp] theorem State.setTile_link (s : State) (t : Nat) (x : Tile) : (s.setTile t x).link = s.link := rfl
@[simp] theorem State.setTile_rcv (s : State) (t : Nat) (x : Tile) : (s.setTile t x).rcv = s.rcv := rfl
@[simp] theorem State.setTile_mem (s : State) (t : Nat) (x : Tile) : (s.setTile t x).mem = s.mem := rfl
@[simp] theorem State.setTile_jmem (s : State) (t : Nat) (x : Tile) : (s.setTile t x).jmem = s.jmem := rfl
@[simp] theorem State.setTile_hostMem (s : State) (t : Nat) (x : Tile) : (s.setTile t x).hostMem = s.hostMem := rfl

/-! ## setRegion -/

@[simp] theorem State.setRegion_pending (s : State) (r : Nat) (x : Region) : (s.setRegion r x).pending = s.pending := rfl
@[simp] theorem State.setRegion_freeCount (s : State) (r : Nat) (x : Region) : (s.setRegion r x).freeCount = s.freeCount := rfl
@[simp] theorem State.setRegion_variant (s : State) (r : Nat) (x : Region) : (s.setRegion r x).variant = s.variant := rfl
@[simp] theorem State.setRegion_serial (s : State) (r : Nat) (x : Region) : (s.setRegion r x).serial = s.serial := rfl
@[simp] theorem State.setRegion_pw (s : State) (r : Nat) (x : Region) : (s.setRegion r x).pw = s.pw := rfl
@[simp] theorem State.setRegion_hi (s : State) (r : Nat) (x : Region) : (s.setRegion r x).hi = s.hi := rfl
@[simp] theorem State.setRegion_dict (s : State) (r : Nat) (x : Region) : (s.setRegion r x).dict = s.dict := rfl
@[simp] theorem State.setRegion_helm (s : State) (r : Nat) (x : Region) : (s.setRegion r x).helm = s.helm := rfl
@[simp] theorem State.setRegion_log (s : State) (r : Nat) (x : Region) : (s.setRegion r x).log = s.log := rfl
@[simp] theorem State.setRegion_chart (s : State) (r : Nat) (x : Region) : (s.setRegion r x).chart = s.chart := rfl
@[simp] theorem State.setRegion_run (s : State) (r : Nat) (x : Region) : (s.setRegion r x).run = s.run := rfl
@[simp] theorem State.setRegion_wp (s : State) (r : Nat) (x : Region) : (s.setRegion r x).wp = s.wp := rfl
@[simp] theorem State.setRegion_tiles (s : State) (r : Nat) (x : Region) : (s.setRegion r x).tiles = s.tiles := rfl
@[simp] theorem State.setRegion_transom (s : State) (r : Nat) (x : Region) : (s.setRegion r x).transom = s.transom := rfl
@[simp] theorem State.setRegion_streams (s : State) (r : Nat) (x : Region) : (s.setRegion r x).streams = s.streams := rfl
@[simp] theorem State.setRegion_upd (s : State) (r : Nat) (x : Region) : (s.setRegion r x).upd = s.upd := rfl
@[simp] theorem State.setRegion_redn (s : State) (r : Nat) (x : Region) : (s.setRegion r x).redn = s.redn := rfl
@[simp] theorem State.setRegion_link (s : State) (r : Nat) (x : Region) : (s.setRegion r x).link = s.link := rfl
@[simp] theorem State.setRegion_rcv (s : State) (r : Nat) (x : Region) : (s.setRegion r x).rcv = s.rcv := rfl
@[simp] theorem State.setRegion_mem (s : State) (r : Nat) (x : Region) : (s.setRegion r x).mem = s.mem := rfl
@[simp] theorem State.setRegion_jmem (s : State) (r : Nat) (x : Region) : (s.setRegion r x).jmem = s.jmem := rfl
@[simp] theorem State.setRegion_hostMem (s : State) (r : Nat) (x : Region) : (s.setRegion r x).hostMem = s.hostMem := rfl

/-! ## setTstream -/

@[simp] theorem State.setTstream_pending (s : State) (i : Nat) (x : TStream) : (s.setTstream i x).pending = s.pending := rfl
@[simp] theorem State.setTstream_freeCount (s : State) (i : Nat) (x : TStream) : (s.setTstream i x).freeCount = s.freeCount := rfl
@[simp] theorem State.setTstream_variant (s : State) (i : Nat) (x : TStream) : (s.setTstream i x).variant = s.variant := rfl
@[simp] theorem State.setTstream_serial (s : State) (i : Nat) (x : TStream) : (s.setTstream i x).serial = s.serial := rfl
@[simp] theorem State.setTstream_pw (s : State) (i : Nat) (x : TStream) : (s.setTstream i x).pw = s.pw := rfl
@[simp] theorem State.setTstream_hi (s : State) (i : Nat) (x : TStream) : (s.setTstream i x).hi = s.hi := rfl
@[simp] theorem State.setTstream_dict (s : State) (i : Nat) (x : TStream) : (s.setTstream i x).dict = s.dict := rfl
@[simp] theorem State.setTstream_helm (s : State) (i : Nat) (x : TStream) : (s.setTstream i x).helm = s.helm := rfl
@[simp] theorem State.setTstream_log (s : State) (i : Nat) (x : TStream) : (s.setTstream i x).log = s.log := rfl
@[simp] theorem State.setTstream_chart (s : State) (i : Nat) (x : TStream) : (s.setTstream i x).chart = s.chart := rfl
@[simp] theorem State.setTstream_run (s : State) (i : Nat) (x : TStream) : (s.setTstream i x).run = s.run := rfl
@[simp] theorem State.setTstream_wp (s : State) (i : Nat) (x : TStream) : (s.setTstream i x).wp = s.wp := rfl
@[simp] theorem State.setTstream_tiles (s : State) (i : Nat) (x : TStream) : (s.setTstream i x).tiles = s.tiles := rfl
@[simp] theorem State.setTstream_transom (s : State) (i : Nat) (x : TStream) : (s.setTstream i x).transom = s.transom := rfl
@[simp] theorem State.setTstream_regions (s : State) (i : Nat) (x : TStream) : (s.setTstream i x).regions = s.regions := rfl
@[simp] theorem State.setTstream_upd (s : State) (i : Nat) (x : TStream) : (s.setTstream i x).upd = s.upd := rfl
@[simp] theorem State.setTstream_redn (s : State) (i : Nat) (x : TStream) : (s.setTstream i x).redn = s.redn := rfl
@[simp] theorem State.setTstream_link (s : State) (i : Nat) (x : TStream) : (s.setTstream i x).link = s.link := rfl
@[simp] theorem State.setTstream_rcv (s : State) (i : Nat) (x : TStream) : (s.setTstream i x).rcv = s.rcv := rfl
@[simp] theorem State.setTstream_mem (s : State) (i : Nat) (x : TStream) : (s.setTstream i x).mem = s.mem := rfl
@[simp] theorem State.setTstream_jmem (s : State) (i : Nat) (x : TStream) : (s.setTstream i x).jmem = s.jmem := rfl
@[simp] theorem State.setTstream_hostMem (s : State) (i : Nat) (x : TStream) : (s.setTstream i x).hostMem = s.hostMem := rfl

/-! ## setRpw -/

@[simp] theorem State.setRpw_pending (s : State) (pr : Nat) (x : RegionPw) : (s.setRpw pr x).pending = s.pending := rfl
@[simp] theorem State.setRpw_freeCount (s : State) (pr : Nat) (x : RegionPw) : (s.setRpw pr x).freeCount = s.freeCount := rfl
@[simp] theorem State.setRpw_variant (s : State) (pr : Nat) (x : RegionPw) : (s.setRpw pr x).variant = s.variant := rfl
@[simp] theorem State.setRpw_serial (s : State) (pr : Nat) (x : RegionPw) : (s.setRpw pr x).serial = s.serial := rfl
@[simp] theorem State.setRpw_hi (s : State) (pr : Nat) (x : RegionPw) : (s.setRpw pr x).hi = s.hi := rfl
@[simp] theorem State.setRpw_dict (s : State) (pr : Nat) (x : RegionPw) : (s.setRpw pr x).dict = s.dict := rfl
@[simp] theorem State.setRpw_helm (s : State) (pr : Nat) (x : RegionPw) : (s.setRpw pr x).helm = s.helm := rfl
@[simp] theorem State.setRpw_log (s : State) (pr : Nat) (x : RegionPw) : (s.setRpw pr x).log = s.log := rfl
@[simp] theorem State.setRpw_chart (s : State) (pr : Nat) (x : RegionPw) : (s.setRpw pr x).chart = s.chart := rfl
@[simp] theorem State.setRpw_run (s : State) (pr : Nat) (x : RegionPw) : (s.setRpw pr x).run = s.run := rfl
@[simp] theorem State.setRpw_wp (s : State) (pr : Nat) (x : RegionPw) : (s.setRpw pr x).wp = s.wp := rfl
@[simp] theorem State.setRpw_tiles (s : State) (pr : Nat) (x : RegionPw) : (s.setRpw pr x).tiles = s.tiles := rfl
@[simp] theorem State.setRpw_transom (s : State) (pr : Nat) (x : RegionPw) : (s.setRpw pr x).transom = s.transom := rfl
@[simp] theorem State.setRpw_regions (s : State) (pr : Nat) (x : RegionPw) : (s.setRpw pr x).regions = s.regions := rfl
@[simp] theorem State.setRpw_streams (s : State) (pr : Nat) (x : RegionPw) : (s.setRpw pr x).streams = s.streams := rfl
@[simp] theorem State.setRpw_upd (s : State) (pr : Nat) (x : RegionPw) : (s.setRpw pr x).upd = s.upd := rfl
@[simp] theorem State.setRpw_redn (s : State) (pr : Nat) (x : RegionPw) : (s.setRpw pr x).redn = s.redn := rfl
@[simp] theorem State.setRpw_link (s : State) (pr : Nat) (x : RegionPw) : (s.setRpw pr x).link = s.link := rfl
@[simp] theorem State.setRpw_rcv (s : State) (pr : Nat) (x : RegionPw) : (s.setRpw pr x).rcv = s.rcv := rfl
@[simp] theorem State.setRpw_mem (s : State) (pr : Nat) (x : RegionPw) : (s.setRpw pr x).mem = s.mem := rfl
@[simp] theorem State.setRpw_jmem (s : State) (pr : Nat) (x : RegionPw) : (s.setRpw pr x).jmem = s.jmem := rfl
@[simp] theorem State.setRpw_hostMem (s : State) (pr : Nat) (x : RegionPw) : (s.setRpw pr x).hostMem = s.hostMem := rfl

/-! ## setQueue -/

@[simp] theorem State.setQueue_pending (s : State) (q : Nat) (x : Queue) : (s.setQueue q x).pending = s.pending := rfl
@[simp] theorem State.setQueue_freeCount (s : State) (q : Nat) (x : Queue) : (s.setQueue q x).freeCount = s.freeCount := rfl
@[simp] theorem State.setQueue_variant (s : State) (q : Nat) (x : Queue) : (s.setQueue q x).variant = s.variant := rfl
@[simp] theorem State.setQueue_serial (s : State) (q : Nat) (x : Queue) : (s.setQueue q x).serial = s.serial := rfl
@[simp] theorem State.setQueue_pw (s : State) (q : Nat) (x : Queue) : (s.setQueue q x).pw = s.pw := rfl
@[simp] theorem State.setQueue_dict (s : State) (q : Nat) (x : Queue) : (s.setQueue q x).dict = s.dict := rfl
@[simp] theorem State.setQueue_helm (s : State) (q : Nat) (x : Queue) : (s.setQueue q x).helm = s.helm := rfl
@[simp] theorem State.setQueue_log (s : State) (q : Nat) (x : Queue) : (s.setQueue q x).log = s.log := rfl
@[simp] theorem State.setQueue_chart (s : State) (q : Nat) (x : Queue) : (s.setQueue q x).chart = s.chart := rfl
@[simp] theorem State.setQueue_run (s : State) (q : Nat) (x : Queue) : (s.setQueue q x).run = s.run := rfl
@[simp] theorem State.setQueue_wp (s : State) (q : Nat) (x : Queue) : (s.setQueue q x).wp = s.wp := rfl
@[simp] theorem State.setQueue_tiles (s : State) (q : Nat) (x : Queue) : (s.setQueue q x).tiles = s.tiles := rfl
@[simp] theorem State.setQueue_transom (s : State) (q : Nat) (x : Queue) : (s.setQueue q x).transom = s.transom := rfl
@[simp] theorem State.setQueue_regions (s : State) (q : Nat) (x : Queue) : (s.setQueue q x).regions = s.regions := rfl
@[simp] theorem State.setQueue_streams (s : State) (q : Nat) (x : Queue) : (s.setQueue q x).streams = s.streams := rfl
@[simp] theorem State.setQueue_upd (s : State) (q : Nat) (x : Queue) : (s.setQueue q x).upd = s.upd := rfl
@[simp] theorem State.setQueue_redn (s : State) (q : Nat) (x : Queue) : (s.setQueue q x).redn = s.redn := rfl
@[simp] theorem State.setQueue_link (s : State) (q : Nat) (x : Queue) : (s.setQueue q x).link = s.link := rfl
@[simp] theorem State.setQueue_rcv (s : State) (q : Nat) (x : Queue) : (s.setQueue q x).rcv = s.rcv := rfl
@[simp] theorem State.setQueue_mem (s : State) (q : Nat) (x : Queue) : (s.setQueue q x).mem = s.mem := rfl
@[simp] theorem State.setQueue_jmem (s : State) (q : Nat) (x : Queue) : (s.setQueue q x).jmem = s.jmem := rfl
@[simp] theorem State.setQueue_hostMem (s : State) (q : Nat) (x : Queue) : (s.setQueue q x).hostMem = s.hostMem := rfl

/-! ## setUnit -/

@[simp] theorem State.setUnit_pending (s : State) (n : Nat) (x : UpdUnit) : (s.setUnit n x).pending = s.pending := rfl
@[simp] theorem State.setUnit_freeCount (s : State) (n : Nat) (x : UpdUnit) : (s.setUnit n x).freeCount = s.freeCount := rfl
@[simp] theorem State.setUnit_variant (s : State) (n : Nat) (x : UpdUnit) : (s.setUnit n x).variant = s.variant := rfl
@[simp] theorem State.setUnit_serial (s : State) (n : Nat) (x : UpdUnit) : (s.setUnit n x).serial = s.serial := rfl
@[simp] theorem State.setUnit_pw (s : State) (n : Nat) (x : UpdUnit) : (s.setUnit n x).pw = s.pw := rfl
@[simp] theorem State.setUnit_hi (s : State) (n : Nat) (x : UpdUnit) : (s.setUnit n x).hi = s.hi := rfl
@[simp] theorem State.setUnit_dict (s : State) (n : Nat) (x : UpdUnit) : (s.setUnit n x).dict = s.dict := rfl
@[simp] theorem State.setUnit_helm (s : State) (n : Nat) (x : UpdUnit) : (s.setUnit n x).helm = s.helm := rfl
@[simp] theorem State.setUnit_log (s : State) (n : Nat) (x : UpdUnit) : (s.setUnit n x).log = s.log := rfl
@[simp] theorem State.setUnit_chart (s : State) (n : Nat) (x : UpdUnit) : (s.setUnit n x).chart = s.chart := rfl
@[simp] theorem State.setUnit_run (s : State) (n : Nat) (x : UpdUnit) : (s.setUnit n x).run = s.run := rfl
@[simp] theorem State.setUnit_wp (s : State) (n : Nat) (x : UpdUnit) : (s.setUnit n x).wp = s.wp := rfl
@[simp] theorem State.setUnit_tiles (s : State) (n : Nat) (x : UpdUnit) : (s.setUnit n x).tiles = s.tiles := rfl
@[simp] theorem State.setUnit_transom (s : State) (n : Nat) (x : UpdUnit) : (s.setUnit n x).transom = s.transom := rfl
@[simp] theorem State.setUnit_regions (s : State) (n : Nat) (x : UpdUnit) : (s.setUnit n x).regions = s.regions := rfl
@[simp] theorem State.setUnit_streams (s : State) (n : Nat) (x : UpdUnit) : (s.setUnit n x).streams = s.streams := rfl
@[simp] theorem State.setUnit_redn (s : State) (n : Nat) (x : UpdUnit) : (s.setUnit n x).redn = s.redn := rfl
@[simp] theorem State.setUnit_link (s : State) (n : Nat) (x : UpdUnit) : (s.setUnit n x).link = s.link := rfl
@[simp] theorem State.setUnit_rcv (s : State) (n : Nat) (x : UpdUnit) : (s.setUnit n x).rcv = s.rcv := rfl
@[simp] theorem State.setUnit_mem (s : State) (n : Nat) (x : UpdUnit) : (s.setUnit n x).mem = s.mem := rfl
@[simp] theorem State.setUnit_jmem (s : State) (n : Nat) (x : UpdUnit) : (s.setUnit n x).jmem = s.jmem := rfl
@[simp] theorem State.setUnit_hostMem (s : State) (n : Nat) (x : UpdUnit) : (s.setUnit n x).hostMem = s.hostMem := rfl

/-! ## setPort -/

@[simp] theorem State.setPort_pending (s : State) (p : Nat) (x : Port) : (s.setPort p x).pending = s.pending := rfl
@[simp] theorem State.setPort_freeCount (s : State) (p : Nat) (x : Port) : (s.setPort p x).freeCount = s.freeCount := rfl
@[simp] theorem State.setPort_variant (s : State) (p : Nat) (x : Port) : (s.setPort p x).variant = s.variant := rfl
@[simp] theorem State.setPort_serial (s : State) (p : Nat) (x : Port) : (s.setPort p x).serial = s.serial := rfl
@[simp] theorem State.setPort_pw (s : State) (p : Nat) (x : Port) : (s.setPort p x).pw = s.pw := rfl
@[simp] theorem State.setPort_hi (s : State) (p : Nat) (x : Port) : (s.setPort p x).hi = s.hi := rfl
@[simp] theorem State.setPort_dict (s : State) (p : Nat) (x : Port) : (s.setPort p x).dict = s.dict := rfl
@[simp] theorem State.setPort_helm (s : State) (p : Nat) (x : Port) : (s.setPort p x).helm = s.helm := rfl
@[simp] theorem State.setPort_log (s : State) (p : Nat) (x : Port) : (s.setPort p x).log = s.log := rfl
@[simp] theorem State.setPort_chart (s : State) (p : Nat) (x : Port) : (s.setPort p x).chart = s.chart := rfl
@[simp] theorem State.setPort_run (s : State) (p : Nat) (x : Port) : (s.setPort p x).run = s.run := rfl
@[simp] theorem State.setPort_wp (s : State) (p : Nat) (x : Port) : (s.setPort p x).wp = s.wp := rfl
@[simp] theorem State.setPort_tiles (s : State) (p : Nat) (x : Port) : (s.setPort p x).tiles = s.tiles := rfl
@[simp] theorem State.setPort_transom (s : State) (p : Nat) (x : Port) : (s.setPort p x).transom = s.transom := rfl
@[simp] theorem State.setPort_regions (s : State) (p : Nat) (x : Port) : (s.setPort p x).regions = s.regions := rfl
@[simp] theorem State.setPort_streams (s : State) (p : Nat) (x : Port) : (s.setPort p x).streams = s.streams := rfl
@[simp] theorem State.setPort_upd (s : State) (p : Nat) (x : Port) : (s.setPort p x).upd = s.upd := rfl
@[simp] theorem State.setPort_redn (s : State) (p : Nat) (x : Port) : (s.setPort p x).redn = s.redn := rfl
@[simp] theorem State.setPort_rcv (s : State) (p : Nat) (x : Port) : (s.setPort p x).rcv = s.rcv := rfl
@[simp] theorem State.setPort_mem (s : State) (p : Nat) (x : Port) : (s.setPort p x).mem = s.mem := rfl
@[simp] theorem State.setPort_jmem (s : State) (p : Nat) (x : Port) : (s.setPort p x).jmem = s.jmem := rfl
@[simp] theorem State.setPort_hostMem (s : State) (p : Nat) (x : Port) : (s.setPort p x).hostMem = s.hostMem := rfl

/-! ## setObj -/

@[simp] theorem State.setObj_pending (s : State) (idx sub v : Nat) : (s.setObj idx sub v).pending = s.pending := rfl
@[simp] theorem State.setObj_freeCount (s : State) (idx sub v : Nat) : (s.setObj idx sub v).freeCount = s.freeCount := rfl
@[simp] theorem State.setObj_variant (s : State) (idx sub v : Nat) : (s.setObj idx sub v).variant = s.variant := rfl
@[simp] theorem State.setObj_serial (s : State) (idx sub v : Nat) : (s.setObj idx sub v).serial = s.serial := rfl
@[simp] theorem State.setObj_pw (s : State) (idx sub v : Nat) : (s.setObj idx sub v).pw = s.pw := rfl
@[simp] theorem State.setObj_hi (s : State) (idx sub v : Nat) : (s.setObj idx sub v).hi = s.hi := rfl
@[simp] theorem State.setObj_helm (s : State) (idx sub v : Nat) : (s.setObj idx sub v).helm = s.helm := rfl
@[simp] theorem State.setObj_log (s : State) (idx sub v : Nat) : (s.setObj idx sub v).log = s.log := rfl
@[simp] theorem State.setObj_chart (s : State) (idx sub v : Nat) : (s.setObj idx sub v).chart = s.chart := rfl
@[simp] theorem State.setObj_run (s : State) (idx sub v : Nat) : (s.setObj idx sub v).run = s.run := rfl
@[simp] theorem State.setObj_wp (s : State) (idx sub v : Nat) : (s.setObj idx sub v).wp = s.wp := rfl
@[simp] theorem State.setObj_tiles (s : State) (idx sub v : Nat) : (s.setObj idx sub v).tiles = s.tiles := rfl
@[simp] theorem State.setObj_transom (s : State) (idx sub v : Nat) : (s.setObj idx sub v).transom = s.transom := rfl
@[simp] theorem State.setObj_regions (s : State) (idx sub v : Nat) : (s.setObj idx sub v).regions = s.regions := rfl
@[simp] theorem State.setObj_streams (s : State) (idx sub v : Nat) : (s.setObj idx sub v).streams = s.streams := rfl
@[simp] theorem State.setObj_upd (s : State) (idx sub v : Nat) : (s.setObj idx sub v).upd = s.upd := rfl
@[simp] theorem State.setObj_redn (s : State) (idx sub v : Nat) : (s.setObj idx sub v).redn = s.redn := rfl
@[simp] theorem State.setObj_link (s : State) (idx sub v : Nat) : (s.setObj idx sub v).link = s.link := rfl
@[simp] theorem State.setObj_rcv (s : State) (idx sub v : Nat) : (s.setObj idx sub v).rcv = s.rcv := rfl
@[simp] theorem State.setObj_mem (s : State) (idx sub v : Nat) : (s.setObj idx sub v).mem = s.mem := rfl
@[simp] theorem State.setObj_jmem (s : State) (idx sub v : Nat) : (s.setObj idx sub v).jmem = s.jmem := rfl
@[simp] theorem State.setObj_hostMem (s : State) (idx sub v : Nat) : (s.setObj idx sub v).hostMem = s.hostMem := rfl

/-! ## setCmds -/

@[simp] theorem State.setCmds_pending (s : State) (cs : List Cmd) : (s.setCmds cs).pending = s.pending := rfl
@[simp] theorem State.setCmds_freeCount (s : State) (cs : List Cmd) : (s.setCmds cs).freeCount = s.freeCount := rfl
@[simp] theorem State.setCmds_variant (s : State) (cs : List Cmd) : (s.setCmds cs).variant = s.variant := rfl
@[simp] theorem State.setCmds_serial (s : State) (cs : List Cmd) : (s.setCmds cs).serial = s.serial := rfl
@[simp] theorem State.setCmds_pw (s : State) (cs : List Cmd) : (s.setCmds cs).pw = s.pw := rfl
@[simp] theorem State.setCmds_dict (s : State) (cs : List Cmd) : (s.setCmds cs).dict = s.dict := rfl
@[simp] theorem State.setCmds_helm (s : State) (cs : List Cmd) : (s.setCmds cs).helm = s.helm := rfl
@[simp] theorem State.setCmds_log (s : State) (cs : List Cmd) : (s.setCmds cs).log = s.log := rfl
@[simp] theorem State.setCmds_chart (s : State) (cs : List Cmd) : (s.setCmds cs).chart = s.chart := rfl
@[simp] theorem State.setCmds_run (s : State) (cs : List Cmd) : (s.setCmds cs).run = s.run := rfl
@[simp] theorem State.setCmds_wp (s : State) (cs : List Cmd) : (s.setCmds cs).wp = s.wp := rfl
@[simp] theorem State.setCmds_tiles (s : State) (cs : List Cmd) : (s.setCmds cs).tiles = s.tiles := rfl
@[simp] theorem State.setCmds_transom (s : State) (cs : List Cmd) : (s.setCmds cs).transom = s.transom := rfl
@[simp] theorem State.setCmds_regions (s : State) (cs : List Cmd) : (s.setCmds cs).regions = s.regions := rfl
@[simp] theorem State.setCmds_streams (s : State) (cs : List Cmd) : (s.setCmds cs).streams = s.streams := rfl
@[simp] theorem State.setCmds_upd (s : State) (cs : List Cmd) : (s.setCmds cs).upd = s.upd := rfl
@[simp] theorem State.setCmds_redn (s : State) (cs : List Cmd) : (s.setCmds cs).redn = s.redn := rfl
@[simp] theorem State.setCmds_link (s : State) (cs : List Cmd) : (s.setCmds cs).link = s.link := rfl
@[simp] theorem State.setCmds_rcv (s : State) (cs : List Cmd) : (s.setCmds cs).rcv = s.rcv := rfl
@[simp] theorem State.setCmds_mem (s : State) (cs : List Cmd) : (s.setCmds cs).mem = s.mem := rfl
@[simp] theorem State.setCmds_jmem (s : State) (cs : List Cmd) : (s.setCmds cs).jmem = s.jmem := rfl
@[simp] theorem State.setCmds_hostMem (s : State) (cs : List Cmd) : (s.setCmds cs).hostMem = s.hostMem := rfl

/-! ## setRedn -/

@[simp] theorem State.setRedn_pending (s : State) (x : Redn) : (s.setRedn x).pending = s.pending := rfl
@[simp] theorem State.setRedn_freeCount (s : State) (x : Redn) : (s.setRedn x).freeCount = s.freeCount := rfl
@[simp] theorem State.setRedn_variant (s : State) (x : Redn) : (s.setRedn x).variant = s.variant := rfl
@[simp] theorem State.setRedn_serial (s : State) (x : Redn) : (s.setRedn x).serial = s.serial := rfl
@[simp] theorem State.setRedn_pw (s : State) (x : Redn) : (s.setRedn x).pw = s.pw := rfl
@[simp] theorem State.setRedn_hi (s : State) (x : Redn) : (s.setRedn x).hi = s.hi := rfl
@[simp] theorem State.setRedn_dict (s : State) (x : Redn) : (s.setRedn x).dict = s.dict := rfl
@[simp] theorem State.setRedn_helm (s : State) (x : Redn) : (s.setRedn x).helm = s.helm := rfl
@[simp] theorem State.setRedn_log (s : State) (x : Redn) : (s.setRedn x).log = s.log := rfl
@[simp] theorem State.setRedn_chart (s : State) (x : Redn) : (s.setRedn x).chart = s.chart := rfl
@[simp] theorem State.setRedn_run (s : State) (x : Redn) : (s.setRedn x).run = s.run := rfl
@[simp] theorem State.setRedn_wp (s : State) (x : Redn) : (s.setRedn x).wp = s.wp := rfl
@[simp] theorem State.setRedn_tiles (s : State) (x : Redn) : (s.setRedn x).tiles = s.tiles := rfl
@[simp] theorem State.setRedn_transom (s : State) (x : Redn) : (s.setRedn x).transom = s.transom := rfl
@[simp] theorem State.setRedn_regions (s : State) (x : Redn) : (s.setRedn x).regions = s.regions := rfl
@[simp] theorem State.setRedn_streams (s : State) (x : Redn) : (s.setRedn x).streams = s.streams := rfl
@[simp] theorem State.setRedn_upd (s : State) (x : Redn) : (s.setRedn x).upd = s.upd := rfl
@[simp] theorem State.setRedn_link (s : State) (x : Redn) : (s.setRedn x).link = s.link := rfl
@[simp] theorem State.setRedn_rcv (s : State) (x : Redn) : (s.setRedn x).rcv = s.rcv := rfl
@[simp] theorem State.setRedn_mem (s : State) (x : Redn) : (s.setRedn x).mem = s.mem := rfl
@[simp] theorem State.setRedn_jmem (s : State) (x : Redn) : (s.setRedn x).jmem = s.jmem := rfl
@[simp] theorem State.setRedn_hostMem (s : State) (x : Redn) : (s.setRedn x).hostMem = s.hostMem := rfl

/-! ## What is set reads back -/

@[simp] theorem State.tile_setTile_same (s : State) (t : Nat) (x : Tile) : (s.setTile t x).tile t = x := tget_tset_same _ _ _ _
theorem State.tile_setTile_other (s : State) {t j : Nat} (x : Tile) (h : j ≠ t) : (s.setTile t x).tile j = s.tile j := tget_tset_other _ _ _ h
@[simp] theorem State.region_setRegion_same (s : State) (r : Nat) (x : Region) : (s.setRegion r x).region r = x := tget_tset_same _ _ _ _
theorem State.region_setRegion_other (s : State) {r j : Nat} (x : Region) (h : j ≠ r) : (s.setRegion r x).region j = s.region j := tget_tset_other _ _ _ h
@[simp] theorem State.tstream_setTstream_same (s : State) (i : Nat) (x : TStream) : (s.setTstream i x).tstream i = x := tget_tset_same _ _ _ _
theorem State.tstream_setTstream_other (s : State) {i j : Nat} (x : TStream) (h : j ≠ i) : (s.setTstream i x).tstream j = s.tstream j := tget_tset_other _ _ _ h
@[simp] theorem State.rpw_setRpw_same (s : State) (pr : Nat) (x : RegionPw) : (s.setRpw pr x).rpw pr = x := tget_tset_same _ _ _ _
theorem State.rpw_setRpw_other (s : State) {pr j : Nat} (x : RegionPw) (h : j ≠ pr) : (s.setRpw pr x).rpw j = s.rpw j := tget_tset_other _ _ _ h
@[simp] theorem State.queue_setQueue_same (s : State) (q : Nat) (x : Queue) : (s.setQueue q x).queue q = x := tget_tset_same _ _ _ _
theorem State.queue_setQueue_other (s : State) {q j : Nat} (x : Queue) (h : j ≠ q) : (s.setQueue q x).queue j = s.queue j := tget_tset_other _ _ _ h
@[simp] theorem State.unit_setUnit_same (s : State) (n : Nat) (x : UpdUnit) : (s.setUnit n x).unit n = x := tget_tset_same _ _ _ _
theorem State.unit_setUnit_other (s : State) {n j : Nat} (x : UpdUnit) (h : j ≠ n) : (s.setUnit n x).unit j = s.unit j := tget_tset_other _ _ _ h
@[simp] theorem State.port_setPort_same (s : State) (p : Nat) (x : Port) : (s.setPort p x).port p = x := tget_tset_same _ _ _ _
theorem State.port_setPort_other (s : State) {p j : Nat} (x : Port) (h : j ≠ p) : (s.setPort p x).port j = s.port j := tget_tset_other _ _ _ h

@[simp] theorem State.obj_setObj_same (s : State) (idx sub v : Nat) : (s.setObj idx sub v).obj idx sub = v := tget_tset_same _ _ _ _
theorem State.obj_setObj_other (s : State) {idx sub i j : Nat} (v : Nat) (h : okey i j ≠ okey idx sub) : (s.setObj idx sub v).obj i j = s.obj i j := by
  unfold State.obj State.setObj tset
  split
  · exact tget_tdel_other _ _ h
  · exact (tget_tinsert_other _ _ _ h).trans (tget_tdel_other _ _ h)

@[simp] theorem State.cmds_setCmds (s : State) (cs : List Cmd) : (s.setCmds cs).hi.cmds = cs := rfl
@[simp] theorem State.redn_setRedn (s : State) (x : Redn) : (s.setRedn x).redn = x := rfl

/-! ## Reads that an update does not touch -/

@[simp] theorem State.region_setTile (s : State) (t : Nat) (x : Tile) (j : Nat) : (s.setTile t x).region j = s.region j := rfl
@[simp] theorem State.tstream_setTile (s : State) (t : Nat) (x : Tile) (j : Nat) : (s.setTile t x).tstream j = s.tstream j := rfl
@[simp] theorem State.rpw_setTile (s : State) (t : Nat) (x : Tile) (j : Nat) : (s.setTile t x).rpw j = s.rpw j := rfl
@[simp] theorem State.queue_setTile (s : State) (t : Nat) (x : Tile) (j : Nat) : (s.setTile t x).queue j = s.queue j := rfl
@[simp] theorem State.unit_setTile (s : State) (t : Nat) (x : Tile) (j : Nat) : (s.setTile t x).unit j = s.unit j := rfl
@[simp] theorem State.port_setTile (s : State) (t : Nat) (x : Tile) (j : Nat) : (s.setTile t x).port j = s.port j := rfl
@[simp] theorem State.now_setTile (s : State) (t : Nat) (x : Tile) : (s.setTile t x).now = s.now := rfl
@[simp] theorem State.obj_setTile (s : State) (t : Nat) (x : Tile) (k l : Nat) : (s.setTile t x).obj k l = s.obj k l := rfl
@[simp] theorem State.devByte_setTile (s : State) (t : Nat) (x : Tile) (j : Nat) : (s.setTile t x).devByte j = s.devByte j := rfl
@[simp] theorem State.tile_setRegion (s : State) (r : Nat) (x : Region) (j : Nat) : (s.setRegion r x).tile j = s.tile j := rfl
@[simp] theorem State.tstream_setRegion (s : State) (r : Nat) (x : Region) (j : Nat) : (s.setRegion r x).tstream j = s.tstream j := rfl
@[simp] theorem State.rpw_setRegion (s : State) (r : Nat) (x : Region) (j : Nat) : (s.setRegion r x).rpw j = s.rpw j := rfl
@[simp] theorem State.queue_setRegion (s : State) (r : Nat) (x : Region) (j : Nat) : (s.setRegion r x).queue j = s.queue j := rfl
@[simp] theorem State.unit_setRegion (s : State) (r : Nat) (x : Region) (j : Nat) : (s.setRegion r x).unit j = s.unit j := rfl
@[simp] theorem State.port_setRegion (s : State) (r : Nat) (x : Region) (j : Nat) : (s.setRegion r x).port j = s.port j := rfl
@[simp] theorem State.now_setRegion (s : State) (r : Nat) (x : Region) : (s.setRegion r x).now = s.now := rfl
@[simp] theorem State.obj_setRegion (s : State) (r : Nat) (x : Region) (k l : Nat) : (s.setRegion r x).obj k l = s.obj k l := rfl
@[simp] theorem State.devByte_setRegion (s : State) (r : Nat) (x : Region) (j : Nat) : (s.setRegion r x).devByte j = s.devByte j := rfl
@[simp] theorem State.tile_setTstream (s : State) (i : Nat) (x : TStream) (j : Nat) : (s.setTstream i x).tile j = s.tile j := rfl
@[simp] theorem State.region_setTstream (s : State) (i : Nat) (x : TStream) (j : Nat) : (s.setTstream i x).region j = s.region j := rfl
@[simp] theorem State.rpw_setTstream (s : State) (i : Nat) (x : TStream) (j : Nat) : (s.setTstream i x).rpw j = s.rpw j := rfl
@[simp] theorem State.queue_setTstream (s : State) (i : Nat) (x : TStream) (j : Nat) : (s.setTstream i x).queue j = s.queue j := rfl
@[simp] theorem State.unit_setTstream (s : State) (i : Nat) (x : TStream) (j : Nat) : (s.setTstream i x).unit j = s.unit j := rfl
@[simp] theorem State.port_setTstream (s : State) (i : Nat) (x : TStream) (j : Nat) : (s.setTstream i x).port j = s.port j := rfl
@[simp] theorem State.now_setTstream (s : State) (i : Nat) (x : TStream) : (s.setTstream i x).now = s.now := rfl
@[simp] theorem State.obj_setTstream (s : State) (i : Nat) (x : TStream) (k l : Nat) : (s.setTstream i x).obj k l = s.obj k l := rfl
@[simp] theorem State.devByte_setTstream (s : State) (i : Nat) (x : TStream) (j : Nat) : (s.setTstream i x).devByte j = s.devByte j := rfl
@[simp] theorem State.tile_setRpw (s : State) (pr : Nat) (x : RegionPw) (j : Nat) : (s.setRpw pr x).tile j = s.tile j := rfl
@[simp] theorem State.region_setRpw (s : State) (pr : Nat) (x : RegionPw) (j : Nat) : (s.setRpw pr x).region j = s.region j := rfl
@[simp] theorem State.tstream_setRpw (s : State) (pr : Nat) (x : RegionPw) (j : Nat) : (s.setRpw pr x).tstream j = s.tstream j := rfl
@[simp] theorem State.queue_setRpw (s : State) (pr : Nat) (x : RegionPw) (j : Nat) : (s.setRpw pr x).queue j = s.queue j := rfl
@[simp] theorem State.unit_setRpw (s : State) (pr : Nat) (x : RegionPw) (j : Nat) : (s.setRpw pr x).unit j = s.unit j := rfl
@[simp] theorem State.port_setRpw (s : State) (pr : Nat) (x : RegionPw) (j : Nat) : (s.setRpw pr x).port j = s.port j := rfl
@[simp] theorem State.obj_setRpw (s : State) (pr : Nat) (x : RegionPw) (k l : Nat) : (s.setRpw pr x).obj k l = s.obj k l := rfl
@[simp] theorem State.devByte_setRpw (s : State) (pr : Nat) (x : RegionPw) (j : Nat) : (s.setRpw pr x).devByte j = s.devByte j := rfl
@[simp] theorem State.tile_setQueue (s : State) (q : Nat) (x : Queue) (j : Nat) : (s.setQueue q x).tile j = s.tile j := rfl
@[simp] theorem State.region_setQueue (s : State) (q : Nat) (x : Queue) (j : Nat) : (s.setQueue q x).region j = s.region j := rfl
@[simp] theorem State.tstream_setQueue (s : State) (q : Nat) (x : Queue) (j : Nat) : (s.setQueue q x).tstream j = s.tstream j := rfl
@[simp] theorem State.rpw_setQueue (s : State) (q : Nat) (x : Queue) (j : Nat) : (s.setQueue q x).rpw j = s.rpw j := rfl
@[simp] theorem State.unit_setQueue (s : State) (q : Nat) (x : Queue) (j : Nat) : (s.setQueue q x).unit j = s.unit j := rfl
@[simp] theorem State.port_setQueue (s : State) (q : Nat) (x : Queue) (j : Nat) : (s.setQueue q x).port j = s.port j := rfl
@[simp] theorem State.now_setQueue (s : State) (q : Nat) (x : Queue) : (s.setQueue q x).now = s.now := rfl
@[simp] theorem State.obj_setQueue (s : State) (q : Nat) (x : Queue) (k l : Nat) : (s.setQueue q x).obj k l = s.obj k l := rfl
@[simp] theorem State.devByte_setQueue (s : State) (q : Nat) (x : Queue) (j : Nat) : (s.setQueue q x).devByte j = s.devByte j := rfl
@[simp] theorem State.tile_setUnit (s : State) (n : Nat) (x : UpdUnit) (j : Nat) : (s.setUnit n x).tile j = s.tile j := rfl
@[simp] theorem State.region_setUnit (s : State) (n : Nat) (x : UpdUnit) (j : Nat) : (s.setUnit n x).region j = s.region j := rfl
@[simp] theorem State.tstream_setUnit (s : State) (n : Nat) (x : UpdUnit) (j : Nat) : (s.setUnit n x).tstream j = s.tstream j := rfl
@[simp] theorem State.rpw_setUnit (s : State) (n : Nat) (x : UpdUnit) (j : Nat) : (s.setUnit n x).rpw j = s.rpw j := rfl
@[simp] theorem State.queue_setUnit (s : State) (n : Nat) (x : UpdUnit) (j : Nat) : (s.setUnit n x).queue j = s.queue j := rfl
@[simp] theorem State.port_setUnit (s : State) (n : Nat) (x : UpdUnit) (j : Nat) : (s.setUnit n x).port j = s.port j := rfl
@[simp] theorem State.now_setUnit (s : State) (n : Nat) (x : UpdUnit) : (s.setUnit n x).now = s.now := rfl
@[simp] theorem State.obj_setUnit (s : State) (n : Nat) (x : UpdUnit) (k l : Nat) : (s.setUnit n x).obj k l = s.obj k l := rfl
@[simp] theorem State.devByte_setUnit (s : State) (n : Nat) (x : UpdUnit) (j : Nat) : (s.setUnit n x).devByte j = s.devByte j := rfl
@[simp] theorem State.tile_setPort (s : State) (p : Nat) (x : Port) (j : Nat) : (s.setPort p x).tile j = s.tile j := rfl
@[simp] theorem State.region_setPort (s : State) (p : Nat) (x : Port) (j : Nat) : (s.setPort p x).region j = s.region j := rfl
@[simp] theorem State.tstream_setPort (s : State) (p : Nat) (x : Port) (j : Nat) : (s.setPort p x).tstream j = s.tstream j := rfl
@[simp] theorem State.rpw_setPort (s : State) (p : Nat) (x : Port) (j : Nat) : (s.setPort p x).rpw j = s.rpw j := rfl
@[simp] theorem State.queue_setPort (s : State) (p : Nat) (x : Port) (j : Nat) : (s.setPort p x).queue j = s.queue j := rfl
@[simp] theorem State.unit_setPort (s : State) (p : Nat) (x : Port) (j : Nat) : (s.setPort p x).unit j = s.unit j := rfl
@[simp] theorem State.now_setPort (s : State) (p : Nat) (x : Port) : (s.setPort p x).now = s.now := rfl
@[simp] theorem State.obj_setPort (s : State) (p : Nat) (x : Port) (k l : Nat) : (s.setPort p x).obj k l = s.obj k l := rfl
@[simp] theorem State.devByte_setPort (s : State) (p : Nat) (x : Port) (j : Nat) : (s.setPort p x).devByte j = s.devByte j := rfl
@[simp] theorem State.tile_setObj (s : State) (idx sub v : Nat) (j : Nat) : (s.setObj idx sub v).tile j = s.tile j := rfl
@[simp] theorem State.region_setObj (s : State) (idx sub v : Nat) (j : Nat) : (s.setObj idx sub v).region j = s.region j := rfl
@[simp] theorem State.tstream_setObj (s : State) (idx sub v : Nat) (j : Nat) : (s.setObj idx sub v).tstream j = s.tstream j := rfl
@[simp] theorem State.rpw_setObj (s : State) (idx sub v : Nat) (j : Nat) : (s.setObj idx sub v).rpw j = s.rpw j := rfl
@[simp] theorem State.queue_setObj (s : State) (idx sub v : Nat) (j : Nat) : (s.setObj idx sub v).queue j = s.queue j := rfl
@[simp] theorem State.unit_setObj (s : State) (idx sub v : Nat) (j : Nat) : (s.setObj idx sub v).unit j = s.unit j := rfl
@[simp] theorem State.port_setObj (s : State) (idx sub v : Nat) (j : Nat) : (s.setObj idx sub v).port j = s.port j := rfl
@[simp] theorem State.now_setObj (s : State) (idx sub v : Nat) : (s.setObj idx sub v).now = s.now := rfl
@[simp] theorem State.devByte_setObj (s : State) (idx sub v : Nat) (j : Nat) : (s.setObj idx sub v).devByte j = s.devByte j := rfl
@[simp] theorem State.tile_setCmds (s : State) (cs : List Cmd) (j : Nat) : (s.setCmds cs).tile j = s.tile j := rfl
@[simp] theorem State.region_setCmds (s : State) (cs : List Cmd) (j : Nat) : (s.setCmds cs).region j = s.region j := rfl
@[simp] theorem State.tstream_setCmds (s : State) (cs : List Cmd) (j : Nat) : (s.setCmds cs).tstream j = s.tstream j := rfl
@[simp] theorem State.rpw_setCmds (s : State) (cs : List Cmd) (j : Nat) : (s.setCmds cs).rpw j = s.rpw j := rfl
@[simp] theorem State.unit_setCmds (s : State) (cs : List Cmd) (j : Nat) : (s.setCmds cs).unit j = s.unit j := rfl
@[simp] theorem State.port_setCmds (s : State) (cs : List Cmd) (j : Nat) : (s.setCmds cs).port j = s.port j := rfl
@[simp] theorem State.now_setCmds (s : State) (cs : List Cmd) : (s.setCmds cs).now = s.now := rfl
@[simp] theorem State.obj_setCmds (s : State) (cs : List Cmd) (k l : Nat) : (s.setCmds cs).obj k l = s.obj k l := rfl
@[simp] theorem State.devByte_setCmds (s : State) (cs : List Cmd) (j : Nat) : (s.setCmds cs).devByte j = s.devByte j := rfl
@[simp] theorem State.tile_setRedn (s : State) (x : Redn) (j : Nat) : (s.setRedn x).tile j = s.tile j := rfl
@[simp] theorem State.region_setRedn (s : State) (x : Redn) (j : Nat) : (s.setRedn x).region j = s.region j := rfl
@[simp] theorem State.tstream_setRedn (s : State) (x : Redn) (j : Nat) : (s.setRedn x).tstream j = s.tstream j := rfl
@[simp] theorem State.rpw_setRedn (s : State) (x : Redn) (j : Nat) : (s.setRedn x).rpw j = s.rpw j := rfl
@[simp] theorem State.queue_setRedn (s : State) (x : Redn) (j : Nat) : (s.setRedn x).queue j = s.queue j := rfl
@[simp] theorem State.unit_setRedn (s : State) (x : Redn) (j : Nat) : (s.setRedn x).unit j = s.unit j := rfl
@[simp] theorem State.port_setRedn (s : State) (x : Redn) (j : Nat) : (s.setRedn x).port j = s.port j := rfl
@[simp] theorem State.now_setRedn (s : State) (x : Redn) : (s.setRedn x).now = s.now := rfl
@[simp] theorem State.obj_setRedn (s : State) (x : Redn) (k l : Nat) : (s.setRedn x).obj k l = s.obj k l := rfl
@[simp] theorem State.devByte_setRedn (s : State) (x : Redn) (j : Nat) : (s.setRedn x).devByte j = s.devByte j := rfl

end Sys2Proof.Machine
end

