-- ==== Sys2Proof/Laws/Ops.lean ====
section
/-! SUPPORT. What the shared operations can do: each lemma names the fields that its operation may change. -/

namespace Sys2Proof.Machine

/-! ## Lists of operations -/

/-- What every operation of a list keeps, the list keeps. -/
theorem forEach_keeps {α : Type} (P : State → Prop) (f : State → α → State) (xs : List α)
    (h : ∀ s, ∀ x ∈ xs, P s → P (f s x)) : ∀ s, P s → P (forEach xs s f) := by
  induction xs with
  | nil => intro s hs; exact hs
  | cons x xs ih =>
    intro s hs
    exact ih (fun s y hy => h s y (List.mem_cons_of_mem _ hy)) _ (h s x List.mem_cons_self hs)

@[simp] theorem forEach_nil {α : Type} (f : State → α → State) (s : State) : forEach [] s f = s := rfl
@[simp] theorem forEach_cons {α : Type} (f : State → α → State) (s : State) (x : α) (xs : List α) :
    forEach (x :: xs) s f = forEach xs (f s x) f := rfl

/-! ## Events, traces, causes, alarms -/

/-- A unit's copy of device time lies within 1 µs of the Helm's count (14 R408). -/
theorem clockNear_bounds (copy now : Nat) : now ≤ clockNear copy now + 1000 ∧ clockNear copy now ≤ now + 1000 := by
  have h := Nat.mod_lt copy (show 0 < min now 1000 + 1001 by omega)
  unfold clockNear
  omega

theorem stampAt_bounds (s : State) (src : Nat) : s.now ≤ s.stampAt src + 1000 ∧ s.stampAt src ≤ s.now + 1000 := by
  unfold State.stampAt
  split
  · omega
  · exact clockNear_bounds _ _

/-- The Helm stamps with its own count. -/
@[simp] theorem stampAt_helm (s : State) : s.stampAt srcHelm = s.now := rfl

/-- An event changes the Logbook alone. -/
theorem event_eq (s : State) (src code : Nat) (data : List Byte) : ∃ l, s.event src code data = { s with log := l } := by
  unfold State.event
  dsimp only
  split
  · split <;> exact ⟨_, rfl⟩
  · exact ⟨s.log, rfl⟩

/-- A source with room keeps the event at the end of its queue; a full one loses it and counts the loss. -/
theorem event_cases (s : State) (src code : Nat) (data : List Byte) (h : s.pw.vsb = true) :
    ((tget [] s.log.queues src).length < 16 ∧
      tget [] (s.event src code data).log.queues src = tget [] s.log.queues src ++ [logRec (s.stampAt src) code src data] ∧
      (s.event src code data).log.lost = s.log.lost) ∨
    (16 ≤ (tget [] s.log.queues src).length ∧ (s.event src code data).log = { s.log with lost := satAdd 64 s.log.lost 1 }) := by
  unfold State.event
  by_cases hq : (tget [] s.log.queues src).length < 16
  · left
    simp [h, hq]
  · right
    simp [h, hq]
    omega

/-- A trace record changes the queue of its source, or the count of those shed, alone. -/
theorem traceRec_eq (s : State) (src kind : Nat) (data : List Byte) :
    ∃ t n, s.traceRec src kind data = { s with rcv := { s.rcv with traceq := t, shed := n } } := by
  unfold State.traceRec
  dsimp only
  split
  · split
    · exact ⟨_, s.rcv.shed, rfl⟩
    · exact ⟨s.rcv.traceq, _, rfl⟩
  · exact ⟨s.rcv.traceq, s.rcv.shed, rfl⟩

/-- A vector raised changes the host interface alone. -/
theorem raiseVector_eq (s : State) (v : Nat) : ∃ h, s.raiseVector v = { s with hi := h } := by
  unfold State.raiseVector
  split <;> exact ⟨_, rfl⟩

/-- A cause set changes the host interface alone. -/
theorem setCause_eq (s : State) (v : Nat) : ∃ h, s.setCause v = { s with hi := h } := by
  unfold State.setCause
  dsimp only
  split
  · exact ⟨s.hi, rfl⟩
  · split
    · obtain ⟨h, e⟩ := raiseVector_eq ({ s with hi := { s.hi with intCause := setBit64 s.hi.intCause v } } : State) v
      exact ⟨h, by rw [e]⟩
    · exact ⟨_, rfl⟩

/-- A cause that stands already is not raised again. -/
theorem setCause_of_set (s : State) (v : Nat) (h : s.hi.intCause.getLsbD v = true) : s.setCause v = s := by
  simp [State.setCause, h]

/-- A counter advanced changes the dictionary alone. -/
theorem bump_eq (s : State) (idx sub bits k : Nat) : ∃ d, s.bump idx sub bits k = { s with dict := d } := ⟨_, rfl⟩

@[simp] theorem obj_bump_same (s : State) (idx sub bits k : Nat) : (s.bump idx sub bits k).obj idx sub = satAdd bits (s.obj idx sub) k :=
  State.obj_setObj_same _ _ _ _

theorem obj_bump_other (s : State) {idx sub i j : Nat} (bits k : Nat) (h : okey i j ≠ okey idx sub) :
    (s.bump idx sub bits k).obj i j = s.obj i j := State.obj_setObj_other _ _ h

/-- An alarm changes the dictionary and the host interface alone. -/
theorem alarm_eq (s : State) (b : Nat) : ∃ d h, s.alarm b = { s with dict := d, hi := h } := by
  unfold State.alarm
  dsimp only
  split
  · exact ⟨_, s.hi, rfl⟩
  · obtain ⟨h, e⟩ := setCause_eq ((s.setObj 0x2040 1 (setBitN (s.obj 0x2040 1) b)).bump 0x2040 (2 + b) 32 1) 17
    rw [e]
    obtain ⟨h', e'⟩ := setCause_eq
      ({ (s.setObj 0x2040 1 (setBitN (s.obj 0x2040 1) b)).bump 0x2040 (2 + b) 32 1 with hi := h } : State) 19
    exact ⟨_, h', e'⟩

/-! ## Commands -/

theorem modCmd_eq (s : State) (seq : Nat) (f : Cmd → Cmd) : ∃ h, s.modCmd seq f = { s with hi := h } := ⟨_, rfl⟩
theorem endCmd_eq (s : State) (seq code detail result : Nat) : ∃ h, s.endCmd seq code detail result = { s with hi := h } := ⟨_, rfl⟩

/-- The commands after a change of one: the same, in the same order. -/
theorem modCmd_cmds (s : State) (seq : Nat) (f : Cmd → Cmd) :
    (s.modCmd seq f).hi.cmds = s.hi.cmds.map (fun c => if c.seq = seq then f c else c) := rfl

/-- The change reaches the command of that number, if its number stays. -/
theorem modCmd_cmd_same (s : State) (seq : Nat) (f : Cmd → Cmd) (hf : ∀ c, (f c).seq = c.seq) :
    (s.modCmd seq f).cmd seq = (s.cmd seq).map f := by
  unfold State.cmd
  rw [modCmd_cmds]
  induction s.hi.cmds with
  | nil => rfl
  | cons c cs ih =>
    by_cases h : c.seq = seq
    · simp [h, hf]
    · simpa [h, hf] using ih

theorem modCmd_cmd_other (s : State) {seq n : Nat} (f : Cmd → Cmd) (hf : ∀ c, (f c).seq = c.seq) (h : n ≠ seq) :
    (s.modCmd seq f).cmd n = s.cmd n := by
  unfold State.cmd
  rw [modCmd_cmds]
  induction s.hi.cmds with
  | nil => rfl
  | cons c cs ih =>
    by_cases hn : c.seq = n
    · have : c.seq ≠ seq := fun e => h (hn.symm.trans e)
      simp [hn, h]
    · by_cases hs : c.seq = seq
      · simpa [hs, hf, Ne.symm h] using ih
      · simpa [hs, hn] using ih

/-- A command that has not ended ends with the outcome given. -/
theorem endCmd_ended (s : State) (seq code detail result : Nat) (k : Cmd) (h : s.cmd seq = some k) (he : k.ended = false) :
    Ended (s.endCmd seq code detail result) seq code detail result := by
  refine ⟨{ k with ended := true, code := code, detail := detail, result := result }, ?_, rfl, rfl, rfl, rfl⟩
  unfold State.endCmd
  rw [modCmd_cmd_same, h]
  · simp [he]
  · intro c
    by_cases hc : c.ended = true <;> simp [hc]

/-- The first outcome of a command stands. -/
theorem endCmd_of_ended (s : State) (seq code detail result : Nat) (k : Cmd) (h : s.cmd seq = some k) (he : k.ended = true) :
    (s.endCmd seq code detail result).cmd seq = some k := by
  unfold State.endCmd
  rw [modCmd_cmd_same, h]
  · simp [he]
  · intro c
    by_cases hc : c.ended = true <;> simp [hc]

/-- A write of device memory changes device memory alone. -/
theorem devPut_eq (s : State) (a : Nat) (b : Byte) : ∃ m j, s.devPut a b = { s with mem := m, jmem := j } := by
  unfold State.devPut
  split
  · exact ⟨s.mem, _, rfl⟩
  · exact ⟨_, s.jmem, rfl⟩

theorem devWrite_eq (bs : List Byte) : ∀ (s : State) (a : Nat), ∃ m j, s.devWrite a bs = { s with mem := m, jmem := j } := by
  induction bs with
  | nil => intro s _; exact ⟨s.mem, s.jmem, rfl⟩
  | cons b bs ih =>
    intro s a
    obtain ⟨m, j, e⟩ := devPut_eq s a b
    obtain ⟨m', j', e'⟩ := ih (s.devPut a b) (a + 1)
    exact ⟨m', j', by rw [State.devWrite, e', e]⟩

/-- A request that waits at a stack's door changes the host interface alone. -/
theorem hold_eq (s : State) (by' : Sender) (a n : Nat) (d : Option (List Byte)) : ∃ h, s.hold by' a n d = { s with hi := h } := ⟨_, rfl⟩

/-- A write sent to device memory waits at a closed door, which changes the host interface alone, or changes device memory alone. -/
theorem devSend_eq (s : State) (by' : Sender) (a : Nat) (bs : List Byte) :
    (s.stackHeld 0 a bs.length = true ∧ s.devSend by' a bs = { s with hi := { s.hi with held := s.hi.held ++ [⟨by', a, bs.length, some bs⟩] } }) ∨
      (s.stackHeld 0 a bs.length = false ∧ ∃ m j, s.devSend by' a bs = { s with mem := m, jmem := j }) := by
  unfold State.devSend
  cases h : s.stackHeld 0 a bs.length
  · exact .inr ⟨rfl, devWrite_eq _ _ _⟩
  · exact .inl ⟨rfl, rfl⟩

/-- A journal entry written changes device memory, or waits in the host interface, and changes nothing else. -/
theorem journal_eq (s : State) (c : Cmd) : ∃ h m j, s.journal c = { s with hi := h, mem := m, jmem := j } := by
  unfold State.journal
  obtain ⟨-, e⟩ | ⟨-, m, j, e⟩ := devSend_eq s .helm (journalSlot c.seq) (journalEntry c s.now)
  · exact ⟨_, s.mem, s.jmem, e⟩
  · exact ⟨s.hi, m, j, e⟩

/-- A command changed and journalled changes the host interface and device memory alone. -/
theorem journalCmd_eq (s : State) (seq : Nat) (f : Cmd → Cmd) : ∃ h m j, s.journalCmd seq f = { s with hi := h, mem := m, jmem := j } := by
  unfold State.journalCmd
  dsimp only
  split
  · obtain ⟨h, m, j, e⟩ := journal_eq (s.modCmd seq f) ‹Cmd›
    exact ⟨h, m, j, e⟩
  · exact ⟨_, s.mem, s.jmem, rfl⟩

/-- A RUN that ends changes the host interface and the RUN alone. -/
theorem endRun_eq (s : State) (code detail : Nat) : ∃ h, s.endRun code detail = { s with hi := h, run := none } := by
  unfold State.endRun
  split
  · exact ⟨_, rfl⟩
  · exact ⟨s.hi, by rw [← ‹s.run = none›]⟩

@[simp] theorem endRun_run (s : State) (code detail : Nat) : (s.endRun code detail).run = none := by
  unfold State.endRun
  split
  · rfl
  · assumption

end Sys2Proof.Machine
end

