-- ==== Sys2Proof/Laws/Kept.lean ====
section
/-! SUPPORT. What faults, doors, resets and the work of tiles leave alone: the memories outside the regions, the Helm but
for what it has measured, the identity of the module and the waiting commands. -/

namespace Sys2Proof.Machine

/-- Memories, identity, waiting commands and, but for its measurements, the Helm of two states are the same; where `D` holds, device memory
may have been written at doors that going out of service has opened, and is in its canonical form if it was. -/
structure Kept (D : Prop) (s u : State) : Prop where
  pending : u.pending = s.pending
  variant : u.variant = s.variant
  serial  : u.serial = s.serial
  helm    : ∃ m c, u.helm = { s.helm with meas := m, mcount := c }
  mem     : (u.mem = s.mem ∧ u.jmem = s.jmem) ∨ (D ∧ (MemoriesWf s → u.mem.wf = true ∧ u.jmem.wf = true))
  hostMem : u.hostMem = s.hostMem

namespace Kept

variable {D : Prop}

/-- Device memory stands where no fault can have led out of service. -/
theorem devMem {s u : State} (h : Kept D s u) (n : ¬ D) : u.mem = s.mem ∧ u.jmem = s.jmem := h.mem.resolve_right (fun x => n x.1)

/-- Two states whose Helms are the same too. -/
theorem same {s u : State} (p : u.pending = s.pending) (v : u.variant = s.variant) (n : u.serial = s.serial) (h : u.helm = s.helm)
    (m : u.mem = s.mem) (j : u.jmem = s.jmem) (o : u.hostMem = s.hostMem) : Kept D s u := ⟨p, v, n, ⟨_, _, h⟩, .inl ⟨m, j⟩, o⟩

theorem refl (s : State) : Kept D s s := same rfl rfl rfl rfl rfl rfl rfl

/-- The banks, the counters and the states of the firmware stay. -/
theorem firmware {s u : State} (h : Kept D s u) :
    u.helm.bankA = s.helm.bankA ∧ u.helm.bankB = s.helm.bankB ∧ u.helm.active = s.helm.active ∧ u.helm.rollback = s.helm.rollback ∧
      u.helm.selfTest = s.helm.selfTest ∧ u.helm.pending = s.helm.pending ∧ u.helm.running = s.helm.running ∧
      u.helm.factory = s.helm.factory := by
  obtain ⟨m, c, e⟩ := h.helm
  rw [e]
  exact ⟨rfl, rfl, rfl, rfl, rfl, rfl, rfl, rfl⟩

theorem rcv {s u : State} (h : Kept D s u) (r : Recovery) : Kept D s { u with rcv := r } :=
  ⟨h.pending, h.variant, h.serial, h.helm, h.mem, h.hostMem⟩

theorem free {s u : State} (h : Kept D s u) (n : Nat) : Kept D s { u with freeCount := n } :=
  ⟨h.pending, h.variant, h.serial, h.helm, h.mem, h.hostMem⟩

/-- Canonical memories stay canonical. -/
theorem memoriesWf {s u : State} (h : Kept D s u) (w : MemoriesWf s) : MemoriesWf u := by
  obtain ⟨ha, hb, -⟩ := h.firmware
  have m : u.mem.wf = true ∧ u.jmem.wf = true := by
    rcases h.mem with ⟨a, b⟩ | ⟨-, a⟩
    · rw [a, b]
      exact ⟨w.1, w.2.1⟩
    · exact a w
  unfold MemoriesWf
  rw [h.hostMem, ha, hb]
  exact ⟨m.1, m.2, w.2.2⟩

theorem trans {s u v : State} (h : Kept D s u) (k : Kept D u v) : Kept D s v := by
  obtain ⟨m, c, e⟩ := h.helm
  obtain ⟨n, d, e'⟩ := k.helm
  refine ⟨k.pending.trans h.pending, k.variant.trans h.variant, k.serial.trans h.serial, ⟨n, d, by rw [e', e]⟩, ?_, k.hostMem.trans h.hostMem⟩
  rcases k.mem with ⟨a, b⟩ | ⟨hd, a⟩
  · rw [a, b]
    exact h.mem
  · exact .inr ⟨hd, fun w => a (h.memoriesWf w)⟩

/-- Safe firmware stays safe. -/
theorem firmwareSafe {s u : State} (h : Kept D s u) (w : FirmwareSafe s) : FirmwareSafe u := by
  obtain ⟨ha, hb, h1, h2, h3, h4, h5, hf⟩ := h.firmware
  have : u.fwRollback = s.fwRollback := by
    funext b
    unfold State.fwRollback State.bank
    rw [ha, hb, hf]
  unfold FirmwareSafe
  rw [h1, h2, h3, h4, h5, h.variant, this]
  exact w

/-- A list of operations that each keep it keeps it. -/
theorem forEach {α : Type} (f : State → α → State) (xs : List α) (h : ∀ s x, Kept D s (f s x)) (s : State) : Kept D s (Machine.forEach xs s f) :=
  forEach_keeps (Kept D s) f xs (fun u x _ k => k.trans (h u x)) s (refl s)

end Kept

/-! ## The updates -/

section
variable {D : Prop} (s : State)

theorem kept_ite {c : Prop} {_ : Decidable c} {u v : State} (hu : Kept D s u) (hv : Kept D s v) : Kept D s (if c then u else v) := by
  split <;> assumption

theorem kept_setTile (t : Nat) (x : Tile) : Kept D s (s.setTile t x) := Kept.same rfl rfl rfl rfl rfl rfl rfl
theorem kept_setRegion (r : Nat) (x : Region) : Kept D s (s.setRegion r x) := Kept.same rfl rfl rfl rfl rfl rfl rfl
theorem kept_modRegion (r : Nat) (f : Region → Region) : Kept D s (s.modRegion r f) := Kept.same rfl rfl rfl rfl rfl rfl rfl
theorem kept_setTstream (i : Nat) (x : TStream) : Kept D s (s.setTstream i x) := Kept.same rfl rfl rfl rfl rfl rfl rfl
theorem kept_setRpw (r : Nat) (x : RegionPw) : Kept D s (s.setRpw r x) := Kept.same rfl rfl rfl rfl rfl rfl rfl
theorem kept_setQueue (q : Nat) (x : Queue) : Kept D s (s.setQueue q x) := Kept.same rfl rfl rfl rfl rfl rfl rfl
theorem kept_setUnit (n : Nat) (x : UpdUnit) : Kept D s (s.setUnit n x) := Kept.same rfl rfl rfl rfl rfl rfl rfl
theorem kept_setPort (p : Nat) (x : Port) : Kept D s (s.setPort p x) := Kept.same rfl rfl rfl rfl rfl rfl rfl
theorem kept_modPort (p : Nat) (f : Port → Port) : Kept D s (s.modPort p f) := Kept.same rfl rfl rfl rfl rfl rfl rfl
theorem kept_setObj (i j v : Nat) : Kept D s (s.setObj i j v) := Kept.same rfl rfl rfl rfl rfl rfl rfl
theorem kept_bump (i j b k : Nat) : Kept D s (s.bump i j b k) := Kept.same rfl rfl rfl rfl rfl rfl rfl
theorem kept_setCmds (cs : List Cmd) : Kept D s (s.setCmds cs) := Kept.same rfl rfl rfl rfl rfl rfl rfl
theorem kept_setRedn (x : Redn) : Kept D s (s.setRedn x) := Kept.same rfl rfl rfl rfl rfl rfl rfl
theorem kept_endCmd (n c d r : Nat) : Kept D s (s.endCmd n c d r) := Kept.same rfl rfl rfl rfl rfl rfl rfl
theorem kept_queueFlit (p : Nat) (f : Flit) : Kept D s (s.queueFlit p f) := Kept.same rfl rfl rfl rfl rfl rfl rfl

theorem kept_event (src code : Nat) (data : List Byte) : Kept D s (s.event src code data) := by
  obtain ⟨l, e⟩ := event_eq s src code data
  rw [e]
  exact .same rfl rfl rfl rfl rfl rfl rfl

theorem kept_traceRec (src kind : Nat) (data : List Byte) : Kept D s (s.traceRec src kind data) := by
  obtain ⟨l, n, e⟩ := traceRec_eq s src kind data
  rw [e]
  exact .same rfl rfl rfl rfl rfl rfl rfl

theorem kept_setCause (v : Nat) : Kept D s (s.setCause v) := by
  obtain ⟨l, e⟩ := setCause_eq s v
  rw [e]
  exact .same rfl rfl rfl rfl rfl rfl rfl

theorem kept_alarm (b : Nat) : Kept D s (s.alarm b) := by
  obtain ⟨d, h, e⟩ := alarm_eq s b
  rw [e]
  exact .same rfl rfl rfl rfl rfl rfl rfl

theorem kept_endRun (c d : Nat) : Kept D s (s.endRun c d) := by
  obtain ⟨h, e⟩ := endRun_eq s c d
  rw [e]
  exact .same rfl rfl rfl rfl rfl rfl rfl

/-! ## Doors, shutters, resets -/

theorem kept_stopTiles (d : DomKind × Nat) : Kept D s (s.stopTiles d) := by
  unfold State.stopTiles
  split
  · split
    · rename_i r _
      exact (Kept.forEach _ (regionTiles r) (fun u t => kept_setTile u t _) s).free _
    · exact Kept.refl s
  · exact Kept.refl s

theorem kept_closeDoors (ds : List (DomKind × Nat)) : Kept D s (s.closeDoors ds) := by
  refine Kept.forEach _ ds (fun s d => ?_) s
  split
  · exact Kept.refl s
  · refine Kept.trans ?_ (kept_traceRec _ _ _ _)
    refine Kept.trans (kept_stopTiles s d) ?_
    exact .same rfl rfl rfl rfl rfl rfl rfl

/-- Doors opened, before what waited at them is served. -/
theorem kept_unclose (ds : List (DomKind × Nat)) : Kept D s (forEach (ds.filter (fun d => s.rcv.closed.contains d)) s (fun s d =>
    (({ s with rcv := { s.rcv with closed := s.rcv.closed.filter (fun x => decide (x ≠ d)) } } : State)).traceRec
      (domSrc d.1 d.2) trDoor (leBytes 2 (domKey d.1 d.2) ++ [1]))) :=
  Kept.forEach _ _ (fun u _ => ((Kept.refl u).rcv _).trans (kept_traceRec _ _ _ _)) s

/-- A write of device memory, where a door that opens may let one through. -/
theorem kept_devWrite (hD : D) (a : Nat) (bs : List Byte) : Kept D s (s.devWrite a bs) := by
  have w := fun h : MemoriesWf s => h.devWrite bs a
  obtain ⟨m, j, e⟩ := devWrite_eq bs s a
  rw [e] at w ⊢
  exact ⟨rfl, rfl, rfl, ⟨_, _, rfl⟩, .inr ⟨hD, fun h => ⟨(w h).1, (w h).2.1⟩⟩, rfl⟩

/-- What waited at doors writes device memory through the one write operation. -/
theorem kept_serveHeld (hD : D) : Kept D s s.serveHeld := by
  unfold State.serveHeld
  split
  · exact Kept.refl s
  · have h : Kept D s ({ s with hi := { s.hi with held := s.hi.held.filter (fun h => s.stackHeld 0 h.addr h.len) } } : State) :=
      .same rfl rfl rfl rfl rfl rfl rfl
    refine h.trans (Kept.forEach _ _ (fun u x => ?_) _)
    split
    · exact kept_devWrite u hD _ _
    · exact .same rfl rfl rfl rfl rfl rfl rfl

theorem kept_openDoors (hD : D) (ds : List (DomKind × Nat)) : Kept D s (s.openDoors ds) :=
  (kept_unclose s ds).trans (kept_serveHeld _ hD)

theorem openDoors_memoriesWf {s : State} (h : MemoriesWf s) (ds : List (DomKind × Nat)) : MemoriesWf (s.openDoors ds) :=
  (kept_openDoors (D := True) s trivial ds).memoriesWf h

theorem kept_lendsLost (r n : Nat) : Kept D s (s.lendsLost r n) :=
  Kept.forEach _ _ (fun s _ => kept_setRegion s _ _) s

theorem kept_clearDataflow (r : Nat) : Kept D s (s.clearDataflow r) := by
  have h := Kept.forEach (D := D) (fun s t => s.setTile t ((s.tile t).cleared s.freeCount)) (regionTiles r) (fun s t => kept_setTile s t _) s
  unfold State.clearDataflow
  generalize forEach (regionTiles r) s (fun s t => s.setTile t ((s.tile t).cleared s.freeCount)) = u at h ⊢
  dsimp only
  exact (h.trans ((kept_setRegion u r _).trans (kept_lendsLost _ r _))).free _

theorem kept_keepCounts (u : State) (r : Nat) : Kept D u (u.keepCounts s r) :=
  (kept_modRegion u r _).trans (Kept.forEach _ _ (fun v t => kept_setTile v t _) _)

theorem kept_closeShutter (pr : Nat) (w : Shutter) : Kept D s (s.closeShutter pr w) := by
  unfold State.closeShutter
  dsimp only
  generalize hu : (s.setRpw pr { s.rpw pr with vset := 0, shutter := w, floorAt := none }).traceRec (srcDie (pr / 28)) trShutter (leBytes 1 pr) = u
  have h : Kept D s u := hu ▸ (kept_setRpw s pr _).trans (kept_traceRec _ _ _ _)
  split
  · exact (h.trans (kept_clearDataflow _ _)).trans (kept_keepCounts _ _ _)
  · exact h

theorem kept_openShutter (pr : Nat) : Kept D s (s.openShutter pr) := by
  unfold State.openShutter
  dsimp only
  split
  · exact Kept.refl s
  · exact (kept_traceRec s _ _ _).trans (kept_setRpw _ _ _)

theorem kept_advanceTags (k : DomKind) (i : Nat) : Kept D s (s.advanceTags k i) := Kept.same rfl rfl rfl rfl rfl rfl rfl

theorem kept_issueResets (ds : List (DomKind × Nat)) : Kept D s (s.issueResets ds) := by
  refine Kept.forEach _ ds (fun s d => ?_) s
  split
  · exact Kept.refl s
  · dsimp only
    generalize hu : ((s.traceRec srcHelm trReset (leBytes 2 (domKey d.1 d.2))).bump 0x6401 (domLevel d.1) 32 1).event srcHelm
      (0x6A03 + domLevel d.1) [] = u
    have hs : Kept D s u := hu ▸ ((kept_traceRec s _ _ _).trans (kept_bump _ _ _ _ _)).trans (kept_event _ _ _ _)
    exact (hs.trans (kept_closeDoors u _)).rcv _

theorem kept_sendReplay (w : W64) : Kept D s (s.sendReplay w) := by
  refine Kept.forEach _ _ (fun s a => ?_) s
  split
  · exact Kept.forEach _ _ (fun s p => kept_queueFlit s p _) s
  · exact Kept.refl s

/-! ## Faults -/

theorem kept_recordFault (f : FaultIn) (c o d : Nat) (m : Nat := 0) : Kept D s (s.recordFault f c o d m) := by
  unfold State.recordFault
  dsimp only
  refine Kept.trans ?_ (kept_event _ _ _ _)
  refine Kept.trans ?_ (kept_setCause _ _)
  refine Kept.trans ?_ (kept_setObj _ _ _ _)
  refine Kept.rcv ?_ _
  exact kept_ite s (kept_bump s 0x6404 0 32 1) (Kept.refl s)

theorem kept_endOthers (c : Nat) : Kept D s (s.endOthers c) := kept_setCmds s _

theorem kept_forgetCopies : Kept D s s.forgetCopies := Kept.forEach _ _ (fun s p => kept_modPort s p _) s

theorem kept_dropChart : Kept D s s.dropChart := .same rfl rfl rfl rfl rfl rfl rfl

theorem kept_outOfService (hD : D) (c n : Nat) : Kept D s (s.outOfService c n) := by
  unfold State.outOfService
  dsimp only
  generalize hu : (((((s.setObj 0x6000 0 1).setObj 0x6002 0 c).event srcHelm 0x6A09 []).endRun 0x0D n).endOthers 0x0E).forgetCopies.dropChart = u
  have h : Kept D s u := hu ▸ ((((((kept_setObj s _ _ _).trans (kept_setObj _ _ _ _)).trans (kept_event _ _ _ _)).trans
    (kept_endRun _ _ _)).trans (kept_endOthers _ _)).trans (kept_forgetCopies _)).trans (kept_dropChart _)
  refine Kept.trans ((h.rcv _).trans (kept_openDoors _ hD _)) (Kept.forEach _ _ (fun s pr => ?_) _)
  split
  · exact kept_closeShutter _ _ _
  · exact Kept.refl _

theorem kept_stampR (f : FaultIn) : Kept D s (s.stampR f) := by
  unfold State.stampR
  split
  · split <;> exact .same rfl rfl rfl rfl rfl rfl rfl
  · exact Kept.refl s

theorem kept_enterWindow (c : Nat) : Kept D s (s.enterWindow c) := (Kept.refl s).rcv _

theorem kept_issueModule (c : Nat) : Kept D s (s.issueModule c) := by
  unfold State.issueModule
  dsimp only
  have h := (kept_ite s (Kept.refl s) (kept_enterWindow s c) : Kept D s
    (if s.rcv.resets.any (fun x => decide (x.kind = DomKind.module)) then s else s.enterWindow c)).trans (kept_issueResets _ [(.module, 0)])
  refine h.trans ?_
  exact .same rfl rfl rfl rfl rfl rfl rfl

theorem kept_extend (i : Nat) (d : List Byte) : Kept D s (s.extend i d) := ⟨rfl, rfl, rfl, ⟨_, _, rfl⟩, .inl ⟨rfl, rfl⟩, rfl⟩

theorem kept_measureKeys : Kept D s s.measureKeys := (kept_extend s _ _).trans (Kept.forEach _ _ (fun s _ => kept_extend s _ _) _)

theorem kept_addRegionEntry (pr : Nat) : Kept D s (s.addRegionEntry pr) := by
  unfold State.addRegionEntry
  dsimp only
  split
  · exact Kept.refl s
  · exact ((Kept.refl s).rcv _).trans (kept_measureKeys _)

theorem kept_repairExhausted (hD : D) (f : FaultIn) (r : Nat) : Kept D s (s.repairExhausted f r) := by
  unfold State.repairExhausted
  dsimp only
  generalize ha : (if f.cause = 0x12 then s else s.addRegionEntry (s.physOf r)) = a
  have ka : Kept D s a := ha ▸ kept_ite s (Kept.refl s) (kept_addRegionEntry s _)
  generalize hb : (a.event srcHelm 0x6B02 []).recordFault { f with cause := 0x53, cls := clsO, unit := 8, detail := [] } clsO 5 1 = b
  have kb : Kept D s b := hb ▸ (ka.trans (kept_event _ _ _ _)).trans (kept_recordFault _ _ _ _ _)
  generalize (if b.running then b.replayDomains else [f.dom]) = ds
  have kc : Kept D s (b.issueResets ds) := kb.trans (kept_issueResets _ _)
  generalize b.issueResets ds = c at kc
  split
  · exact kc.rcv _
  · exact kc.trans (kept_outOfService _ hD _ _)

theorem kept_traceStep (n : Nat) : Kept D s (s.traceStep n) := kept_traceRec _ _ _ _

theorem kept_haltForReplay : Kept D s s.haltForReplay := by
  unfold State.haltForReplay
  dsimp only
  generalize hu : s.traceStep 1 = u
  have h : Kept D s u := hu ▸ kept_traceStep s 1
  have hc := fun r => (h.rcv r).trans (kept_closeDoors ({ u with rcv := r } : State) ({ u with rcv := r } : State).replayDomains)
  have k := fun r => (hc r).trans (kept_traceStep _ 2)
  split
  · exact ((k _).trans (kept_sendReplay _ _)).trans (kept_traceStep _ _)
  · exact k _

theorem kept_startReplay (own : DomKind × Nat) : Kept D s (s.startReplay own) := by
  unfold State.startReplay
  dsimp only
  generalize hu : s.haltForReplay = u
  have h : Kept D s u := hu ▸ kept_haltForReplay s
  split
  · exact ((h.trans (kept_recordFault _ _ _ _ _ _)).trans (kept_traceStep _ _)).trans (kept_issueModule _ _)
  · exact (h.trans (kept_traceStep _ _)).trans (kept_issueResets _ _)

theorem kept_stopRun (c d : Nat) : Kept D s (s.stopRun c d) := by
  unfold State.stopRun
  dsimp only
  exact (((kept_closeDoors s _).trans (kept_issueResets _ _)).trans (kept_endRun _ _ _)).rcv _

theorem kept_addShift (r : Nat) (b : Bool) : Kept D s (s.addShift r b) := Kept.same rfl rfl rfl rfl rfl rfl rfl

theorem kept_holdForLinks (f : FaultIn) : Kept D s (s.holdForLinks f) := by
  unfold State.holdForLinks
  split
  · exact (Kept.refl s).rcv _
  · exact Kept.refl s

theorem kept_joinIncident (f : FaultIn) (cls : Nat) (hD : cls = clsD → D) : Kept D s (s.joinIncident f cls) := by
  unfold State.joinIncident
  dsimp only
  have h := kept_recordFault (D := D) s f cls 6 (if cls = clsS ∧ s.running then 1 else 0)
  generalize s.recordFault f cls 6 (if cls = clsS ∧ s.running then 1 else 0) = a at h ⊢
  split
  · split
    · exact h.trans (kept_stopRun _ _ _)
    · exact h
  · split
    · split
      · split
        · exact h
        · split
          · exact h.trans (kept_repairExhausted _ (hD (by assumption)) _ _)
          · exact h.trans (kept_addShift _ _ _)
      · exact h
    · split
      · exact h.trans (kept_holdForLinks _ _)
      · exact h

theorem kept_openInRun (f : FaultIn) (cls : Nat) (hD : cls = clsD → D) : Kept D s (s.openInRun f cls) := by
  unfold State.openInRun
  dsimp only
  split
  · exact (kept_recordFault _ _ _ _ _).trans (kept_stopRun _ _ _)
  · split
    · split
      · split
        · exact (kept_recordFault _ _ _ _ _).trans (kept_repairExhausted _ (hD (by assumption)) _ _)
        · exact ((kept_recordFault _ _ _ _ _ _).trans (kept_addShift _ _ _)).trans (kept_startReplay _ _)
      · exact (kept_recordFault _ _ _ _ _ _).trans (kept_startReplay _ _)
    · exact ((kept_recordFault _ _ _ _ _ _).trans (kept_startReplay _ _)).trans (kept_holdForLinks _ _)

theorem kept_openIdle (f : FaultIn) (cls : Nat) (hD : cls = clsD → D) : Kept D s (s.openIdle f cls) := by
  unfold State.openIdle
  dsimp only
  split
  · rename_i h
    have hc : cls = clsD := by
      by_contra n
      rw [if_neg n] at h
      cases h
    split
    · exact (kept_recordFault _ _ _ _ _).trans (kept_repairExhausted _ (hD hc) _ _)
    · exact (((kept_recordFault _ _ _ _ _).trans (kept_addShift _ _ _)).trans (kept_issueResets _ _)).rcv _
  · exact ((kept_recordFault _ _ _ _ _).trans (kept_issueResets _ _)).rcv _

/-- Only a fault of class D can lead out of service (15 R448). -/
theorem kept_raiseAs (f : FaultIn) (cls : Nat) (hD : cls = clsD → D) : Kept D s (s.raiseAs f cls) := by
  unfold State.raiseAs
  dsimp only
  refine Kept.trans (kept_stampR s { f with cls := cls }) ?_
  split
  · exact kept_joinIncident _ _ _ hD
  · split
    · exact kept_openInRun _ _ _ hD
    · exact kept_openIdle _ _ _ hD

/-- A fault detected changes no host memory nor the Helm, and device memory at most where its class is D. -/
theorem kept_raiseFault (f : FaultIn) (hD : s.effClass f = clsD → D) : Kept D s (s.raiseFault f) := kept_raiseAs _ _ _ hD

theorem kept_tileFault (hD : D) (t c : Nat) (d : List Byte) : Kept D s (s.tileFault t c d) :=
  (kept_closeDoors s _).trans (kept_raiseFault _ _ (fun _ => hD))
theorem kept_regionFault (hD : D) (r c k u : Nat) (d : List Byte) : Kept D s (s.regionFault r c k u d) :=
  (kept_closeDoors s _).trans (kept_raiseFault _ _ (fun _ => hD))

/-- A fault that names no region has the class of its cause. -/
theorem effClass_noRegion (f : FaultIn) (h : f.region = none) : s.effClass f = f.cls := by
  unfold State.effClass
  rw [h]
  dsimp only
  split
  · rename_i x
    exact x.1.symm
  · rfl

theorem kept_linkFault (p c : Nat) (d : List Byte) (hD : causeClass c = clsD → D) : Kept D s (s.linkFault p c d) :=
  kept_raiseFault s _ (fun e => hD ((effClass_noRegion s _ rfl).symm.trans e))
theorem kept_unitFault (u c : Nat) (d : List Byte) (hD : causeClass c = clsD → D) : Kept D s (s.unitFault u c d) :=
  kept_raiseFault s _ (fun e => hD ((effClass_noRegion s _ rfl).symm.trans e))
theorem kept_stackFault (st c : Nat) (d : List Byte) (hD : causeClass c = clsD → D) : Kept D s (s.stackFault st c d) :=
  kept_raiseFault s _ (fun e => hD ((effClass_noRegion s _ rfl).symm.trans e))

/-- STACK_UE changes no memory outside the regions, nor the Helm. -/
theorem kept_stackUe (a : Nat) : Kept False s (s.stackUe a) := kept_stackFault _ _ _ _ (fun e => absurd e (by decide))

/-! ## Tiles -/

theorem kept_putTile (t : Nat) (x : Tile) : Kept D s (s.putTile t x) := kept_setTile _ _ _

/-- Everything that a unit's share of a firing can do: nothing, where it has none in hand or the entry gives it another operation; a
fault of the entry or of an uncorrectable error; or its action on the tile it has in hand, with a corrected error counted. -/
theorem runUnit_cases (t k : Nat) (err : Ecc) (cause : Nat) (sel : Entry → Bool) (act : TileImg → Entry → Tile → Tile) :
    (s.runUnit t k err cause sel act = s ∧ ∀ m e x, s.begin t k = some (m, e, x) → sel e = false) ∨
    ∃ m e x, s.begin t k = some (m, e, x) ∧ sel e = true ∧
      ((e.clash m (s.tile t) = true ∧ s.runUnit t k err cause sel act = (s.putTile t x).tileFault t 1 []) ∨
       (e.clash m (s.tile t) = false ∧
         ((err = .fatal ∧ s.runUnit t k err cause sel act = (s.putTile t x).faultAt t cause) ∨
          (err = .corrected ∧ s.runUnit t k err cause sel act = (s.putTile t ((act m e x).finish k)).corrected t) ∨
          (err = .ok ∧ s.runUnit t k err cause sel act = s.putTile t ((act m e x).finish k))))) := by
  unfold State.runUnit
  cases hb : s.begin t k with
  | none => exact .inl ⟨rfl, fun m e x h => by cases h⟩
  | some b =>
    obtain ⟨m, e, x⟩ := b
    dsimp only
    by_cases hs : sel e = true
    · refine .inr ⟨m, e, x, rfl, hs, ?_⟩
      by_cases hc : e.clash m (s.tile t) = true
      · exact .inl ⟨hc, by simp [hs, hc]⟩
      · refine .inr ⟨by simpa using hc, ?_⟩
        cases err
        · exact .inr (.inr ⟨rfl, by simp [hs, hc]⟩)
        · exact .inr (.inl ⟨rfl, by simp [hs, hc]⟩)
        · exact .inl ⟨rfl, by simp [hs, hc]⟩
    · refine .inl ⟨by simp [hs], fun m' e' x' h => ?_⟩
      cases h
      simpa using hs

theorem kept_faultAt (hD : D) (t c : Nat) : Kept D s (s.faultAt t c) := by
  have h : Kept D s ({ s with freeCount := s.freeCount + 1 } : State) := Kept.same rfl rfl rfl rfl rfl rfl rfl
  exact h.trans (kept_tileFault _ hD _ _ _)

/-- A unit's share of a firing changes no host memory nor the Helm, and device memory at most where its fault leads out of service. -/
theorem kept_runUnit (hD : D) (t k : Nat) (err : Ecc) (cause : Nat) (sel : Entry → Bool) (act : TileImg → Entry → Tile → Tile) :
    Kept D s (s.runUnit t k err cause sel act) := by
  rcases runUnit_cases s t k err cause sel act with ⟨e, -⟩ | ⟨m, e, x, -, -, h⟩
  · rw [e]
    exact Kept.refl s
  · rcases h with ⟨-, h⟩ | ⟨-, ⟨-, h⟩ | ⟨-, h⟩ | ⟨-, h⟩⟩ <;> rw [h]
    · exact (kept_putTile _ _ _).trans (kept_tileFault _ hD _ _ _)
    · exact (kept_putTile _ _ _).trans (kept_faultAt _ hD _ _)
    · exact (kept_putTile _ _ _).trans (kept_modRegion _ _ _)
    · exact kept_putTile _ _ _

/-- The unit that has its share in hand performs it. -/
theorem runUnit_acts {t k : Nat} {m : TileImg} {e : Entry} {x : Tile} (h : Acts s t k m e x) (cause : Nat) {sel : Entry → Bool}
    (hs : sel e = true) (act : TileImg → Entry → Tile → Tile) :
    s.runUnit t k .ok cause sel act = s.putTile t ((act m e x).finish k) := by
  unfold State.runUnit
  rw [h.1]
  simp [hs, h.2]

/-! ## Links -/

/-- What a received flit of a type can do: nothing; counted as of an old generation; asked for again; or, with SEQ as expected, its
header's news and then its own effect. -/
theorem rxSequenced_cases (p : Nat) (f : Flit) (type : Nat) (ok : Bool) (k : State → State) :
    s.rxSequenced p f type ok k = s ∨ s.rxSequenced p f type ok k = s.bump (0x5020 + p) 8 64 1 ∨
    (∃ b, s.rxSequenced p f type ok k = s.sendNak p b) ∨
    (Receives s p f type ∧ ok = true ∧ s.rxSequenced p f type ok k =
      k ((s.rxHeader p f).modPort p (fun x => { x with rxSeq := (x.rxSeq + 1) % 4096, nakFor := none, nakRun := 0, resFor := none }))) := by
  unfold State.rxSequenced
  dsimp only
  split
  · exact .inl rfl
  · rename_i h1
    split
    · exact .inr (.inl rfl)
    · rename_i h2
      split
      · exact .inr (.inl rfl)
      · rename_i h3
        split
        · exact .inr (.inr (.inl ⟨true, rfl⟩))
        · rename_i h4
          split
          · rename_i h5
            refine .inr (.inr (.inr ⟨?_, ?_, rfl⟩))
            · simp only [not_or, Decidable.not_not, Bool.not_eq_true] at h1 h2 h3 h4
              exact ⟨h1.1, h1.2, h2, h3, h4.1, h5⟩
            · simp only [not_or, Decidable.not_not] at h4
              exact h4.2
          · split
            · exact .inr (.inr (.inl ⟨false, rfl⟩))
            · exact .inl rfl

/-- A flit that is received has its effect. -/
theorem rxSequenced_receives {p : Nat} {f : Flit} {type : Nat} (h : Receives s p f type) (k : State → State) :
    s.rxSequenced p f type true k =
      k ((s.rxHeader p f).modPort p (fun x => { x with rxSeq := (x.rxSeq + 1) % 4096, nakFor := none, nakRun := 0, resFor := none })) := by
  obtain ⟨h1, h2, h3, h4, h5, h6⟩ := h
  simp [State.rxSequenced, h1, h2, h3, h4, h5, h6]

theorem kept_sendNak (p : Nat) (b : Bool) : Kept D s (s.sendNak p b) := kept_modPort _ _ _

theorem kept_endCopies (p : Nat) : Kept D s (s.endCopies p) := by
  unfold State.endCopies
  refine Kept.trans ?_ (kept_modPort _ _ _)
  exact Kept.forEach _ _ (fun s c => kept_endCmd s _ _ _ _) s

theorem kept_rxHeader (p : Nat) (f : Flit) : Kept D s (s.rxHeader p f) := (kept_setPort s p _).trans (kept_endCopies _ _)

/-- A flit's effect keeps what its own part keeps. -/
theorem kept_rxSequenced (p : Nat) (f : Flit) (type : Nat) (ok : Bool) (k : State → State) (hk : ∀ u, Kept D u (k u)) :
    Kept D s (s.rxSequenced p f type ok k) := by
  rcases rxSequenced_cases s p f type ok k with e | e | ⟨b, e⟩ | ⟨-, -, e⟩ <;> rw [e]
  · exact Kept.refl s
  · exact kept_bump _ _ _ _ _
  · exact kept_sendNak _ _ _
  · exact ((kept_rxHeader s p f).trans (kept_modPort _ _ _)).trans (hk _)

end

end Sys2Proof.Machine
end

