-- ==== Sys2Proof/WellFormed.lean ====
section
/-! DEFINITION. Which commands are well formed: every operand names a unit the variant carries, and
every byte string has the length its structure has. -/

namespace Sys2Proof

/-- A presented tile of a variant with `v` dies (00 Table SCOPE-1). -/
def tileOk (v t : Nat) : Bool := decide (t < 768 * v)
/-- A presented region. -/
def regionOk (v r : Nat) : Bool := decide (r < 24 * v)
/-- A physical region. -/
def physOk (v r : Nat) : Bool := decide (r < 28 * v)
/-- A link port. -/
def portOk (v p : Nat) : Bool := decide (p < 2 * v)
/-- An update unit: two per stack, four stacks per die. -/
def unitOk (v u : Nat) : Bool := decide (u < 8 * v)
/-- A queue pair (11 R344). -/
def queueOk (q : Nat) : Bool := decide (q < 16)
/-- A MEM slot of a step entry (02 Table TILE-15). -/
def slotOk (n : Nat) : Bool := decide (n < 3)
/-- A steering unit or a window number. -/
def eightOk (n : Nat) : Bool := decide (n < 8)
/-- A steering unit of a tile (04 R126). -/
def steerOk (n : Nat) : Bool := decide (n < 4)
/-- A lane mask. -/
def lanesOk (n : Nat) : Bool := decide (n < 16)
/-- A flit: field widths of 10 Table LINK-4 and a payload of 240 bytes (10 R318). -/
def flitOk (f : Flit) : Bool :=
  decide (f.type < 256 ∧ f.vc < 8 ∧ f.seq < 4096 ∧ f.ack < 4096 ∧ f.cvc < 8 ∧ f.cfree < 4096 ∧ f.gen < 256 ∧
    f.hops < 32 ∧ f.ring < 2 ∧ f.kind < 2 ∧ f.round < 32 ∧ f.origin < 32) && decide (f.payload.length = 240)
/-- The instances of a reset domain kind (15 Table RCV-1). -/
def domOk (v : Nat) (k : DomKind) (i : Nat) : Bool :=
  match k with
  | .dataflow => physOk v i
  | .tier => physOk v i
  | .link => portOk v i
  | .update => unitOk v i
  | .stack => decide (i < 4 * v)
  | .die => decide (i < v)
  | .module => decide (i = 0)

/-- A command is well formed on a variant with `v` dies. -/
def Instr.wf (v : Nat) : Instr → Bool
  | .capFloorAlarm (.thermal r) => regionOk v r
  | .regulatorFault r | .regionTrip r | .shutterOpen r => physOk v r
  | .sqBaseWrite q _ _ | .qCtrlWrite q _ | .sqTailDoorbell q _ | .cqHeadDoorbell q _ | .commandAccept q _ _ => queueOk q
  | .bar0RegisterWrite _ _ n => decide (n = 4 ∨ n = 8)
  | .torusLen _ a _ _ => decide (a < 4)
  | .dictWrite i b _ _ => decide (i < 65536 ∧ b < 256)
  | .opkey k _ _ => decide (k < 4)
  | .mctpGet _ src _ | .mctpSet _ src _ _ | .mctpSetSigned _ src _ _ | .setEndpointId _ src => decide (src < 256)
  | .passStart t | .firingComplete t | .null t | .zero t | .store t | .st t | .recv t | .send t | .senda t
  | .add t | .sub t | .mul t | .fma t | .max t | .min t | .amax t | .sel t | .bcast t | .cmpge t | .exp2 t
  | .log2 t | .rcp t | .rsqrt t | .tanh t | .rsum t | .rmax t | .ramax t | .cnt t | .route t
  | .portOutChunkTake t _ => tileOk v t
  | .mac t _ | .macz t _ | .drainR t _ | .drainC t _ | .gemvMac t _ | .gemvMacz t _ | .ldx t _ | .ld t _
  | .meshTransfer t _ _ => tileOk v t
  | .rdA t n _ | .rdB t n _ | .rdSA t n _ | .rdSB t n _ | .rdSD t n _ | .rdOut t n _ | .rdT t n _ => tileOk v t && slotOk n
  | .wrIn t n | .win t n => tileOk v t && slotOk n
  | .branch t u | .merge t u | .filter t u | .loop t u | .steerDataIntake t u | .steerBearingIntake t u =>
    tileOk v t && steerOk u
  | .portAccess t w _ _ => tileOk v t && eightOk w
  | .lineFill r _ _ _ _ => regionOk v r
  | .writeBack r set way _ _ => regionOk v r && decide (set < 4096 ∧ way < 16)
  | .regionReady r t _ _ _ _ => regionOk v r && tileOk v t
  | .stepWatchdog r _ | .regionQueryResult r _ => regionOk v r
  | .stagingBucketReceive u _ _ | .commitElement u _ | .pageIn u _ _ | .updateUnitReady u => unitOk v u
  | .chainStart _ _ half _ _ => decide (half < 2)
  | .portTrainStart p | .align p | .fecLock p | .identify p _ _ | .trainStateTimeout p
  | .generationExchange p | .retrainComplete p | .linkDown p | .flitTransmit p | .barrierTimeout p => portOk v p
  | .detect p l _ i => portOk v p && lanesOk l && lanesOk i
  | .equalise p l => portOk v p && lanesOk l
  | .retrain p _ a b => portOk v p && lanesOk a && lanesOk b
  | .flitReceiveError p _ f | .idle p f | .token p f | .kvtoken p f | .reduce p f _ | .agree p f _ | .weight p f
  | .barrier p f | .start p f | .tapcount p f | .replay p f | .bulk p f | .gen p f => portOk v p && flitOk f
  | .tapSend p vc => portOk v p && decide (vc = 1 ∨ vc = 2)
  | .resetComplete k i | .resetOverrun k i => domOk v k i
  | _ => true

end Sys2Proof
end

