-- ==== Sys2Proof/Tests/Slice0.lean ====
section
/-! SUPPORT. Tests of single commands, with expected results from the spec's tables and worked examples, and a witness for the
hypotheses of every statement. -/

namespace Sys2Proof.Tests

-- one theorem at a time: evaluations side by side would need more memory than a check has
set_option Elab.async false

open Sys2Proof.Machine

/-! ## Small states -/

/-- An S2 that runs a chart of one tile, [d0:0,0,0,0]. -/
def oneTile (m : TileImg) (x : Tile) : State :=
  { variant := 2, chart := some { place := [(0, 0, 0)], tiles := [m] }, run := some {}, tiles := [(0, x)] }

/-- A tile whose only entry is `e`, waiting to fire. -/
def waits (e : Entry) (x : Tile) : State := oneTile { entries := [e] } { x with st := .wait }

/-- A unit acts, and a property holds of what it has in hand. -/
def actsBy (s : State) (k : Nat) (p : TileImg → Entry → Tile → Bool) : Bool :=
  match s.begin 0 k with
  | some (m, e, x) => !e.clash m (s.tile 0) && p m e x
  | none => false

theorem acts_of (s : State) (k : Nat) (p : TileImg → Entry → Tile → Bool) (h : actsBy s k p = true) :
    ∃ m e x, Acts s 0 k m e x ∧ p m e x = true := by
  unfold actsBy at h
  split at h
  · rename_i m e x hb
    simp only [Bool.and_eq_true, Bool.not_eq_true'] at h
    exact ⟨m, e, x, ⟨hb, h.1⟩, h.2⟩
  · cases h

/-- The final state of a command. -/
def after (c : Instr) (s : State) : State := match exec c s with | .next u => u | _ => s

def vecOp (op : Nat) : State := waits { vec := BitVec.ofNat 32 (op * 2 ^ 26 + 1 * 2 ^ 21 + 2 * 2 ^ 16 + 3 * 2 ^ 11 + 4 * 2 ^ 6) }
  { vregs := [(2, { lanes := [(0, 0x40000000), (31, 0xC0400000)] }), (3, { lanes := [(0, 0x3F800000)] })] }

/-! ## Witnesses: firings of a tile -/

theorem witness_VectorLaneOperations :
    ∀ op ∈ [0x08, 0x09, 0x0A, 0x0B, 0x0C, 0x0D, 0x0E, 0x0F, 0x10, 0x11], ∃ m e x, Acts (vecOp op) 0 2 m e x ∧ decide (e.vop = op) = true := by
  intro op h
  have k : ∀ op ∈ [0x08, 0x09, 0x0A, 0x0B, 0x0C, 0x0D, 0x0E, 0x0F, 0x10, 0x11], actsBy (vecOp op) 2 (fun _ e _ => decide (e.vop = op)) = true := by
    decide +kernel
  exact acts_of _ _ _ (k op h)

/-! ## Witnesses: steps -/

/-- A command waits in front of another; nothing waits; the invariants hold before each step. -/
theorem witness_Steps :
    (let s : State := { State.reset with pending := [.vsbApplied true, .pwrPermitAssert 1000000] }
     MemoriesWf s ∧ FirmwareSafe s ∧ s.pending = .vsbApplied true :: [.pwrPermitAssert 1000000] ∧ ∃ u, step s = .next u) ∧
    State.reset.pending = [] ∧ State.reset.pw.vsb = false ∧ (vecOp 8).pending = [] := by
  unfold MemoriesWf FirmwareSafe
  refine ⟨⟨?_, ?_, rfl, _, rfl⟩, ?_⟩ <;> decide +kernel
theorem witness_FiringStarts : ∃ m e x, (vecOp 0x08).begin 0 2 = some (m, e, x) := by
  obtain ⟨m, e, x, h, -⟩ := acts_of (vecOp 0x08) 2 (fun _ _ _ => true) (by decide +kernel)
  exact ⟨m, e, x, h.1⟩

theorem witness_VectorUnaryOperations :
    ∀ op ∈ [0x18, 0x19, 0x1A, 0x1B, 0x1C, 0x20, 0x21, 0x22], ∃ m e x, Acts (vecOp op) 0 2 m e x ∧ decide (e.vop = op) = true := by
  intro op h
  have k : ∀ op ∈ [0x18, 0x19, 0x1A, 0x1B, 0x1C, 0x20, 0x21, 0x22], actsBy (vecOp op) 2 (fun _ e _ => decide (e.vop = op)) = true := by
    decide +kernel
  exact acts_of _ _ _ (k op h)

/-- NaNs of either sign; the zeros; the negative numbers nearest zero and −∞; 128.0 and +∞; the ends of the exact exponents. -/
theorem witness_TranscendentalSpecialValues :
    let w := BitVec.ofNat 32
    (∀ n ∈ [0x7FC00000, 0xFF800001], isNan (ofF32 (w n)) = true) ∧ (∀ n ∈ [0, 0x80000000], isZero (ofF32 (w n)) = true) ∧
    (∀ n ∈ [0x80000001, 0xFF800000], isNan (ofF32 (w n)) = false ∧ isZero (ofF32 (w n)) = false ∧ (w n).getLsbD 31 = true) ∧
    (∀ n ∈ [0x43000000, 0x7F800000], isNan (ofF32 (w n)) = false ∧ (w n).getLsbD 31 = false ∧ 0x43000000 ≤ (w n).toNat) ∧
    f32Pow2 (-149) = 1 ∧ f32Pow2 127 = 0x7F000000 := by decide +kernel

/-- 03 Table FMT-4: the reciprocal of the least power of two that has one; log2 of the least subnormal, and back. -/
theorem test_transcendental_exact : f32Rcp 0x00400000 = 0x7F000000 ∧ f32Log2 1 = 0xC3150000 ∧ f32Exp2 0xC3150000 = 1 := by decide +kernel

/-- An array operation on operands in the queues, of format `c`. -/
def arrayOp (op c ddst blk : Nat) : State :=
  waits { array := BitVec.ofNat 32 (op * 2 ^ 28 + c * 2 ^ 24 + ddst * 2 ^ 9) }
    { opA := ⟨1024, 0x3838⟩, opB := ⟨2048, 0x3838⟩, blk := blk, scaleA := ⟨⟨128, 127⟩, ⟨128, 128⟩⟩, scaleB := ⟨⟨512, 127⟩, ⟨512, 128⟩⟩,
      plane0 := { acc := [(0, { val := 0x40400000 }), (64, { val := 0x3F800000 })], fmt := 2 } }

theorem witness_ArrayMultiplyAccumulates :
    ∀ op ∈ [1, 2], ∃ m e x, Acts (arrayOp op 2 0 0) 0 0 m e x ∧ decide (e.aop = op) = true := by
  intro op h
  have k : ∀ op ∈ [1, 2], actsBy (arrayOp op 2 0 0) 0 (fun _ e _ => decide (e.aop = op)) = true := by decide +kernel
  exact acts_of _ _ _ (k op h)

theorem witness_ScaleRecordsMoveAtBlocks :
    ∀ o ∈ [1, 2], ∀ b ∈ [0, 31, 32], ∃ m e x, Acts (arrayOp o 4 0 b) 0 0 m e x ∧
      decide (e.aop = o ∧ isBlock e.afmt = true ∧ (x.blk % blockFirings e.afmt = 0 ↔ b % 32 = 0)) = true := by
  intro o ho b h
  have k : ∀ o ∈ [1, 2], ∀ b ∈ [0, 31, 32], actsBy (arrayOp o 4 0 b) 0
      (fun _ e x => decide (e.aop = o ∧ isBlock e.afmt = true ∧ (x.blk % blockFirings e.afmt = 0 ↔ b % 32 = 0))) = true := by decide +kernel
  exact acts_of _ _ _ (k o ho b h)

/-- Drains to the scratchpad, to N and to the vector queue; ZERO. -/
theorem witness_ArrayDrainsAndZero :
    ∀ o ∈ [(3, 0), (3, 1), (3, 5), (4, 0), (4, 1), (4, 5), (5, 0)], ∃ m e x, Acts (arrayOp o.1 2 o.2 0) 0 0 m e x ∧
      decide (e.aop = o.1 ∧ e.ddst = o.2 ∧ isBlock e.afmt = false ∧ (o.2 = 1 → dirCode e.ddst = some .north)) = true := by
  intro o h
  have k : ∀ o ∈ [(3, 0), (3, 1), (3, 5), (4, 0), (4, 1), (4, 5), (5, 0)], actsBy (arrayOp o.1 2 o.2 0) 0
      (fun _ e _ => decide (e.aop = o.1 ∧ e.ddst = o.2 ∧ isBlock e.afmt = false ∧ (o.2 = 1 → dirCode e.ddst = some .north))) = true := by
    decide +kernel
  exact acts_of _ _ _ (k o h)

/-- A GEMV operation on streams 0 and 2. -/
def gemvOp (op c : Nat) : State :=
  oneTile { entries := [{ gemv := BitVec.ofNat 32 (op * 2 ^ 29 + c * 2 ^ 25 + 2 * 2 ^ 17 + 3 * 2 ^ 1) }],
            streams := [BitVec.ofNat 64 (5 * 2 ^ 14), BitVec.ofNat 64 (5 * 2 ^ 14), BitVec.ofNat 64 (5 * 2 ^ 14)] }
    { st := .wait, x := [(0, 0x3F80), (1, 0x4000)], y := [(3, { val := 0x3F800000 })], yout := [(0, { val := 0x40000000 })],
      spad := { cells := [(0, 0x3F803F80), (1, 0x40004000)] } }

theorem witness_GemvOperations :
    ∀ o ∈ [(1, 0), (2, 0), (3, 0), (3, 11), (4, 0)], ∃ m e x, Acts (gemvOp o.1 o.2) 0 1 m e x ∧ decide (e.gop = o.1 ∧ e.gfmt = o.2) = true := by
  intro o h
  have k : ∀ o ∈ [(1, 0), (2, 0), (3, 0), (3, 11), (4, 0)],
      actsBy (gemvOp o.1 o.2) 1 (fun _ e _ => decide (e.gop = o.1 ∧ e.gfmt = o.2)) = true := by decide +kernel
  exact acts_of _ _ _ (k o h)

/-- A vector operation on memory and queues in BF16, VA void or not, VB the side N. -/
def vecMove (op : Nat) (void : Bool) : State :=
  oneTile { entries := [{ vec := BitVec.ofNat 32 (op * 2 ^ 26 + 1 * 2 ^ 21 + 2 * 2 ^ 16 + 1 * 2 ^ 11) }], streams := [BitVec.ofNat 64 (4 * 2 ^ 14)] }
    { st := .wait, vregs := [(2, { lanes := [(0, 0x3F810000), (1, 0x40000000)], void := void })], inq := [(0, [⟨0x40003F80, false⟩])],
      spad := { cells := [(0, 0x3F804000)] } }

theorem witness_VectorMoves :
    ∀ o ∈ [(1, false), (2, false), (2, true), (3, false), (4, false), (4, true), (5, false), (5, true), (0x28, false), (0x28, true)],
      ∃ m e x, Acts (vecMove o.1 o.2) 0 2 m e x ∧
        decide (e.vop = o.1 ∧ elemBits e.vfmt = 16 ∧ dirCode e.vb = some .north ∧ (x.headD .north).void = false ∧ dirCode (e.vb % 8) = some .north ∧
          (x.vreg e.va).void = o.2) = true := by
  intro o h
  have k : ∀ o ∈ [(1, false), (2, false), (2, true), (3, false), (4, false), (4, true), (5, false), (5, true), (0x28, false), (0x28, true)],
      actsBy (vecMove o.1 o.2) 2 (fun _ e x => decide (e.vop = o.1 ∧ elemBits e.vfmt = 16 ∧ dirCode e.vb = some .north ∧
        (x.headD .north).void = false ∧ dirCode (e.vb % 8) = some .north ∧ (x.vreg e.va).void = o.2)) = true := by decide +kernel
  exact acts_of _ _ _ (k o h)

/-- RECV or SEND of a format, VB and SUB as given, tokens at N and in the vector input queue. -/
def vecPort (op c vb sub : Nat) : State :=
  oneTile { entries := [{ vec := BitVec.ofNat 32 (op * 2 ^ 26 + 1 * 2 ^ 21 + 2 * 2 ^ 16 + vb * 2 ^ 11 + c * 2 ^ 6 + sub) }] }
    { st := .wait, vregs := [(2, { lanes := [(0, 0x3F810000), (16, 0x40000000)] })], inq := [(0, [⟨0x40003F80, false⟩])], viq := [0x38403840] }

/-- RECV of 8-bit values and of FP32 from N and from the vector input queue, either half; SEND of FP32, either half. -/
theorem witness_VectorMoves_formats :
    ∀ o ∈ [(3, 2, 1, 0), (3, 2, 1, 1), (3, 2, 0, 1), (3, 11, 1, 0), (3, 11, 0, 1), (3, 0, 0, 0), (4, 11, 1, 0), (4, 11, 9, 1)],
      ∃ m e x, Acts (vecPort o.1 o.2.1 o.2.2.1 o.2.2.2) 0 2 m e x ∧
        decide (e.vop = o.1 ∧ elemBits e.vfmt = (if o.2.1 = 2 then 8 else if o.2.1 = 11 then 32 else 16) ∧ (dirCode e.vb = none ↔ o.2.2.1 ≠ 1) ∧
          (e.vsub = true ↔ o.2.2.2 = 1) ∧ (o.1 = 4 → dirCode (e.vb % 8) = some .north)) = true := by
  intro o h
  have k : ∀ o ∈ [(3, 2, 1, 0), (3, 2, 1, 1), (3, 2, 0, 1), (3, 11, 1, 0), (3, 11, 0, 1), (3, 0, 0, 0), (4, 11, 1, 0), (4, 11, 9, 1)],
      actsBy (vecPort o.1 o.2.1 o.2.2.1 o.2.2.2) 2 (fun _ e _ => decide (e.vop = o.1 ∧
        elemBits e.vfmt = (if o.2.1 = 2 then 8 else if o.2.1 = 11 then 32 else 16) ∧ (dirCode e.vb = none ↔ o.2.2.1 ≠ 1) ∧
        (e.vsub = true ↔ o.2.2.2 = 1) ∧ (o.1 = 4 → dirCode (e.vb % 8) = some .north))) = true := by decide +kernel
  exact acts_of _ _ _ (k o h)

/-- An operation of memory slot `i` on stream 0, port N, TDST `d`; window 0 covers words 0 to 15 when it is open. -/
def memOp (i op d : Nat) (opened void : Bool) : State :=
  let w := BitVec.ofNat 32 (op * 2 ^ 28 + d * 2 ^ 20 + 1 * 2 ^ 16 + 1 * 2 ^ 12)
  oneTile { entries := [if i = 0 then { mem0 := w } else if i = 1 then { mem1 := w } else { mem2 := w }],
            streams := [BitVec.ofNat 64 (1 * 2 ^ 29 + 4 * 2 ^ 14), BitVec.ofNat 64 (4 * 2 ^ 14)],
            wins := [leBytes 4 0 ++ leBytes 4 16 ++ leBytes 2 1 ++ leBytes 2 1 ++ [1, 0, 0, 0]] }
    { st := .wait, inq := [(0, [⟨7, void⟩])], spad := { cells := [(0, 5)] }, wins := [(0, { isOpen := opened })] }

theorem witness_MemorySlotReads :
    ∀ o ∈ [(0, 1, 0), (1, 2, 0), (2, 3, 0), (0, 4, 0), (1, 5, 0), (2, 6, 0), (0, 8, 0), (1, 8, 1), (2, 8, 2), (2, 8, 3)],
      ∃ m e x, Acts (memOp o.1 o.2.1 o.2.2 false false) 0 (3 + o.1) m e x ∧ decide (e.mop o.1 = o.2.1 ∧ e.tdst o.1 = o.2.2) = true := by
  intro o h
  have k : ∀ o ∈ [(0, 1, 0), (1, 2, 0), (2, 3, 0), (0, 4, 0), (1, 5, 0), (2, 6, 0), (0, 8, 0), (1, 8, 1), (2, 8, 2), (2, 8, 3)],
      actsBy (memOp o.1 o.2.1 o.2.2 false false) (3 + o.1) (fun _ e _ => decide (e.mop o.1 = o.2.1 ∧ e.tdst o.1 = o.2.2)) = true := by
    decide +kernel
  exact acts_of _ _ _ (k o h)

/-- WR_IN; WIN in an open window, WIN of a void token outside every window, WIN astray. -/
theorem witness_MemorySlotWrites :
    ∀ o ∈ [(0, 7, false, false), (1, 9, true, false), (2, 9, false, true), (2, 9, false, false)],
      ∃ m e x, Acts (memOp o.1 o.2.1 0 o.2.2.1 o.2.2.2) 0 (3 + o.1) m e x ∧
        decide (e.mop o.1 = o.2.1 ∧ (x.headD (e.mport o.1)).void = o.2.2.2 ∧ x.inWin m (x.stream (e.str o.1)).ptr = o.2.2.1) = true := by
  intro o h
  have k : ∀ o ∈ [(0, 7, false, false), (1, 9, true, false), (2, 9, false, true), (2, 9, false, false)],
      actsBy (memOp o.1 o.2.1 0 o.2.2.1 o.2.2.2) (3 + o.1) (fun m e x => decide (e.mop o.1 = o.2.1 ∧
        (x.headD (e.mport o.1)).void = o.2.2.2 ∧ x.inWin m (x.stream (e.str o.1)).ptr = o.2.2.1)) = true := by decide +kernel
  exact acts_of _ _ _ (k o h)

theorem witness_ScratchpadReadAfterWrite : ([1, 2] : List W32).length ≤ 131072 ∧
    ∀ i, i < 2 → (131071 + i) % 131072 ≠ 1 % 131072 := by decide +kernel

/-- A steering unit in a mode, data and bearings waiting in its queues and tokens at W, DIN N, IN1 E, BSRC W, OUT0 S, OUT1 E. -/
def steers (u mode : Nat) : State :=
  let d : W64 × W64 := (BitVec.ofNat 64 (mode * 2 ^ 61 + 1 * 2 ^ 58 + 2 * 2 ^ 55 + 4 * 2 ^ 52 + 2 * 2 ^ 48 + 3 * 2 ^ 45 + 2 * 2 ^ 42), 0)
  oneTile { entries := [{ route := BitVec.ofNat 32 (2 ^ (16 + u)) }], steer := (List.range 4).map (fun i => if i = u then d else (0, 0)) }
    { st := .wait, inq := [(0, [⟨5, false⟩]), (1, [⟨6, false⟩]), (3, [⟨7, false⟩])],
      steer := [(u, { dataq := [⟨9, false⟩], bearq := [⟨true, true⟩] })] }

theorem witness_RoutesAndSteering :
    (∃ m e x, Acts (waits { route := BitVec.ofNat 32 (3 * 2 ^ 29 + 1 * 2 ^ 26) } { inq := [(0, [⟨5, false⟩]), (2, [⟨6, false⟩])] }) 0 6 m e x) ∧
    ∀ o ∈ [(0, 1), (1, 2), (2, 4), (3, 3)], ∃ m e x, Acts (steers o.1 o.2) 0 (7 + o.1) m e x ∧
      decide (stMode (m.steerOf o.1) = o.2 ∧ dirCode (stOut0 (m.steerOf o.1)) = some .south ∧ dirCode (stOut1 (m.steerOf o.1)) = some .east ∧
        dirCode (stIn1 (m.steerOf o.1)) = some .east ∧ (x.unitOf o.1).firing = 0) = true := by
  constructor
  · obtain ⟨m, e, x, h, -⟩ := acts_of (waits { route := BitVec.ofNat 32 (3 * 2 ^ 29 + 1 * 2 ^ 26) } { inq := [(0, [⟨5, false⟩]), (2, [⟨6, false⟩])] })
      6 (fun _ _ _ => true) (by decide +kernel)
    exact ⟨m, e, x, h⟩
  · intro o h
    have k : ∀ o ∈ [(0, 1), (1, 2), (2, 4), (3, 3)], actsBy (steers o.1 o.2) (7 + o.1)
        (fun m _ x => decide (stMode (m.steerOf o.1) = o.2 ∧ dirCode (stOut0 (m.steerOf o.1)) = some .south ∧
          dirCode (stOut1 (m.steerOf o.1)) = some .east ∧ dirCode (stIn1 (m.steerOf o.1)) = some .east ∧ (x.unitOf o.1).firing = 0)) = true := by
      decide +kernel
    exact acts_of _ _ _ (k o h)

/-- A FILTER whose bearings are the three bits 011 of PATTERN, `n` of them taken. -/
def patterned (n : Nat) : State :=
  oneTile { entries := [{ route := BitVec.ofNat 32 (2 ^ 16) }],
            steer := [(BitVec.ofNat 64 (4 * 2 ^ 61 + 1 * 2 ^ 58 + 3 * 2 ^ 45 + 2 * 2 ^ 27), 3)] }
    { st := .wait, inq := [(0, [⟨5, false⟩])], steer := [(0, { dataq := [⟨9, false⟩], pat := n })] }

theorem witness_RoutesAndSteering_pattern :
    ∀ n ∈ [0, 1, 2], ∃ m e x, Acts (patterned n) 0 7 m e x ∧
      decide (stMode (m.steerOf 0) = 4 ∧ stBsrc (m.steerOf 0) = 0 ∧ stPlen (m.steerOf 0) = 2 ∧ (x.unitOf 0).pat = n ∧
        (stPattern (m.steerOf 0) n = true ↔ n ≠ 2) ∧ dirCode (stOut0 (m.steerOf 0)) = some .south) = true := by
  intro n h
  have k : ∀ n ∈ [0, 1, 2], actsBy (patterned n) 7 (fun m _ x => decide (stMode (m.steerOf 0) = 4 ∧ stBsrc (m.steerOf 0) = 0 ∧
      stPlen (m.steerOf 0) = 2 ∧ (x.unitOf 0).pat = n ∧ (stPattern (m.steerOf 0) n = true ↔ n ≠ 2) ∧
      dirCode (stOut0 (m.steerOf 0)) = some .south)) = true := by decide +kernel
  exact acts_of _ _ _ (k n h)

/-- 04 R128: after bit PLEN the place in PATTERN returns to bit 0. -/
theorem test_pattern_wraps : ∀ n ∈ [0, 1, 2], (((after (.filter 0 0) (patterned n)).tile 0).unitOf 0).pat = (if n = 2 then 0 else n + 1) := by decide +kernel

/-- The convergence loop of eight firings in unit 0: `n` of them made, its flag, the next bearing. -/
def loops (n : Nat) (active b : Bool) : State :=
  oneTile { entries := [{ route := BitVec.ofNat 32 (2 ^ 16) }], steer := [(0x7131440800000000, 0)] }
    { st := .wait, inq := [(0, [⟨5, false⟩]), (1, [⟨6, false⟩]), (2, [⟨7, false⟩])],
      steer := [(0, { dataq := [⟨9, false⟩], bearq := [⟨b, true⟩], firing := n, active := active, hold := ⟨3, false⟩ })] }

theorem witness_RoutesAndSteering_loop :
    ∀ o ∈ [(1, true, true), (7, true, false), (7, false, true), (8, true, true), (8, false, true)], ∃ m e x, Acts (loops o.1 o.2.1 o.2.2) 0 7 m e x ∧
      decide (stMode (m.steerOf 0) = 3 ∧ (x.unitOf 0).firing = o.1 ∧ (x.unitOf 0).active = o.2.1 ∧ ((x.unitOf 0).bearq.headD ⟨false, false⟩).val = o.2.2 ∧
        (dirCode (stIn1 (m.steerOf 0))).isSome ∧ (dirCode (stOut0 (m.steerOf 0))).isSome ∧ (dirCode (stOut1 (m.steerOf 0))).isSome ∧
        (o.1 < stTrip (m.steerOf 0) ↔ o.1 ≠ 8)) = true := by
  intro o h
  have k : ∀ o ∈ [(1, true, true), (7, true, false), (7, false, true), (8, true, true), (8, false, true)], actsBy (loops o.1 o.2.1 o.2.2) 7
      (fun m _ x => decide (stMode (m.steerOf 0) = 3 ∧ (x.unitOf 0).firing = o.1 ∧ (x.unitOf 0).active = o.2.1 ∧
        ((x.unitOf 0).bearq.headD ⟨false, false⟩).val = o.2.2 ∧ (dirCode (stIn1 (m.steerOf 0))).isSome ∧ (dirCode (stOut0 (m.steerOf 0))).isSome ∧
        (dirCode (stOut1 (m.steerOf 0))).isSome ∧ (o.1 < stTrip (m.steerOf 0) ↔ o.1 ≠ 8))) = true := by decide +kernel
  exact acts_of _ _ _ (k o h)

/-- A data queue of three and a bearing queue with room for just the two bearings of a token. -/
theorem witness_SteeringIntakes :
    let s : State := (steers 0 1).setTile 0 { (steers 0 1).tile 0 with steer := [(0, { dataq := List.replicate 3 ⟨1, false⟩, bearq := List.replicate 14 ⟨true, true⟩ })] }
    ∃ m, s.steering 0 = some m ∧ stMode (m.steerOf 0) ≠ 0 ∧ dirCode (stDin (m.steerOf 0)) = some .north ∧ (s.tile 0).inQ .north = [⟨5, false⟩] ∧
      ((s.tile 0).unitOf 0).dataq.length < 4 ∧ dirCode (stBsrc (m.steerOf 0)) = some .west ∧ (s.tile 0).inQ .west = [⟨7, false⟩] ∧
      ((s.tile 0).unitOf 0).bearq.length + stBpt (m.steerOf 0) ≤ 16 := by
  refine ⟨_, rfl, ?_⟩
  decide +kernel

/-- An idle tile whose RUN has a pass left; a null entry; a firing with its share done, of REP 1 and SEQ 0. -/
def passing : State := oneTile { entries := [{ vec := 0x20000000 }] } {}
def nulling : State := waits { ctrl := 0x80000000 } {}
def firing (ctrl : W32) (fired : Nat) : State :=
  oneTile { entries := [{ ctrl := ctrl, vec := 0x20000000 }, {}] } { st := .fire, firing := some { done := [2] }, fired := fired }

theorem witness_PassesAndFirings_start :
    ∃ m r, passing.img 0 = some m ∧ passing.run = some r ∧ passing.doorClosed .dataflow (passing.physOf (tileRegion 0)) = false ∧
      ((passing.tile 0).st = .idle ∨ (passing.tile 0).st = .done) ∧ (passing.tile 0).passes < r.steps ∧ r.waiting = false ∧
      passing.rcv.phase = .idle ∧ passing.wp.released = true := by
  refine ⟨_, _, rfl, rfl, ?_⟩
  decide +kernel

theorem witness_PassesAndFirings_null : ∃ m, nulling.img 0 = some m ∧ (nulling.tile 0).st = .wait ∧ ((nulling.tile 0).cur m).isNull = true := by
  refine ⟨_, rfl, ?_⟩
  decide +kernel

/-- A repetition left; the last firing with SEQ 0, with SEQ 3, with WPT. -/
theorem witness_PassesAndFirings_complete :
    ∀ o ∈ [((1 : W32), 0), (1, 1), (0x18000000, 0), (0x40000000, 0)], ∃ m f, (firing o.1 o.2).img 0 = some m ∧ ((firing o.1 o.2).tile 0).st = .fire ∧
      ((firing o.1 o.2).tile 0).firing = some f ∧
      (∀ k, k < 11 → (((firing o.1 o.2).tile 0).cur m).names k = true → k ∈ f.done) ∧
      (∀ k, k < 8 → ((firing o.1 o.2).tile 0).due m k = true → (((firing o.1 o.2).tile 0).winOf k).served = true) ∧
      (((firing o.1 o.2).tile 0).cur m).isChk = false := by
  intro o h
  refine ⟨_, _, rfl, rfl, rfl, ?_⟩
  revert o
  decide +kernel

/-- The last firing of an entry with SEQ 1, TGT 1 and LOOP 2, whose loop of four trips has made `n`. -/
def looping (n : Nat) : State :=
  oneTile { entries := [{ ctrl := BitVec.ofNat 32 (1 * 2 ^ 27 + 1 * 2 ^ 16 + 2 * 2 ^ 13), vec := 0x20000000 }, {}], loops := [0, 0, 3] }
    { st := .fire, firing := some { done := [2] }, lc := [(2, n)] }

theorem witness_PassesAndFirings_loop :
    ∀ n ∈ [2, 3], ∃ m f, (looping n).img 0 = some m ∧ ((looping n).tile 0).st = .fire ∧ ((looping n).tile 0).firing = some f ∧
      (let e := ((looping n).tile 0).cur m
       e.isChk = false ∧ e.isWpt = false ∧ e.seq = 1 ∧ e.loop = 2 ∧ e.tgt = 1 ∧ e.rep ≤ ((looping n).tile 0).fired ∧
         (tget 0 ((looping n).tile 0).lc e.loop + 1 < m.loops.getD e.loop 0 + 1 ↔ n = 2) ∧ ∀ k, k < 11 → e.names k = true → k ∈ f.done) := by
  intro n h
  refine ⟨_, _, rfl, rfl, rfl, ?_⟩
  revert n
  decide +kernel

/-- An S8 at the end of a check entry: SEXTANT_ENABLE `on`, one firing seen where the record expects `due`. -/
def checking (on due : Nat) : State :=
  { variant := 8, run := some {}, dict := { objs := [(okey 0x9020 1, on)] },
    chart := some { place := [(0, 0, 0)], tiles := [{ entries := [{ ctrl := 0x20000000, vec := 0x20000000 }, {}], checkCount := 1 }],
                    checks := [⟨0, 0, [due], []⟩] },
    tiles := [(0, { st := .fire, firing := some { done := [2] } })] }

theorem witness_PassesAndFirings_check :
    ∀ o ∈ [(0, 2), (1, 1), (1, 2)], ∃ m f r, (checking o.1 o.2).img 0 = some m ∧ ((checking o.1 o.2).tile 0).st = .fire ∧
      ((checking o.1 o.2).tile 0).firing = some f ∧ (checking o.1 o.2).checkOf m 0 = some (0, r) ∧
      (let e := ((checking o.1 o.2).tile 0).cur m
       e.isChk = true ∧ e.isWpt = false ∧ e.seq = 0 ∧ e.rep ≤ ((checking o.1 o.2).tile 0).fired ∧ (checking o.1 o.2).obj 0x9020 1 = o.1 ∧
         ∀ j, j < 11 → (tget 0 (((checking o.1 o.2).tile 0).settle m).sx j = r.first.getD j 0 ↔ j ≠ 0 ∨ o.2 = 1)) := by
  intro o h
  refine ⟨_, _, _, rfl, rfl, rfl, rfl, ?_⟩
  revert o
  decide +kernel

/-- Tiles 7 and 32, neighbours across an edge between two regions; the second region placed or empty. -/
def linked (both : Bool) : State :=
  { variant := 2, chart := some { place := if both then [(0, 0, 0), (0, 0, 1)] else [(0, 0, 0)] },
    tiles := [(7, { outq := [(1, [⟨3, false⟩, ⟨4, false⟩])] }), (32, { inq := [(3, List.replicate 15 ⟨1, false⟩)] })] }

theorem witness_MeshTransfers :
    (∀ b ∈ [true, false], (linked b).isPlaced (tileRegion 7) = true ∧ (linked b).meshUp 7 = true ∧ (linked b).tapAt 7 .east = none ∧
      ((linked b).tile 7).outQ .east = [⟨3, false⟩, ⟨4, false⟩] ∧ neighbour (linked b).variant 7 .east = some 32 ∧
      (linked b).isPlaced (tileRegion 32) = b) ∧
    (linked true).meshUp 32 = true ∧ (((linked true).tile 32).inQ .west).length < 16 ∧ ((linked false).crossing 32 .east).length < 16 := by
  decide +kernel

theorem witness_CorrectedErrorsOnlyCount :
    (∀ o ∈ [1, 2, 3, 4], ∃ m e x, Acts (arrayOp o 2 0 0) 0 0 m e x ∧ decide (e.aop = o) = true) ∧
    (∀ o ∈ [1, 2, 4], ∃ m e x, Acts (gemvOp o 0) 0 1 m e x ∧ decide (e.gop = o) = true) ∧
    (∃ m e x, Acts (vecMove 1 false) 0 2 m e x ∧ decide (e.vop = 1) = true) ∧
    ∀ o ∈ [(0, 1), (1, 2), (2, 3), (0, 4), (1, 5), (2, 6), (0, 8)], ∃ m e x,
      Acts (memOp o.1 o.2 0 false false) 0 (3 + o.1) m e x ∧ decide (e.mop o.1 = o.2) = true := by
  have a : ∀ o ∈ [1, 2, 3, 4], actsBy (arrayOp o 2 0 0) 0 (fun _ e _ => decide (e.aop = o)) = true := by decide +kernel
  have g : ∀ o ∈ [1, 2, 4], actsBy (gemvOp o 0) 1 (fun _ e _ => decide (e.gop = o)) = true := by decide +kernel
  have b : ∀ o ∈ [(0, 1), (1, 2), (2, 3), (0, 4), (1, 5), (2, 6), (0, 8)],
      actsBy (memOp o.1 o.2 0 false false) (3 + o.1) (fun _ e _ => decide (e.mop o.1 = o.2)) = true := by decide +kernel
  exact ⟨fun o h => acts_of _ _ _ (a o h), fun o h => acts_of _ _ _ (g o h), acts_of _ _ _ (by decide +kernel), fun o h => acts_of _ _ _ (b o h)⟩

/-! ## Witnesses: the machine, its memories, power -/

theorem witness_invariants : MemoriesWf State.reset ∧ FirmwareSafe State.reset ∧ State.reset.pending = [] ∧ ∃ u, step State.reset = .next u := by
  refine ⟨?_, ?_, rfl, _, rfl⟩
  · unfold MemoriesWf; decide +kernel
  · unfold FirmwareSafe; decide +kernel

theorem witness_MemoryReadAfterWrite :
    let m : Memory := { cells := [(3, 7), (9, 1)] }
    m.wf = true ∧ (3 : Nat) < 8 ∧ 8 + ([1, 2] : List Byte).length ≤ 10 := by decide +kernel

/-- An S2 with main power on, its Helm at work. -/
def liveS2 : State :=
  { variant := 2, pw := { vsb := true, helmUp := true, time := 5000000000, state := .on, permit := true, inputOn := true, railsUp := true, stacksUp := true,
                          vin := 0x42580000, power := 0x44960000, vpwr := 700000, regions := [(0, { vset := 700, vth := 700000, shutter := .opened })] },
    hi := { ready := true }, link := { refclk := true } }

/-- The same module in another power state. -/
def inState (st : PwState) (stage stopStep : Nat) : State :=
  { liveS2 with pw := { liveS2.pw with state := st, stage := stage, stopStep := stopStep } }

theorem witness_EveryCommandCompletes : liveS2.helmRuns = true ∧ (1000000 : Nat) ≤ 1000000 := by decide +kernel

theorem witness_StandbyPower :
    State.reset.pw.vsb = false ∧ liveS2.pw.vsb = true ∧ liveS2.pw.inputOn = true ∧ liveS2.pw.helmUp = true ∧
      (State.reset.variant = 2 ∨ State.reset.variant = 4 ∨ State.reset.variant = 8) := by decide +kernel

/-- In STANDBY without PWR_PERMIT; in each stage of the power-up. -/
theorem witness_PowerUp :
    let s : State := { inState .standby 0 0 with pw := { (inState .standby 0 0).pw with permit := false } }
    (s.helmRuns = true ∧ s.helm.recovery = false ∧ s.pw.permit = false ∧ s.pw.state = .standby ∧ s.pw.failPend = false ∧ s.pw.again = false) ∧
    ((inState .starting 2 0).stageOver false = true ∧ (inState .starting 5 0).stageOver true = false) ∧
    ∀ k ∈ [1, 2, 3, 4, 5, 6, 8], (inState .starting k 0).helmRuns = true ∧ (inState .starting k 0).helm.recovery = false ∧
      (inState .starting k 0).pw.state = .starting ∧ (inState .starting k 0).pw.stage = k ∧ (inState .starting k 0).vinOk = true ∧
      (inState .starting k 0).rcv.oosPend = none ∧ gridLost (inState .starting k 0).variant (inState .starting k 0).rcv.effective = false := by
  decide +kernel

/-- A command of queue 0 with SEQ 1 that has started: the fields of its submission entry. -/
def entryOf (op : Nat) (b : List Byte) : List Byte := leBytes 1 op ++ zeros 7 ++ b ++ zeros (56 - b.length)
def cmdOf (op : Nat) (b : List Byte) : Cmd := { seq := 1, entry := entryOf op b, jstate := 2 }

theorem witness_PowerDown :
    (liveS2.helmRuns = true ∧ liveS2.helm.recovery = false ∧ liveS2.pw.permit = true ∧ liveS2.pw.state = .on) ∧
    (let s : State := { inState .stopping 0 2 with dict := { objs := [(okey 0x2030 0, 0)] } }
     s.pw.state = .stopping ∧ s.pw.stopStep = 2 ∧ s.hi.cmds = [] ∧ s.obj 0x2030 0 = 0) ∧
    (inState .stopping 0 5).pw.stopStep = 5 ∧
    (let s : State := { inState .stopping 0 2 with
        pw := { (inState .stopping 0 2).pw with time := 10000000000 }, hi := { cmds := [cmdOf 6 []] } }
     s.helmRuns = true ∧ s.hi.cmds ≠ [] ∧ s.pw.stopAt + s.obj 0x2031 0 * 1000000 ≤ s.now) ∧
    (let s : State := { liveS2 with rcv := { cycleDue := true } }; s.helmRuns = true ∧ s.rcv.cycleDue = true ∧ s.pw.state ≠ .tripped ∧ s.pw.failPend = false ∧ s.cycleWaits = false) ∧
    (let s : State := { liveS2 with rcv := { cycleDue := true, cycleBy := 1 }, hi := { cmds := [cmdOf 8 []] } }; s.cycleWaits = true) ∧
    (inState .cycling 0 0).pw.permit = true ∧ (inState .cycling 0 0).pw.cycleAt + (inState .cycling 0 0).obj 0x2032 0 * 1000000 ≤ (inState .cycling 0 0).now := by
  decide +kernel

theorem witness_ModuleTrips :
    (liveS2.pw.vsb = true ∧ liveS2.pw.inputOn = true ∧
      ∀ x ∈ [(TripCause.thermal, 1920, (0x42480000 : W32)), (.vinLow, 0, 0x42240000), (.vinHigh, 0, 0x427C0000), (.current, 0, 0x42480000), (.rail, 0, 0x42480000)],
        tripSeen 2 x.1 { regionT := [(0, x.2.1)], stackT := [], helm := 0, vin := x.2.2, standby := 0, current := 0x42800000, power := 0 } = true) ∧
    (let s : State := { inState .tripped 0 0 with pw := { (inState .tripped 0 0).pw with armed := true } }
     s.helmRuns = true ∧ s.helm.recovery = false ∧ s.pw.state = .tripped ∧ s.pw.armed = true ∧ s.pw.permit = true ∧ s.vinOk = true ∧ s.sensorsCool = true) := by
  decide +kernel

/-- Readings at the thresholds do not trip; PWR_PERMIT low for 1 s and for 1 ns less; each condition of the restart missing in turn. -/
theorem witness_ModuleTrips_waits :
    (∀ x ∈ [(TripCause.thermal, 1919, (0x42480000 : W32)), (.vinLow, 0, 0x42280000), (.vinHigh, 0, 0x42780000), (.current, 0, 0x42480000)],
      tripSeen 2 x.1 { regionT := [(0, x.2.1)], stackT := [], helm := 0, vin := x.2.2, standby := 0, current := 0x41800000, power := 0 } = false) ∧
    (∀ t ∈ [3999000000, 3999000001], (let s : State := { inState .tripped 0 0 with pw := { (inState .tripped 0 0).pw with permit := false, permitAt := t } }
      s.pw.state = .tripped ∧ s.pw.permit = false ∧ (s.pw.permitAt + 1000000000 ≤ s.now - 1000000 ↔ t = 3999000000))) ∧
    ((inState .tripped 0 0).pw.permit = true ∧ (inState .tripped 0 0).pw.vsb = true ∧ (inState .tripped 0 0).pw.armed = false) ∧
    (let s : State := { inState .tripped 0 0 with pw := { (inState .tripped 0 0).pw with armed := true, vin := 0x422FFFFF } }; s.vinOk = false) ∧
    (let s : State := { inState .tripped 0 0 with pw := { (inState .tripped 0 0).pw with armed := true, stackT := [(7, 1440)] } }
     s.vinOk = true ∧ s.sensorsCool = false) := by
  decide +kernel

/-- Region 0 is open and presented. -/
theorem witness_PowerLoopMovesItsCap : liveS2.loopsRun = true ∧ 0 < 24 * liveS2.variant ∧ liveS2.openPresented 0 = true := by decide +kernel

theorem witness_SensorsAndThermalLoop :
    let s : State := { liveS2 with pw := { liveS2.pw with vpwrFloor := some 4900000000, regions := [(0, { shutter := .opened, floorAt := some 4900000000 })] } }
    s.helmRuns = true ∧ (([((0 : Nat), (1200 : Int)), (1, 1300)] : List (Nat × Int)).map Prod.fst).Nodup ∧ s.loopsRun = true ∧ s.openPresented 0 = true ∧
      s.pw.vpwrFloor = some 4900000000 ∧ 4900000000 + 100000000 ≤ s.now ∧ (s.rpw (s.physOf 0)).floorAt = some 4900000000 := by
  decide +kernel

/-- A hot region that no chart uses; a region whose shutter is required open and is closed. -/
theorem witness_RegionTripsAndShutters :
    let s : State := { liveS2 with pw := { liveS2.pw with regions := [(0, { shutter := .opened, temp := 1760 })] }, dict := { objs := [(okey 0x2020 0, 0)] } }
    0 < 28 * s.variant ∧ s.pw.railsUp = true ∧ (s.rpw 0).shutter ≠ .regulator ∧ (s.rpw 0).shutter ≠ .tripped ∧ 110 * 16 ≤ (s.rpw 0).temp ∧ s.chart = none ∧
      s.loopsRun = true ∧ s.shutterAllowed 1 = false ∧ (s.rpw 1).shutter = .empty := by
  decide +kernel

/-- The sticky bits of the two caps' alarms stand already. -/
theorem witness_SensorsAndThermalLoop_sticky :
    (liveS2.obj 0x2040 1).testBit 2 = false ∧ (liveS2.obj 0x2040 1).testBit 0 = false ∧
      (let s : State := { liveS2 with dict := { objs := [(okey 0x2040 1, 5)] } }
       s.loopsRun = true ∧ (s.obj 0x2040 1).testBit 2 = true ∧ (s.obj 0x2040 1).testBit 0 = true) := by decide +kernel

/-- Ports that work and that train when the reference goes; none; no reference. -/
theorem witness_ClockAndPcieLink :
    (let s : State := { liveS2 with link := { refclk := true, ports := [(0, { st := .active }), (3, { st := .align })] } }
     s.pw.vsb = true ∧ s.link.refclk = true ∧ s.variant = 2 ∧ (s.port 0).st ≠ .down ∧ (s.port 3).st ≠ .down ∧ (s.port 1).st = .down) ∧
    (liveS2.pw.vsb = true ∧ liveS2.link.refclk = true ∧ ∀ p, p < 2 * liveS2.variant → (liveS2.port p).st = .down) ∧
    (let s : State := { liveS2 with link := {} }; s.pw.vsb = true ∧ s.link.refclk = false) ∧ liveS2.helmRuns = true := by
  decide +kernel
/-! ## Witnesses: faults and the host interface -/

/-- An S2 that runs the one-tile chart, its Helm at work. -/
def runs (m : TileImg) (x : Tile) : State := { liveS2 with chart := some { place := [(0, 0, 0)], tiles := [m] }, run := some { seq := 1, steps := 4 }, tiles := [(0, x)] }

/-- OWNERSHIP in tile 0. -/
def owned : FaultIn := ⟨1, clsR, (.dataflow, 0), some 0, some 0, 1, none, []⟩

theorem witness_FaultsAreRecorded :
    let s := runs {} {}
    s.oos = false ∧ s.rcv.phase = .idle ∧ s.running = true ∧ s.effClass owned = clsR := by decide +kernel

/-- A stamp of exactly 900 s ago counts, one of 1 ns more does not. -/
theorem witness_RepeatedRegionFaults :
    owned.cls = clsR ∧ regionCause owned.cause = true ∧ owned.region = some 0 ∧
    (let s : State := { liveS2 with pw := { liveS2.pw with time := 900000000007 }, rcv := { rStamps := [(0, 7)] } }
     ∃ x ∈ s.rcv.rStamps, x.1 = 0 ∧ x.2 ≤ s.now ∧ s.now ≤ x.2 + 900 * 1000000000) ∧
    (let s : State := { liveS2 with pw := { liveS2.pw with time := 900000000008 }, rcv := { rStamps := [(0, 7)] } }
     ∀ x ∈ s.rcv.rStamps, x.1 = 0 → x.2 ≤ s.now → x.2 + 900 * 1000000000 < s.now) := by decide +kernel

/-- A tile that has waited for 2 s. -/
def silent : State := { runs {} { st := .wait } with regions := [(0, { since := 3000000000 })] }
def asked : State := { runs {} { st := .wait } with rcv := { queries := [(0, true)] } }
/-- A reset issued 1 s ago. -/
def resetting (k : DomKind) (i : Nat) : State := { liveS2 with rcv := { resets := [⟨k, i, 4000000000⟩] } }

theorem witness_WatchdogAndResets :
    (∃ c r, silent.chart = some c ∧ silent.run = some r ∧ r.waiting = false ∧ 0 ∈ c.placed ∧ silent.rcv.phase = .idle ∧
      silent.doorClosed .dataflow (silent.physOf 0) = false ∧ silent.doorClosed .tier (silent.physOf 0) = false ∧
      silent.watchdogSees c 0 false = true) ∧
    (asked.helmRuns = true ∧ asked.rcv.queries.find? (fun q => decide (q.1 = 0)) = some (0, true)) ∧
    (∀ d ∈ [(DomKind.dataflow, 3), (.link, 1), (.die, 1), (.module, 0)],
      (resetting d.1 d.2).rcv.resets.find? (fun x => decide (x.kind = d.1 ∧ x.ix = d.2)) = some ⟨d.1, d.2, 4000000000⟩ ∧
        d.2 < domCount 2 d.1 ∧ 4000000000 + 1000 ≤ (resetting d.1 d.2).now ∧ (resetting d.1 d.2).helmRuns = true ∧
        4000000000 + domBound d.1 < (resetting d.1 d.2).now ∧ (resetting d.1 d.2).chart = none ∧ (resetting d.1 d.2).rcv.incident = 0) ∧
    (let s : State := { runs {} {} with rcv := { resets := [⟨.die, 1, 4000000000⟩], incident := 3, phase := .resetOnly } }
     s.chart.isSome = true ∧ s.rcv.phase ≠ .replaying ∧ s.rcv.incident ≠ 0) := by
  refine ⟨⟨_, _, rfl, rfl, ?_⟩, ?_, ?_, ?_⟩ <;> decide +kernel

/-- A replay whose resets have completed, with `n` replays from its waypoint; one held for a port since 15 s ago. -/
def replaying (n : Nat) : State :=
  { runs { trow := 1 } { st := .hold } with rcv := { phase := .replaying, replays := n, incident := 1, closed := [(.dataflow, 0)] } }
def held : State :=
  { runs {} {} with pw := { liveS2.pw with time := 20000000000 }, hi := { cmds := [cmdOf 4 []] },
                    rcv := { phase := .replaying, linkHold := true, linkSince := 5000000000, linkLimit := 10000, incident := 1 } }

theorem witness_ReplaysResume :
    (∀ n ∈ [8], ∃ c r, (replaying n).chart = some c ∧ (replaying n).run = some r ∧ (replaying n).rcv.phase = .replaying ∧ (replaying n).rcv.resets = [] ∧
      (replaying n).rcv.linkHold = false ∧ (replaying n).rcv.cycleDue = false ∧ (replaying n).helmRuns = true ∧
      (replaying n).rcv.resumeWpt = (replaying n).wp.reg ∧ r.stopDue = false ∧ (replaying n).hi.held = [] ∧ c.tileList.Nodup ∧ (∀ m ∈ c.tiles, tileRegion (c.tileOf m) ∈ c.placed)) ∧
    (∀ n ∈ [7, 8], (let s : State := { replaying n with rcv := { replays := n } }
      s.oos = false ∧ s.rcv.phase = .idle ∧ s.running = true ∧ s.effClass owned = clsR ∧ (s.obj 0x6022 0 < s.replaysSoFar + 1 ↔ n = 8))) ∧
    (held.rcv.phase = .replaying ∧ held.rcv.linkHold = true ∧ held.rcv.linkSince + 1000000 * held.rcv.linkLimit < held.now ∧ held.helmRuns = true ∧
      ∃ r, held.run = some r ∧ ∃ x ∈ held.hi.cmds, x.seq = r.seq) := by
  constructor
  · intro n h
    refine ⟨_, _, rfl, rfl, ?_⟩
    revert n
    decide +kernel
  · refine ⟨by decide +kernel, ?_, ?_, ?_, ?_, _, rfl, ?_⟩ <;> decide +kernel

/-- The control record that a replay from waypoint 1 restores meets an error. -/
theorem witness_ReplaysResume_stack :
    let s : State := { replaying 1 with wp := { count := 1, reg := 1 }, rcv := { phase := .replaying, resumeWpt := 1 } }
    ∃ c r, s.chart = some c ∧ s.run = some r ∧ ueIn (some (c.controlAt 1 0 + 255)) (s.resumeReach c) = some (c.controlAt 1 0 + 255) ∧
      ueIn (some 0x900000) (s.resumeReach c) = none := by
  refine ⟨_, _, rfl, rfl, ?_⟩
  decide +kernel

/-- Queue 0 off, and on. -/
theorem witness_QueueRegisters :
    liveS2.barServed = true ∧ (liveS2.queue 0).enable = false ∧
    (let s : State := { liveS2 with hi := { queues := [(0, { enable := true })] } }; (s.queue 0).enable = true) ∧
    (1 : W32).getLsbD 0 = true ∧ (2 : W32).getLsbD 0 = false ∧ (4095 : W32).toNat ≤ 4095 ∧ 4095 < (4096 : W32).toNat := by
  decide +kernel

theorem witness_HostRegisters :
    liveS2.barServed = true ∧ (0x400000000 : W64).toNat % liveS2.hi.bar2Size = 0 ∧ (0x10000 ≤ 0x103F8 ∧ 0x103F8 + 8 ≤ 0x10400 ∧ 0x103F8 % 8 = 0) ∧
      (0xF < 0x10) := by decide +kernel

/-- The last bytes of the window; the first byte past device memory; the journal; memory offline. -/
theorem witness_MemoryWindow :
    let s := liveS2
    let t : State := { liveS2 with hi := { liveS2.hi with winBase := 0x8000000000 } }
    let o := inState .standby 0 0
    let j : State := { liveS2 with hi := { liveS2.hi with winBase := BitVec.ofNat 64 journalBase } }
    let c : State := { liveS2 with rcv := { closed := [(.stack, 0)] } }
    (s.stackHeld 0 (s.hi.winBase.toNat + 0x3FFFFFFF8) 8 = false ∧ c.barServed = true ∧ c.inDevice (c.hi.winBase.toNat + 0x3FFFFFFF8) 8 = true ∧
      c.writeRefused (c.hi.winBase.toNat + 0x3FFFFFFF8) 8 = false ∧ c.memOffline = false ∧ c.stackHeld 0 (c.hi.winBase.toNat + 0x3FFFFFFF8) 8 = true) ∧
    s.barServed = true ∧ 0x3FFFFFFF8 + 8 ≤ s.hi.bar2Size ∧ s.inDevice (s.hi.winBase.toNat + 0x3FFFFFFF8) 8 = true ∧
      s.writeRefused (s.hi.winBase.toNat + 0x3FFFFFFF8) 8 = false ∧ s.memOffline = false ∧ s.hi.winCode = 0 ∧ t.barServed = true ∧
      t.inDevice (t.hi.winBase.toNat + 0) 1 = false ∧ j.writeRefused (j.hi.winBase.toNat + 0) 1 = true ∧ o.barServed = true ∧ o.memOffline = true := by
  decide +kernel

/-- An entry in queue 0: FENCE, an opcode that does not exist. -/
def submits (op : Byte) : State :=
  { liveS2 with hi := { ready := true, queues := [(0, { enable := true, sqBase := 0x1000, cqBase := 0x2000, sqTail := 1 })] },
                hostMem := if op = 0 then {} else { cells := [(0x1000, op)] } }
def waitsCmd : State := { liveS2 with hi := { ready := true, cmds := [{ seq := 1, entry := entryOf 6 [] }] } }
def endedCmd (post : Bool) : State :=
  { liveS2 with hi := { ready := true, queues := [(0, { enable := true, cqBase := 0x2000, cqTail := 4095 })],
                        cmds := [{ cmdOf 6 [] with ended := true, post := post }] } }

theorem witness_CommandLifecycle :
    (∀ op ∈ [(6 : Byte), 0], (submits op).mayAccept 0 = true ∧ (submits op).slotHeld = false ∧ ∀ c ∈ (submits op).hi.cmds, c.seq < (submits op).hi.jnext) ∧
    (submits 6).acceptFails ((submits 6).hostMem.readN 0x1000 64) = none ∧ fieldAt ((submits 6).hostMem.readN 0x1000 64) 0 1 ≠ 0xA ∧
    (submits 0).acceptFails ((submits 0).hostMem.readN 0x1000 64) = some (2, 0) ∧
    (∃ k, waitsCmd.cmd 1 = some k ∧ waitsCmd.helmRuns = true ∧ k.jstate = 1 ∧ k.ended = false ∧ ∀ d ∈ waitsCmd.hi.cmds, d.queue = k.queue → 1 ≤ d.seq) ∧
    (waitsCmd.journalHeld 1 = false ∧ ∃ k, waitsCmd.cmd 1 = some k ∧ waitsCmd.mayComplete k = false) ∧
    (∀ p, ∃ k, (endedCmd p).cmd 1 = some k ∧ (endedCmd p).mayComplete k = true ∧ k.post = p ∧ ((endedCmd p).queue k.queue).enable = true ∧
      ((endedCmd p).queue k.queue).err = 0) := by
  refine ⟨by decide +kernel, by decide +kernel, by decide +kernel, by decide +kernel, ⟨_, rfl, by decide +kernel⟩, ⟨by decide +kernel, _, rfl, by decide +kernel⟩, ?_⟩
  intro p
  exact ⟨_, rfl, by revert p; decide +kernel⟩

/-- A command ended by a reset waits for the DICT_SET of that reset, and while the journal's stack has its door closed. -/
theorem witness_CommandLifecycle_waits :
    (let s : State := { liveS2 with hi := { cmds := [{ cmdOf 6 [] with ended := true, after := 2 }, { cmdOf 8 [] with seq := 2 }] } }
     ∃ k, s.cmd 1 = some k ∧ k.ended = true ∧ s.mayComplete k = false) ∧
    (let s : State := { endedCmd true with rcv := { closed := [(.stack, 0)] } }
     ∃ k, s.cmd 1 = some k ∧ k.ended = true ∧ s.journalHeld 1 = true ∧ s.mayComplete k = false) := by
  refine ⟨⟨_, rfl, ?_⟩, ⟨_, rfl, ?_⟩⟩ <;> decide +kernel

/-! ## Witnesses: chart commands, RUN, ABORT, COPY, FENCE -/

/-- Command 1 of queue 0 has started. -/
def begun (op : Nat) (b : List Byte) (s : State) : State := { s with hi := { s.hi with cmds := [cmdOf op b] } }

/-- A chart of one tile whose tensor 0 of 128 bytes waits for BIND and whose HOST segment 0 has `n` bytes. -/
def toBind (bound : Bool) (hsegs : List Nat) : State :=
  { liveS2 with chart := some { image := 0x100000, size := 0x1000, place := [(0, 0, 0)], tiles := [{}], wps := 1, id := 7,
                                tensors := [{ fmt := 0, bound := bound, bytes := 128, addr := 0x200000, scaled := false, scale := 0 }],
                                tier := some { hsegs := hsegs.map (fun n => { bytes := n, slots := n / 4096, writable := true }) } } }

theorem witness_ChartCommands_noCopy : NoCopyOf (begun 2 [] (toBind true [])) 1 := by
  intro p x h
  have e : ((begun 2 [] (toBind true [])).port p).copies = [] := rfl
  rw [e] at h
  cases h

theorem witness_ChartCommands :
    ((∃ k, (begun 1 [] liveS2).started 1 1 = some k) ∧ (begun 1 [] liveS2).chart = none ∧
      (∃ k, (begun 1 [] (runs {} {})).started 1 1 = some k ∧ (runs {} {}).chart.isSome = true)) ∧
    ((∃ k, (begun 2 [] liveS2).started 1 2 = some k) ∧ (∃ k, (begun 2 [] (runs {} {})).started 1 2 = some k) ∧ (runs {} {}).run.isSome = true ∧
      (∃ k, (begun 2 [] (toBind true [])).started 1 2 = some k) ∧ (toBind true []).run = none ∧ (toBind true []).rcv.phase = .idle) ∧
    (∃ k, (begun 3 [] liveS2).started 1 3 = some k) ∧ (∃ k, (begun 3 [] (runs {} {})).started 1 3 = some k) ∧
    (let s := begun 3 (zeros 8 ++ leBytes 8 0x300000 ++ leBytes 8 128) (toBind true [])
     ∃ k c, s.started 1 3 = some k ∧ s.chart = some c ∧ s.run = none ∧ fieldAt k.entry 8 1 = 0 ∧
       c.bindBad 0 (fieldAt k.entry 0xA 2) (fieldAt k.entry 0x10 8) (fieldAt k.entry 0x18 8) = none ∧
       s.inDevice (fieldAt k.entry 0x10 8) (fieldAt k.entry 0x18 8) = true ∧
       c.bindFree (fieldAt k.entry 0xA 2) (fieldAt k.entry 0x10 8) (fieldAt k.entry 0x18 8) = true) ∧
    (let s := begun 3 (zeros 8 ++ leBytes 8 0x300000 ++ leBytes 8 127) (toBind true [])
     ∃ k c, s.started 1 3 = some k ∧ s.chart = some c ∧ s.run = none ∧
       c.bindBad (fieldAt k.entry 8 1) (fieldAt k.entry 0xA 2) (fieldAt k.entry 0x10 8) (fieldAt k.entry 0x18 8) = some 0x18) ∧
    (let s := begun 3 (leBytes 8 1 ++ leBytes 8 0x300000 ++ leBytes 8 4096) (toBind true [4096])
     ∃ k c, s.started 1 3 = some k ∧ s.chart = some c ∧ s.run = none ∧ fieldAt k.entry 8 1 = 1 ∧
       c.bindBad 1 (fieldAt k.entry 0xA 2) (fieldAt k.entry 0x10 8) (fieldAt k.entry 0x18 8) = none) := by
  refine ⟨⟨⟨_, rfl⟩, ?_, ⟨_, rfl, ?_⟩⟩, ⟨⟨_, rfl⟩, ⟨_, rfl⟩, ?_, ⟨_, rfl⟩, ?_, ?_⟩, ⟨_, rfl⟩, ⟨_, rfl⟩, ⟨_, _, rfl, rfl, ?_⟩, ⟨_, _, rfl, rfl, ?_⟩,
    ⟨_, _, rfl, rfl, ?_⟩⟩ <;> decide +kernel

/-- A load whose image's stack has its door closed or not; the last byte that its checks read meets an error. -/
theorem witness_ChartCommands_load :
    (∀ d ∈ [[], [(DomKind.stack, 1)]], (let s : State := { begun 1 (leBytes 8 (2 ^ 36)) liveS2 with rcv := { closed := d } }
      ∃ k, s.started 1 1 = some k ∧ s.chart = none ∧ fieldAt k.entry 8 8 = 2 ^ 36 ∧ (s.stackHeld 0 (2 ^ 36) (s.imageReach (2 ^ 36)) = true ↔ d ≠ []) ∧
        ueIn (some (2 ^ 36 + 4095)) [(2 ^ 36, s.imageReach (2 ^ 36))] = some (2 ^ 36 + 4095) ∧
        ueIn (some (2 ^ 36 + 4096)) [(2 ^ 36, s.imageReach (2 ^ 36))] = none ∧ (∀ r ∈ s.run, r.seq ≠ 1) ∧ (s.chartChecks (2 ^ 36)).isSome = true)) := by
  intro d h
  refine ⟨_, rfl, rfl, ?_⟩
  revert d
  decide +kernel

/-- A BIND of a scaled tensor, whose scale record's stack has its door closed or not. -/
theorem witness_ChartCommands_seed :
    ∀ d ∈ [[], [(DomKind.stack, 0)]], (let s : State := { begun 3 (zeros 8 ++ leBytes 8 0x300000 ++ leBytes 8 128) (toBind true []) with
        chart := (toBind true []).chart.map (fun c => { c with tensors := c.tensors.map (fun t => { t with scaled := true, scale := 0x400000 }) }),
        rcv := { closed := d } }
      ∃ k c, s.started 1 3 = some k ∧ s.chart = some c ∧ s.run = none ∧ fieldAt k.entry 8 1 = 0 ∧ c.bindBad 0 0 0x300000 128 = none ∧
        s.inDevice 0x300000 128 = true ∧ c.bindFree 0 0x300000 128 = true ∧ (s.seedHeld c 0 = true ↔ d ≠ [])) := by
  intro d h
  refine ⟨_, _, rfl, rfl, ?_⟩
  revert d
  decide +kernel

/-- The finish of no commit succeeds; a BIND one byte past device memory; one that meets the image. -/
theorem witness_ChartCommands_bind :
    (∃ c, (toBind true []).chart = some c ∧ ((toBind true []).finishCommit c none).1 = true) ∧
    (∀ o ∈ [(0x8000000000 - 127, false), (0x100FFF, true)], (let s := begun 3 (zeros 8 ++ leBytes 8 o.1 ++ leBytes 8 128) (toBind true [])
     ∃ k c, s.started 1 3 = some k ∧ s.chart = some c ∧ s.run = none ∧ fieldAt k.entry 8 1 = 0 ∧
       c.bindBad 0 (fieldAt k.entry 0xA 2) (fieldAt k.entry 0x10 8) (fieldAt k.entry 0x18 8) = none ∧
       s.inDevice (fieldAt k.entry 0x10 8) (fieldAt k.entry 0x18 8) = o.2 ∧
       (o.2 = true → c.bindFree (fieldAt k.entry 0xA 2) (fieldAt k.entry 0x10 8) (fieldAt k.entry 0x18 8) = false))) := by
  refine ⟨⟨_, rfl, by decide +kernel⟩, fun o h => ⟨_, _, rfl, rfl, ?_⟩⟩
  revert o
  decide +kernel

/-- A RUN of 3 steps with two taps bound, whose start records are `a` and `b`. -/
def tapRun (a b : Option (Nat × Nat × Nat × Nat)) : State :=
  begun 4 [3] { liveS2 with
    chart := some { place := [(0, 0, 0)], tiles := [{}], wps := 1, map := some { len := [2, 1, 1, 1], machine := 9, taps := [⟨0, 0, 0, 0, 8, 8⟩, ⟨1, 0, 1, 0, 8, 8⟩] } },
    link := { refclk := true, ports := [(0, { st := .active, taps := [(2, { startRec := a })] }), (1, { st := .active, taps := [(2, { startRec := b })] })] } }

theorem witness_RunAndAbort_taps :
    ∀ o ∈ [(none, none), (some (9, 0, 2, 3), some (9, 0, 2, 3)), (some (9, 0, 2, 3), some (9, 0, 2, 4))],
      ∃ k c, (tapRun o.1 o.2).started 1 4 = some k ∧ (tapRun o.1 o.2).chart = some c ∧ (tapRun o.1 o.2).run = none ∧ c.unbound = none ∧
        (tapRun o.1 o.2).rcv.phase = .idle ∧ c.taps ≠ [] ∧
        c.taps.map (fun t => (tapRun o.1 o.2).startMatches t (fieldAt k.entry 8 8)) =
          [o.1.map (fun _ => true), o.2.map (fun r => decide (r.2.2.2 = 3))] := by
  intro o h
  refine ⟨_, _, rfl, rfl, ?_⟩
  revert o
  decide +kernel

/-- A RUN from waypoint 1 that restores a region whose reset has cleared it. -/
theorem witness_RunAndAbort_stack :
    let s : State := { begun 4 [3] (toBind false []) with rcv := { cleared := [(.dataflow, 0)] }, wp := { count := 1 } }
    ∃ k c, s.started 1 4 = some k ∧ s.chart = some c ∧ s.run = none ∧ c.unbound = none ∧ s.rcv.phase = .idle ∧ c.taps = [] ∧
      ueIn (some (c.controlAt 1 0)) (s.closedReach c) = some (c.controlAt 1 0) ∧ ueIn none (s.closedReach c) = none := by
  refine ⟨_, _, rfl, rfl, ?_⟩
  decide +kernel

/-- Two commands of queue 0: a RUN in state `j`, and an ABORT of every command with MODE `m`. -/
def aborts (m j : Nat) (s : State) : State :=
  { s with hi := { s.hi with cmds := [{ cmdOf 4 [] with jstate := j }, { cmdOf 0xA (leBytes 1 0xFF ++ leBytes 1 m ++ leBytes 2 0xFFFF) with seq := 2 }] } }

theorem witness_RunAndAbort :
    ((∃ k, (begun 4 [] liveS2).started 1 4 = some k) ∧ (begun 4 [] liveS2).chart = none ∧
      (let s : State := { begun 4 [] (runs {} {}) with run := some { seq := 9 } }
       ∃ k c r, s.started 1 4 = some k ∧ s.chart = some c ∧ s.run = some r ∧ r.seq ≠ 1) ∧
      (∃ k c, (begun 4 [] (toBind true [])).started 1 4 = some k ∧ (toBind true []).chart = some c ∧ c.unbound = some 0) ∧
      (∃ k c, (begun 4 [3] (toBind false [])).started 1 4 = some k ∧ (toBind false []).chart = some c ∧ c.unbound = none ∧ c.taps = [])) ∧
    (∀ m ∈ [0, 1], (let s := aborts m 2 (runs {} {})
      ∃ k c r, s.started 2 0xA = some k ∧ k.acted = false ∧ (s.hi.cmds.map (·.seq)).Nodup ∧ fieldAt k.entry 9 1 = m ∧ c ∈ s.hi.cmds ∧ k.names c = true ∧ c.jstate ≠ 1 ∧
        c.opcode = 4 ∧ s.run = some r ∧ r.seq = c.seq ∧ s.chart.isSome = true ∧ s.commitPending = false)) ∧
    (∀ m ∈ [0, 1], (let s := aborts m 1 (runs {} {})
      ∃ k c, s.started 2 0xA = some k ∧ c ∈ s.hi.cmds ∧ k.names c = true ∧ c.jstate = 1)) := by
  refine ⟨⟨⟨_, rfl⟩, ?_, ⟨_, _, _, rfl, rfl, rfl, ?_⟩, ⟨_, _, rfl, rfl, ?_⟩, ⟨_, _, rfl, rfl, ?_⟩⟩, fun m h => ?_, fun m h => ?_⟩
  iterate 4 · decide +kernel
  · simp only [List.mem_cons, List.not_mem_nil, or_false] at h
    rcases h with rfl | rfl <;> refine ⟨_, _, _, rfl, rfl, ?_, ?_, List.mem_cons_self, ?_, ?_, ?_, rfl, ?_, ?_, ?_⟩ <;> decide +kernel
  · simp only [List.mem_cons, List.not_mem_nil, or_false] at h
    rcases h with rfl | rfl <;> refine ⟨_, _, rfl, List.mem_cons_self, ?_, ?_⟩ <;> decide +kernel

/-- A COPY of `n` bytes; `fl` holds the spaces of source and destination, `p` the port. -/
def copies (src dst n fl p : Nat) (s : State) : State := begun 5 (leBytes 8 src ++ leBytes 8 dst ++ leBytes 8 n ++ leBytes 1 fl ++ leBytes 1 p) s

/-- The fields that a COPY names. -/
def copyFields (s : State) : Option (Nat × Nat × Nat × Nat × Nat) :=
  (s.started 1 5).map (fun k => (fieldAt k.entry 8 8, fieldAt k.entry 0x10 8, fieldAt k.entry 0x18 8, fieldAt k.entry 0x20 1, fieldAt k.entry 0x21 1))

/-- In device memory, from host memory, to the last byte; past device memory; into the journal; to the host; to port 3. -/
theorem witness_CopyAndFence_held :
    let s := copies 0x100 0x1000000040 64 0 0 liveS2
    let h : State := { s with rcv := { closed := [(.stack, 1)] } }
    (∃ k, s.started 1 5 = some k ∧ s.copyHeld k = false) ∧ ∃ k, h.started 1 5 = some k ∧ h.copyHeld k = true := by
  refine ⟨⟨_, rfl, ?_⟩, ⟨_, rfl, ?_⟩⟩ <;> decide +kernel

theorem witness_CopyAndFence :
    let s := liveS2
    let a : State := { s with link := { s.link with ports := [(3, { st := .active })] } }
    copyFields (copies 0x100 (s.devTop - 64) 64 0 0 s) = some (0x100, s.devTop - 64, 64, 0, 0) ∧
      copyFields (copies 0x100 (s.devTop - 64) 64 1 0 s) = some (0x100, s.devTop - 64, 64, 1, 0) ∧
      s.inDevice 0x100 64 = true ∧ s.inDevice (s.devTop - 64) 64 = true ∧ s.firstRefused (s.devTop - 64) 64 = none ∧
      copyFields (copies (s.devTop - 63) 0 64 0 0 s) = some (s.devTop - 63, 0, 64, 0, 0) ∧ s.inDevice (s.devTop - 63) 64 = false ∧
      copyFields (copies 0x100 journalBase 64 0 0 s) = some (0x100, journalBase, 64, 0, 0) ∧ s.firstRefused journalBase 64 = some journalBase ∧
      copyFields (copies 0x100 7 64 0x10 0 s) = some (0x100, 7, 64, 0x10, 0) ∧
      copyFields (copies 0x100 7 64 0x20 3 a) = some (0x100, 7, 64, 0x20, 3) ∧ 3 < 2 * s.variant ∧ (a.port 3).st = .active ∧ (s.port 3).st ≠ .active ∧
      (a.port 3).copies.any (fun c => decide (c.1 = 1)) = false ∧ (∃ k, (begun 6 [] s).started 1 6 = some k) ∧
      (let t : State := { s with hi := { s.hi with cmds := [cmdOf 9 [], { cmdOf 6 [] with seq := 2 }] } }
       (∃ k, t.started 2 6 = some k) ∧ ∃ c ∈ t.hi.cmds, c.seq < 2) ∧ (∃ k, (begun 9 [] s).started 1 9 = some k) := by
  refine ⟨?_, ?_, ?_, ?_, ?_, ?_, ?_, ?_, ?_, ?_, ?_, ?_, ?_, ?_, ?_, ⟨_, rfl⟩, ⟨⟨_, rfl⟩, ?_⟩, ⟨_, rfl⟩⟩ <;> decide +kernel

/-- To one byte past device memory; from the host to port 3; the last byte of a copy meets an error. -/
theorem witness_CopyAndFence_more :
    let s := liveS2
    copyFields (copies 0x100 (s.devTop - 63) 64 0 0 s) = some (0x100, s.devTop - 63, 64, 0, 0) ∧ s.inDevice (s.devTop - 63) 64 = false ∧
      copyFields (copies 0x100 7 64 0x21 3 s) = some (0x100, 7, 64, 0x21, 3) ∧ (63 : Nat) < 64 ∧ (∀ r ∈ s.run, r.seq ≠ 1) ∧
      (0x21 % 16, 0x21 / 16) = (1, 2) := by
  refine ⟨?_, ?_, ?_, ?_, ?_, ?_⟩ <;> decide +kernel

/-! ## Witnesses: the object dictionary -/

/-- A started DICT_GET or DICT_SET. -/
def dictCmd (op idx sub len buf val : Nat) : State :=
  begun op (leBytes 2 idx ++ leBytes 1 sub ++ zeros 1 ++ leBytes 4 len ++ leBytes 8 buf ++ leBytes 8 val) liveS2

def dictFields (s : State) (op : Nat) : Option (Nat × Nat × Nat × Nat × Nat × Nat) :=
  (s.started 1 op).map (fun k => (k.dictIndex, k.dictSub, k.dictLength, k.dictBuf, k.dictValue, k.flags))

/-- A request of OP `op` with its data. -/
def request (op idx sub off len : Nat) (data : List Byte) : List Byte :=
  [1] ++ leBytes 1 op ++ [0x5A, 0] ++ leBytes 2 idx ++ leBytes 1 sub ++ [0] ++ leBytes 4 off ++ leBytes 4 len ++ data

/-- An absent object; SERIAL; PART at BUF, of 7 bytes, and with LENGTH 0. -/
theorem witness_DictionaryReads :
    (dictFields (dictCmd 7 0x1FFF 0 0 0 0) 7 = some (0x1FFF, 0, 0, 0, 0, 0) ∧ objRow 2 0x1FFF 0 = none) ∧
    (dictFields (dictCmd 7 0x1000 3 0 0 0) 7 = some (0x1000, 3, 0, 0, 0, 0) ∧ (objRow 2 0x1000 3).map (fun r => otFixed r.ty) = some true) ∧
    (dictFields (dictCmd 7 0x1000 5 7 0x2000 0) 7 = some (0x1000, 5, 7, 0x2000, 0, 0) ∧
      (objRow 2 0x1000 5).map (fun r => (otFixed r.ty, ((dictCmd 7 0x1000 5 7 0x2000 0).rowBytes r).length)) = some (false, 7)) ∧
    (liveS2.mctpServes false (request 1 0x1000 3 0 8 []) = true ∧ mOp (request 1 0x1000 3 0 8 []) = 1 ∧ mctpBad (request 1 0x1000 3 0 8 []) = false ∧
      (liveS2.objRead 0x1000 3).isSome = true) ∧
    (liveS2.mctpServes false (request 1 0x1FFF 0 0 8 []) = true ∧ mctpBad (request 1 0x1FFF 0 0 8 []) = false ∧ liveS2.objRead 0x1FFF 0 = none) ∧
    (liveS2.controlServed false = true ∧ liveS2.dict.serving = none) ∧
    (∀ src ∈ [8, 9], (let s : State := { liveS2 with dict := { serving := some (8, request 1 0x1000 3 0 8 []) } }
      s.mctpServes false (request 1 0x1000 3 0 8 []) = true ∧ mOp (request 1 0x1000 3 0 8 []) = 1 ∧
        (mctpSame src (request 1 0x1000 3 0 8 []) (8, request 1 0x1000 3 0 8 []) = true ↔ src = 8) ∧ s.dict.waiting = [])) := by
  refine ⟨?_, ?_, ?_, ?_, ?_, ?_, ?_⟩ <;> decide +kernel

theorem witness_VariantObjects : VariantOk State.reset ∧ VariantOk liveS2 ∧ liveS2.variant ≠ 8 ∧ liveS2.helmRuns = true ∧ liveS2.helm.recovery = false ∧
    (∃ r ∈ objs9, r.idx = 0x9020) := by
  refine ⟨?_, ?_, ?_⟩
  · unfold VariantOk; decide +kernel
  · unfold VariantOk; decide +kernel
  · decide +kernel

/-- POWER_LIMIT takes 1,800 and refuses 1,801; it is marked P; SERIAL is RO. -/
theorem witness_DictionaryWrites_recovery :
    (let s : State := { liveS2 with helm := { recovery := true } }; s.objServed 0x2001 0 = false ∧ s.objServed 0x8002 0 = true) ∧
      liveS2.objServed 0x2001 0 = true ∧ liveS2.dict.serving = none := by decide +kernel

theorem witness_DictionaryWrites :
    let b := leBytes 4 1800
    let s := dictCmd 8 0x2001 0 0 0 1800
    (liveS2.helmRuns = true ∧ liveS2.ordStatus 0x2001 0 b false = 0 ∧ liveS2.ordStatus 0x2001 0 (leBytes 4 1801) false = 0xA ∧ 0x2001 ∉ actingObjects ∧
      liveS2.sextantAbsent 0x2001 = false ∧ (objRow 2 0x2001 0).map (·.p) = some true) ∧
    (dictFields s 8 = some (0x2001, 0, 0, 0, 1800, 0) ∧ s.log.clearing = none ∧ (objRow 2 0x2001 0).map (fun r => (otFixed r.ty, otSize r.ty)) = some (true, 4) ∧
      s.ordStatus 0x2001 0 b false = 0 ∧ dictFields (dictCmd 8 0x2001 0 0 0 1801) 8 = some (0x2001, 0, 0, 0, 1801, 0)) ∧
    (let q := request 2 0x2001 0 0 4 b
     liveS2.mctpServes false q = true ∧ mOp q = 2 ∧ mctpBad q = false ∧ liveS2.log.clearing = none ∧ mIndex q = 0x2001 ∧ mSub q = 0 ∧ mData q = b) ∧
    (objRow 2 0x1000 3).map (·.acc) = some .ro ∧ liveS2.sextantAbsent 0x1000 = false := by
  refine ⟨?_, ⟨?_, ?_, ?_, ?_, ?_⟩, ?_, ?_⟩ <;> decide +kernel

/-- MCTP_ENABLE with a reserved bit. -/
theorem witness_DictionaryWrites_reserved :
    let s := dictCmd 8 0x1020 2 0 0 4
    dictFields s 8 = some (0x1020, 2, 0, 0, 4, 0) ∧ (objRow 2 0x1020 2).map (fun r => (otFixed r.ty, otSize r.ty)) = some (true, 1) ∧
      (4 : Nat) &&& reservedBits (okey 0x1020 2) ≠ 0 ∧ (3 : Nat) &&& reservedBits (okey 0x1020 2) = 0 := by
  decide +kernel

/-- The bytes of a signed write before its signature, with slot 0 and counter 5, for SERIAL 9. -/
def signedFront (idx ty : Nat) (v : List Byte) : List Byte :=
  leBytes 4 0x57524753 ++ leBytes 2 1 ++ [0, 0] ++ leBytes 8 9 ++ leBytes 8 5 ++ leBytes 2 idx ++ [0] ++ leBytes 1 ty ++ leBytes 4 v.length ++
    v ++ zeros (ceilDiv v.length 8 * 8 - v.length)

/-- What the checks of R380 read of those bytes. -/
def frontFields (h : List Byte) (idx ty : Nat) (v : List Byte) : Bool :=
  decide (h.length = 0x20 + ceilDiv v.length 8 * 8 ∧ v.length ≤ 48 ∧ fieldAt h 0x18 2 = idx ∧ fieldAt h 0x1A 1 = 0 ∧ fieldAt h 0x1B 1 = ty ∧ fieldAt h 0x1C 4 = v.length ∧
    fieldAt h 0 4 = 0x57524753 ∧ fieldAt h 4 2 = 1 ∧ fieldAt h 6 1 = 0) &&
  decide (fieldAt h 7 1 = 0 ∧ fieldAt h 8 8 = 9 ∧ fieldAt h 0x10 8 = 5 ∧ bytesAt h 0x20 v.length = v) &&
    zeroAt h (0x20 + v.length) (ceilDiv v.length 8 * 8 - v.length) && (decide (idx ≠ 0x8002) || (decide (v.length = 48) && zeroAt h 0x48 8))

/-- What they read of the module: operator key 0 with counter `n`, SERIAL 9, and a value that the object takes. -/
def moduleTakes (s : State) (idx ty n : Nat) (r : ObjRow) (v : List Byte) : Bool :=
  decide (objRow s.variant idx 0 = some r ∧ otCode r.ty = ty ∧ (s.opkey 0).isEmpty = false ∧ s.serial.toNat = 9 ∧ tget 0 s.dict.opctrs 0 = n ∧
    reservedBits (okey idx 0) = 0) &&
    decide (s.sextantAbsent r.idx = false ∧ s.valueStatus r v false = 0 ∧ s.lastKey r v = false ∧ s.helmRuns = true ∧ r.acc ≠ .ro ∧ s.helm.recovery = false)

theorem fieldAt_front (h t : List Byte) (o n : Nat) (k : o + n ≤ h.length) : fieldAt (h ++ t) o n = fieldAt h o n := by
  unfold fieldAt
  rw [List.drop_append_of_le_length (by omega), List.take_append_of_le_length (by simp; omega)]

theorem bytesAt_front (h t : List Byte) (o n : Nat) (k : o + n ≤ h.length) : bytesAt (h ++ t) o n = bytesAt h o n := by
  unfold bytesAt
  rw [List.drop_append_of_le_length (by omega), List.take_append_of_le_length (by simp; omega)]

/-- A signed write passes its checks if its signature verifies, and is stale when the counter has moved on. -/
theorem takes_of_front (s : State) (h sig : List Byte) (idx ty n : Nat) (r : ObjRow) (v : List Byte) (hf : frontFields h idx ty v = true)
    (hs : sig.length = 7856) (hm : moduleTakes s idx ty n r v = true) (hv : slh128s.verify (s.opkey 0) h sig = true) :
    (n = 5 → TakesSigned s idx (h ++ sig) ∧ (s.signedWrite {} (h ++ sig) .ok).1 = 0) ∧ swIndex (h ++ sig) = idx ∧ swValue (h ++ sig) = v ∧
      s.layoutBad (h ++ sig) = none ∧ (n ≠ 5 → s.signedStatus r (h ++ sig) = 8) := by
  simp only [frontFields, moduleTakes, Bool.and_eq_true, decide_eq_true_eq] at hf hm
  obtain ⟨⟨⟨⟨len, vl, fi, fs, ft, fl, fm, fv, fk⟩, fz, fd, fc, bv⟩, bz⟩, bu⟩ := hf
  obtain ⟨⟨ro, rt, key, ser, ctr, rb⟩, ab, val, last, runs, acc, rec⟩ := hm
  have pad : v.length ≤ ceilDiv v.length 8 * 8 := by unfold ceilDiv; omega
  have f : ∀ o k, o + k ≤ 0x20 → fieldAt (h ++ sig) o k = fieldAt h o k := fun o k hk => fieldAt_front _ _ _ _ (by omega)
  have wl : swLength (h ++ sig) = v.length := (f _ _ (by decide)).trans fl
  have we : swEnd (h ++ sig) = h.length := by rw [swEnd, wl, len]
  have wv : swValue (h ++ sig) = v := by rw [swValue, wl, bytesAt_front _ _ _ _ (by omega)]; exact bv
  have wi : swIndex (h ++ sig) = idx := (f _ _ (by decide)).trans fi
  have ws : swSub (h ++ sig) = 0 := (f _ _ (by decide)).trans fs
  have wk : swSlot (h ++ sig) = 0 := (f _ _ (by decide)).trans fk
  have wc : swCounter (h ++ sig) = 5 := (f _ _ (by decide)).trans fc
  have wt : fieldAt (h ++ sig) 0x1B 1 = ty := (f _ _ (by decide)).trans ft
  have lay : s.layoutBad (h ++ sig) = none := by
    have z : zeroAt (h ++ sig) (0x20 + v.length) (h.length - 0x20 - v.length) = true := by
      unfold zeroAt
      rw [bytesAt_front _ _ _ _ (by omega)]
      have : h.length - 0x20 - v.length = ceilDiv v.length 8 * 8 - v.length := by omega
      rw [this]; exact bz
    have hlen : (h ++ sig).length = h.length + 7856 := by rw [List.length_append, hs]
    unfold State.layoutBad
    have u : ¬ (idx = 0x8002 ∧ v.length = 48 ∧ ¬ zeroAt (h ++ sig) 0x48 8) := by
      rintro ⟨a, b, c⟩
      have d : 0x48 + 8 ≤ h.length := by rw [len, b]; decide
      unfold zeroAt at c bu
      rw [bytesAt_front _ _ _ _ d] at c
      rw [Bool.or_eq_true, Bool.and_eq_true, decide_eq_true_eq] at bu
      exact c ((bu.resolve_left (fun n => n a)).2)
    have u' : ¬ (v.length = 1 ∧ fieldAt (h ++ sig) 0x20 1 &&& reservedBits (okey idx 0) ≠ 0) := by rw [rb]; simp
    rw [wl, we, wk, wi, ws, wt, ro, (f _ _ (by decide)).trans fm, (f _ _ (by decide)).trans fv, (f _ _ (by decide)).trans fz, hlen, if_neg u, if_neg u']
    simp only [z, rt]
    simp
    omega
  have hro : objRow s.variant (swIndex (h ++ sig)) (swSub (h ++ sig)) = some r := by rw [wi, ws]; exact ro
  refine ⟨fun n5 => ?_, wi, wv, lay, fun n5 => ?_⟩
  · have st : s.signedStatus r (h ++ sig) = 0 := by
      unfold State.signedStatus
      rw [wk, wc, we, wv, (f _ _ (by decide)).trans fd]
      simp [key, ser, ctr, n5, hv, ab, val, last]
    refine ⟨⟨runs, wi, ws, by unfold State.objServed; rw [rec]; rfl, lay, r, ro, st⟩, ?_⟩
    unfold State.signedWrite
    rw [lay, hro]
    simp [acc, st, State.commitSigned]
  · unfold State.signedStatus
    rw [wk, wc, (f _ _ (by decide)).trans fd]
    have : ¬ (5 = n) := fun x => n5 x.symm
    simp [key, ser, ctr, this, stStale]

/-- A module out of service with operator key 0 whose counter is `n`, and SERIAL 9. -/
def keyed (n : Nat) : State :=
  { liveS2 with serial := 9, dict := { opkeys := [(0, zeros 31 ++ [1])], opctrs := [(0, n)], objs := [(okey 0x6000 0, 1)] } }

def rowService : ObjRow := orow 0x6001 0 .bool .rwa false 0
def rowOverride : ObjRow := oblob 0x6101 0 .blob .rwa true 4096
def rowLogClear : ObjRow := orow 0x7020 0 .bool .rwa false 0

theorem fronts : ∀ x ∈ [(0x6001, 1, [1]), (0x6101, 10, []), (0x7020, 1, ([1] : List Byte))], frontFields (signedFront x.1 x.2.1 x.2.2) x.1 x.2.1 x.2.2 = true := by
  decide +kernel

theorem modules : moduleTakes (keyed 5) 0x6001 1 5 rowService [1] = true ∧ moduleTakes (keyed 6) 0x6001 1 6 rowService [1] = true ∧
    moduleTakes (keyed 5) 0x6101 10 5 rowOverride [] = true ∧ moduleTakes (keyed 5) 0x7020 1 5 rowLogClear [1] = true := by
  refine ⟨?_, ?_, ?_, ?_⟩ <;> decide +kernel

theorem witness_SignedWrites (sig : List Byte) (h : sig.length = 7856)
    (hv : slh128s.verify ((keyed 5).opkey 0) (signedFront 0x6001 1 [1]) sig = true) :
    let b := signedFront 0x6001 1 [1] ++ sig
    ((keyed 5).signedWrite {} b .ok).1 = 0 ∧ swCounter b + 1 < 2 ^ 64 ∧ swIndex b ≠ 0x8002 ∧ (keyed 5).helm.pending = false ∧
      (keyed 6).layoutBad b = none ∧ objRow (keyed 6).variant (swIndex b) 0 = some rowService ∧ rowService.acc ≠ .ro ∧ (keyed 6).signedStatus rowService b ≠ 0 := by
  intro b
  have f := fronts (0x6001, 1, [1]) (by decide)
  have x := takes_of_front (keyed 5) _ sig _ _ 5 rowService _ f h modules.1 hv
  have y := takes_of_front (keyed 6) _ sig _ _ 6 rowService _ f h modules.2.1 hv
  have i : swIndex b = 0x6001 := x.2.1
  have c : swCounter b = 5 := (fieldAt_front _ _ _ _ (by decide +kernel)).trans (by decide +kernel)
  exact ⟨(x.1 rfl).2, by rw [c]; decide, by rw [i]; decide, rfl, y.2.2.2.1, by rw [i]; decide +kernel, by decide, by rw [y.2.2.2.2 (by decide)]; decide⟩

/-- The same bytes in a request of OP 3. -/
theorem witness_SignedWrites_mctp (sig : List Byte) (h : sig.length = 7856) :
    let b := signedFront 0x6001 1 [1] ++ sig
    let q := request 3 0 0 0 7896 b
    (keyed 5).mctpServes false q = true ∧ mOp q = 3 ∧ mctpBad q = false ∧ mData q = b := by
  intro b q
  have l : b.length = 7896 := by rw [List.length_append, h]; decide +kernel
  have a : mData q = b := rfl
  have n : q.length = 7912 := by simp [q, request, leBytes, l]
  have o : mOp q = 3 := rfl
  refine ⟨?_, o, ?_, a⟩
  · unfold State.mctpServes
    rw [n, a, o]
    have i : swIndex b = 0x6001 := (fieldAt_front _ _ _ _ (by decide +kernel)).trans (by decide +kernel)
    rw [i]
    simp only [if_true]
    generalize swSub b = k
    have r : (keyed 5).helm.recovery = false := rfl
    have e : (keyed 5).helmRuns = true ∧ (keyed 5).bindingUp false = true := by decide +kernel
    rw [e.1, e.2]
    unfold State.objServed
    rw [r]
    rfl
  · unfold mctpBad
    rw [a, o, l]
    rfl
/-! ## Witnesses: acting objects, keys, BIST, firmware, Logbook -/

/-- The stacks up and down; a Logbook dump of one record, which ends with device memory or in the journal. -/
theorem witness_ActingObjects :
    (VariantOk liveS2 ∧ liveS2.helmRuns = true ∧ liveS2.helm.recovery = false ∧ (inState .standby 0 0).helmRuns = true) ∧
    (let d : State := { inState .standby 0 0 with pw := { (inState .standby 0 0).pw with stacksUp := false } }
     d.pw.stacksUp = false) ∧
    (let r : State := { liveS2 with log := { liveS2.log with first := [(0, logRec 0 0x1B05 0 [])] } }
     r.pw.stacksUp = true ∧ r.dumpRefused (r.devTop - 32) (r.dumpBytes 0x7010) = false ∧ r.dumpRefused journalBase (r.dumpBytes 0x7010) = true ∧
       r.dumpRefused (r.devTop - 31) (r.dumpBytes 0x7010) = true) ∧
    (liveS2.chart = none ∧ (runs {} {}).chart.isSome = true ∧ (runs {} {}).running = true ∧ liveS2.running = false) ∧
    (let e : State := { liveS2 with pw := { liveS2.pw with regions := [(3, { shutter := .empty })] } }
     e.pw.railsUp = true ∧ e.oos = false ∧ (e.presentedOf 3).isSome = true ∧ (e.rpw 3).shutter = .empty) ∧
    (let s : State := { liveS2 with variant := 8 }; VariantOk s ∧ s.helmRuns = true ∧ s.variant = 8) ∧
    (torusOk liveS2.variant liveS2.storedLen liveS2.storedPos = true ∧ liveS2.storedLen = liveS2.link.len ∧ liveS2.storedPos = liveS2.link.pos) := by
  unfold VariantOk
  refine ⟨?_, ?_, ?_, ?_, ?_, ?_, ?_⟩ <;> decide +kernel

/-- The dumps' addresses where the counters' dumps are stored, and where one waits at a door. -/
theorem witness_ActingObjects_dumps :
    (let d : State := { inState .standby 0 0 with pw := { (inState .standby 0 0).pw with stacksUp := false } }
     d.pw.stacksUp = false ∧ d.helmRuns = true ∧ d.helm.recovery = false ∧ d.dumpRefused 0x1000 (d.dumpBytes 0x3010) = false ∧
       d.dumpRefused d.devTop (d.dumpBytes 0x3010) = true) ∧
    (∀ c ∈ [([] : List (DomKind × Nat)), [(.stack, 0)]], (let r : State := { liveS2 with log := { liveS2.log with first := [(0, logRec 0 0x1B05 0 [])] }, rcv := { closed := c } }
     r.dumpRefused 0x1000 (r.dumpBytes 0x7010) = false ∧ (r.stackHeld 0 0x1000 (r.dumpData 0x7010).length = true ↔ c ≠ []))) := by
  refine ⟨?_, ?_⟩ <;> decide +kernel

/-- A STALL_DUMP by DICT_SET that waits at a door, and behind an earlier one; LINK_RETRAIN with the rails down; a reserved alarm bit. -/
theorem witness_ActingObjects_waits :
    (∀ d ∈ [([(DomKind.stack, 0)], 1), (([] : List (DomKind × Nat)), 2)],
      (let k := (dictCmd 8 0x9010 0 0 0 0x1000).hi.cmds.headD {}
       let s : State := { liveS2 with rcv := { closed := d.1 }, hi := { cmds := if d.2 = 1 then [k] else [k, { k with seq := 2 }] } }
       ∃ k', s.started d.2 8 = some k' ∧ k'.flags % 2 = 0 ∧ s.log.clearing = none ∧ k'.dictIndex = 0x9010 ∧ k'.dictSub = 0 ∧ k'.dictLength = 0 ∧ k'.dictBuf = 0 ∧
         (objRow 2 0x9010 0).map (fun r => (otFixed r.ty, otSize r.ty)) = some (true, 8) ∧ k'.dictValue = 0x1000 ∧
         s.ordStatus 0x9010 0 (leBytes 8 k'.dictValue) false = 0 ∧ s.dumpWaits d.2 0x9010 k'.dictValue = true)) ∧
    (let s : State := { inState .standby 0 0 with pw := { (inState .standby 0 0).pw with railsUp := false } }
     s.helmRuns = true ∧ s.helm.recovery = false ∧ s.running = false ∧ s.pw.railsUp = false) ∧ 15 < 16 ∧ 255 < 256 := by
  refine ⟨fun d h => ?_, by decide +kernel, by decide, by decide⟩
  simp only [List.mem_cons, List.not_mem_nil, or_false] at h
  rcases h with rfl | rfl <;> refine ⟨_, rfl, ?_⟩ <;> decide +kernel

/-- Each signed write whose signature verifies; a LOG_CLEAR in progress; an update whose self-test is due. -/
theorem witness_KeysAndSignedCommands :
    (VariantOk liveS2 ∧ liveS2.helmRuns = true ∧ liveS2.anyKey = false ∧ (zeros 32).length = 32 ∧ (keyed 5).anyKey = true) ∧
    (∀ x ∈ [(0x6001, 1, [1], rowService), (0x6101, 10, [], rowOverride), (0x7020, 1, [(1 : Byte)], rowLogClear)], ∀ sig : List Byte, sig.length = 7856 →
      slh128s.verify ((keyed 5).opkey 0) (signedFront x.1 x.2.1 x.2.2.1) sig = true →
        TakesSigned (keyed 5) x.1 (signedFront x.1 x.2.1 x.2.2.1 ++ sig) ∧ swValue (signedFront x.1 x.2.1 x.2.2.1 ++ sig) = x.2.2.1) ∧
    (VariantOk (keyed 5) ∧ (keyed 5).oos = true) ∧
    (let s : State := { liveS2 with log := { liveS2.log with clearing := some (0, 1) }, hi := { liveS2.hi with cmds := [cmdOf 8 []] } }
     s.log.clearing = some (0, 1) ∧ s.dict.serving = none ∧ ∃ k, s.cmd 1 = some k ∧ k.ended = false) ∧
    (∀ w ∈ [[], [((8 : Nat), request 1 0x1000 3 0 8 [], Store.ok)]],
      (let s : State := { liveS2 with log := { liveS2.log with clearing := some (0, 0) }, dict := { serving := some (9, request 3 0x7020 0 0 1 [1]), waiting := w } }
       s.log.clearing = some (0, 0) ∧ s.dict.serving.isSome = true ∧ (s.dict.waiting = [] ↔ w = []))) := by
  refine ⟨?_, ?_, ?_, ⟨?_, rfl, _, rfl, ?_⟩, ?_⟩
  · unfold VariantOk; decide +kernel
  · intro x hx sig h hv
    simp only [List.mem_cons, List.not_mem_nil, or_false] at hx
    rcases hx with rfl | rfl | rfl
    · have t := takes_of_front (keyed 5) _ sig _ _ 5 rowService _ (fronts (0x6001, 1, [1]) (by decide)) h modules.1 hv
      exact ⟨(t.1 rfl).1, t.2.2.1⟩
    · have t := takes_of_front (keyed 5) _ sig _ _ 5 rowOverride _ (fronts (0x6101, 10, []) (by decide)) h modules.2.2.1 hv
      exact ⟨(t.1 rfl).1, t.2.2.1⟩
    · have t := takes_of_front (keyed 5) _ sig _ _ 5 rowLogClear _ (fronts (0x7020, 1, [1]) (by decide)) h modules.2.2.2 hv
      exact ⟨(t.1 rfl).1, t.2.2.1⟩
  · unfold VariantOk; decide +kernel
  · decide +kernel
  · decide +kernel
  · decide +kernel

/-- An FW_UPDATE in STANDBY that names the image in the inactive bank, where that is the factory's. -/
def updatable : State :=
  { keyed 5 with pw := { (keyed 5).pw with state := .standby }, helm := { (keyed 5).helm with factory := some 1, pufOk := true } }
def rowUpdate : ObjRow := oblob 0x8002 0 .blob .rwa false 48
def fwValue : List Byte := Config.factoryDigest ++ leBytes 4 0x02000000 ++ zeros 12

theorem fwValue_fields (hd : Config.factoryDigest.length = 32) :
    fwValue.length = 48 ∧ bytesAt fwValue 0 32 = Config.factoryDigest ∧ fieldAt fwValue 0x20 4 = 0x02000000 ∧ fieldAt fwValue 0x24 4 = 0 ∧
      zeroAt fwValue 0x28 8 = true := by
  have e : fwValue = Config.factoryDigest ++ (leBytes 4 0x02000000 ++ zeros 12) := List.append_assoc _ _ _
  have d : ∀ k, (Config.factoryDigest ++ (leBytes 4 0x02000000 ++ zeros 12)).drop (32 + k) = (leBytes 4 0x02000000 ++ zeros 12).drop k := by
    intro k; rw [← hd, List.drop_append]; simp
  refine ⟨by rw [e]; simp [hd, leBytes, zeros], ?_, ?_, ?_, ?_⟩
  · unfold bytesAt; rw [e, List.drop_zero, ← hd, List.take_left]
  · unfold fieldAt; rw [e, d 0]; decide +kernel
  · unfold fieldAt; rw [e, d 4]; decide +kernel
  · unfold zeroAt bytesAt; rw [e, d 8]; decide +kernel

theorem witness_FwUpdate (sig : List Byte) (h : sig.length = 7856) (hd : Config.factoryDigest.length = 32)
    (hv : slh128s.verify (updatable.opkey 0) (signedFront 0x8002 10 fwValue) sig = true) :
    VariantOk updatable ∧ TakesSigned updatable 0x8002 (signedFront 0x8002 10 fwValue ++ sig) ∧ updatable.helm.selfTest = false := by
  have ⟨l, b, f, g, z⟩ := fwValue_fields hd
  have front : frontFields (signedFront 0x8002 10 fwValue) 0x8002 10 fwValue = true := by
    let a : List Byte := leBytes 4 0x57524753 ++ leBytes 2 1 ++ [0, 0] ++ leBytes 8 9 ++ leBytes 8 5 ++ leBytes 2 0x8002 ++ [0] ++ leBytes 1 10 ++ leBytes 4 48
    have e : signedFront 0x8002 10 fwValue = a ++ fwValue := by unfold signedFront; rw [l]; exact List.append_nil _
    have al : a.length = 32 := by decide +kernel
    have fa : ∀ o k, o + k ≤ 32 → fieldAt (a ++ fwValue) o k = fieldAt a o k := fun o k hk => fieldAt_front _ _ _ _ (by omega)
    have bv : bytesAt (a ++ fwValue) 0x20 48 = fwValue := by
      unfold bytesAt; rw [← al, List.drop_left, ← l, List.take_length]
    unfold frontFields
    rw [e, l, bv]
    simp only [fa _ _ (show 0x18 + 2 ≤ 32 by decide), fa _ _ (show 0x1A + 1 ≤ 32 by decide), fa _ _ (show 0x1B + 1 ≤ 32 by decide),
      fa _ _ (show 0x1C + 4 ≤ 32 by decide), fa _ _ (show 0 + 4 ≤ 32 by decide), fa _ _ (show 4 + 2 ≤ 32 by decide), fa _ _ (show 6 + 1 ≤ 32 by decide),
      fa _ _ (show 7 + 1 ≤ 32 by decide), fa _ _ (show 8 + 8 ≤ 32 by decide), fa _ _ (show 0x10 + 8 ≤ 32 by decide)]
    have len : (a ++ fwValue).length = 0x20 + ceilDiv 48 8 * 8 := by rw [List.length_append, al, l]; decide
    rw [len]
    have z0 : zeroAt (a ++ fwValue) (0x20 + 48) (ceilDiv 48 8 * 8 - 48) = true := rfl
    have z1 : zeroAt (a ++ fwValue) 0x48 8 = true := by
      have d : (a ++ fwValue).drop 0x48 = fwValue.drop 0x28 := by
        rw [show 0x48 = a.length + 0x28 by rw [al], List.drop_append]; simp
      unfold zeroAt bytesAt at z ⊢
      rw [d]; exact z
    rw [z0, z1]
    decide +kernel
  have mod : moduleTakes updatable 0x8002 10 5 rowUpdate fwValue = true := by
    have val : updatable.valueStatus rowUpdate fwValue false = 0 := by
      have r : updatable.fwRefused fwValue = none := by
        unfold State.fwRefused
        rw [b, f, g]
        dsimp only
        have x : updatable.fwDigest (1 - updatable.helm.active) = Config.factoryDigest := rfl
        rw [x]
        simp only [not_true_eq_false, ne_eq, if_false]
        decide +kernel
      have o : updatable.outOfRange rowUpdate fwValue = false := by
        rfl
      have k : badLength rowUpdate 48 = false := by decide +kernel
      have bz : ∀ n, updatable.writeBusy rowUpdate.idx n = false := fun _ => rfl
      unfold State.valueStatus
      rw [l, k, o, bz, r]
      rfl
    have last : updatable.lastKey rowUpdate fwValue = false := rfl
    unfold moduleTakes
    rw [val, last]
    decide +kernel
  exact ⟨Or.inl rfl, ((takes_of_front updatable _ sig _ _ 5 rowUpdate _ front h mod hv).1 rfl).1, rfl⟩

theorem witness_BistAndResetRequests :
    (VariantOk liveS2 ∧ liveS2.helmRuns = true ∧ liveS2.helm.recovery = false ∧ liveS2.chart = none ∧ liveS2.obj 0x6300 1 ≠ 1 ∧ liveS2.pw.railsUp = true ∧
      liveS2.pw.inputOn = true ∧ (inState .standby 0 0).helmRuns = true) ∧
    (VariantOk (runs {} {}) ∧ (runs {} {}).helmRuns = true ∧ (runs {} {}).chart.isSome = true ∧ (runs {} {}).running = true ∧ (runs {} {}).commitPending = false) ∧
    (let s : State := { liveS2 with dict := { objs := [(okey 0x6300 1, 1)] } }; s.helmRuns = true ∧ s.obj 0x6300 1 = 1) ∧
    (let s : State := { liveS2 with pw := { liveS2.pw with inputOn := false } }; s.helmRuns = true ∧ s.pw.inputOn = false) := by
  unfold VariantOk
  refine ⟨?_, ?_, ?_, ?_⟩ <;> decide +kernel

theorem witness_FirmwareAndAttestation :
    (VariantOk liveS2 ∧ liveS2.helmRuns = true ∧ liveS2.helm.active ≤ 1 ∧ liveS2.helm.pending = false ∧ liveS2.obj 0x8003 1 + 4096 ≤ 0x4000000 ∧
      liveS2.helm.selfTest = false ∧ liveS2.fwPasses liveS2.helm.active = true) ∧
    (let s : State := { liveS2 with helm := { liveS2.helm with pending := true } }; s.helmRuns = true ∧ s.helm.pending = true) ∧
    (let s : State := { liveS2 with helm := { liveS2.helm with pending := true, selfTest := true, running := 1 }, pw := { liveS2.pw with time := selfTestTime } }
     s.helmRuns = true ∧ s.helm.selfTest = true ∧ s.now ≤ s.helm.bootAt + selfTestTime ∧ s.helm.bootAt + selfTestTime ≤ s.now ∧ s.fwPasses s.helm.active = true) ∧
    (let s : State := { liveS2 with helm := { liveS2.helm with pufOk := true } }; s.helm.attestSt ≠ 1 ∧ s.helm.pufOk = true) ∧
    (let s : State := { liveS2 with helm := { liveS2.helm with attestSt := 1 } }; s.helmRuns = true ∧ s.helm.attestSt = 1) ∧
    (let s : State := { liveS2 with helm := { liveS2.helm with factory := none } }
     VariantOk s ∧ s.helmRuns = true ∧ s.helm.active ≤ 1 ∧ s.helm.selfTest = false ∧ s.fwPasses 0 = false ∧ s.fwPasses 1 = false) := by
  unfold VariantOk
  refine ⟨?_, ?_, ?_, ?_, ?_, ?_⟩ <;> decide +kernel

/-- A queue with 15 events and with 16; an event to append, in the first-fill area and past it; a record to spill. -/
theorem witness_LogbookOperations :
    let r : LogRec := ⟨0, 0x1B05, 0, 0, []⟩
    (liveS2.pw.vsb = true ∧ ∀ n ∈ [15, 16], (let s : State := { liveS2 with log := { liveS2.log with queues := [(2, List.replicate n r)] } }
      (tget [] s.log.queues 2).length < 16 ↔ n = 15)) ∧
    (let s : State := { liveS2 with log := { liveS2.log with queues := [(2, [r])] } }
     s.helmRuns = true ∧ tget [] s.log.queues 2 = r :: [] ∧ s.log.mayServe 2 = true ∧ s.log.first.length < 65534) ∧
    (let s : State := { liveS2 with log := { liveS2.log with queues := [(2, [r]), (3, [r])], round := [2] } }
     tget [] s.log.queues 2 ≠ [] ∧ s.log.mayServe 2 = false ∧ s.log.mayServe 3 = true) ∧
    (let s : State := { liveS2 with rcv := { traceq := [(2, [zeros 32])] } }
     s.helmRuns = true ∧ s.log.waiting = [] ∧ tget [] s.rcv.traceq 2 = zeros 32 :: []) ∧
    (let s : State := { liveS2 with log := { liveS2.log with first := [(0, r)] } }
     s.helmRuns = true ∧ (s.log.first ++ s.log.tail).find? (fun r => decide (s.log.spilled ≤ r.1)) = some (0, r)) := by
  intro r
  refine ⟨?_, ?_, ?_, ?_, ?_⟩ <;> decide +kernel

/-- A first-fill area of 65,534, 65,535 and 65,536 records, and a full tail whose oldest record has been spilled, or has not. -/
def filled (n t k : Nat) : Logbook :=
  { first := List.replicate n (0, logRec 0 0x1B05 0 []), tail := List.replicate t (7, logRec 0 0x1B05 0 []), spilled := k,
    queues := [(2, [logRec 0 0x1B05 2 []])] }

theorem witness_LogbookOperations_full :
    (∀ n, (filled n 0 0).first.length = n) ∧
    (∀ k ∈ [7, 8], let s : State := { liveS2 with log := filled 65536 1024 k }
      s.helmRuns = true ∧ tget [] s.log.queues 2 = [logRec 0 0x1B05 2 []] ∧ s.log.mayServe 2 = true ∧ s.log.tail.length = 1024 ∧
        (∃ x older, s.log.tail = x :: older ∧ (s.log.spilled ≤ x.1 ↔ k = 7))) := by
  refine ⟨fun n => List.length_replicate, fun k h => ⟨rfl, rfl, ?_, List.length_replicate, (7, logRec 0 0x1B05 0 []), List.replicate 1023 _, rfl, ?_⟩⟩
  · revert k; decide +kernel
  · revert k; decide +kernel

/-! ## Witnesses: memory tiers, waypoints -/

/-- A window over words 16 to 47, open in entry 0. -/
def window (mode : Nat) : List Byte := leBytes 4 16 ++ leBytes 4 32 ++ leBytes 2 0 ++ leBytes 2 0 ++ leBytes 1 mode ++ zeros 3

def tileOf (mode : Nat) : TileImg := { entries := [{ ctrl := 0xD8000000 }], wins := [window mode] }

/-- A tile whose window 0 has an access in its only entry, with stream `r`; region and stream as given. -/
def tiered (mode : Nat) (r : TierStream) (x : Tile) (rg : Region) (ts : TStream) : State :=
  { liveS2 with
      chart := some { image := 0x100000, wps := 1, place := [(0, 0, 0)], tiles := [tileOf mode],
                      tier := some { streams := [r], save := 0x10000 }, hsegAt := [] },
      run := some { seq := 1, steps := 4 }, tiles := [(0, x)], regions := [(0, rg)], streams := [(0, ts)], wp := { released := true } }

def openWin (p : Nat) : Tile := { st := .fire, firing := some {}, wins := [(0, { isOpen := true, ptr := p })] }
def line0 (d0 d1 : Bool) : Line := { space := 0, line := 0x400, valid0 := true, valid1 := true, dirty0 := d0, dirty1 := d1, data := List.replicate 128 7, used := 0 }
def stream0 (kind space : Nat) : TierStream := { kind := kind, space := space, base := 0x20000, rowBytes := 128 }

/-- A port-in chunk that is there and a port-out buffer of 7, at the last words of the window. -/
theorem witness_TierTransfers_ports :
    (∀ p ∈ [16, 32], (let s := tiered 2 (stream0 1 0) { openWin p with portIn := [(0, 5)] } {} { given := 1, fetched := 1 }
      let m := tileOf 2
      s.img 0 = some m ∧ s.streamOf 0 0 = some (0, stream0 1 0) ∧ (s.tile 0).st = .fire ∧ (s.tile 0).due m 0 = true ∧ ((s.tile 0).winOf 0).served = false ∧
        s.tierUp (tileRegion 0) = true ∧ wdBase (m.win 0) ≤ ((s.tile 0).winOf 0).ptr ∧ ((s.tile 0).winOf 0).ptr + 16 ≤ wdBase (m.win 0) + wdWords (m.win 0) ∧
        wdMode (m.win 0) = 2 ∧ (s.tile 0).portIn.find? (fun e => decide (e.1 = 0)) = some (0, 5))) ∧
    (let s := tiered 3 (stream0 2 0) { openWin 32 with portOut := List.replicate 7 (0, 5) } {} {}
     let m := tileOf 3
     s.img 0 = some m ∧ s.streamOf 0 0 = some (0, stream0 2 0) ∧ (s.tile 0).due m 0 = true ∧ s.tierUp (tileRegion 0) = true ∧
       ((s.tile 0).winOf 0).ptr + 16 ≤ wdBase (m.win 0) + wdWords (m.win 0) ∧ wdMode (m.win 0) = 3 ∧ (s.tile 0).portOut.length < 8) := by
  constructor <;> decide +kernel

/-- A chunk for the lent segment and for a line of the store; a fetch; a fill; a dirty victim in a full set. -/
def taking (space : Nat) : State := tiered 3 (stream0 2 space) { portOut := [(0, 5), (0, 6)] } { lines := [(16 * 0x400, line0 false false)] } { given := 1 }
/-- An ACCUM chunk: of a generation that starts from zeros, one that adds to a chunk of the store, and one in the lent segment. -/
def accums (space gen : Nat) : State :=
  tiered 3 { stream0 3 space with alt := 0x30000, zevery := 2 } { portOut := [(0, 5)] }
    { lines := [(16 * 0x400, line0 false false), (16 * 0x600, { line0 false false with line := 0x600 })] } { gen := gen }
def fetching : State := tiered 2 (stream0 1 0) {} {} {}
def filling : State := tiered 2 (stream0 1 0) {} { fills := [⟨0, 0x400⟩] } {}
def evicting : State :=
  tiered 2 (stream0 2 0) {} { lines := (List.range 16).map (fun w => (16 * 0x400 + w, { line0 (w == 3) true with line := 0x400 + 4096 * w, used := (if w = 3 then 0 else 1) })),
                              fills := [⟨0, 0x400 + 4096 * 20⟩] } {}

theorem witness_TierTransfers_store :
    (∀ sp ∈ [0, 1], let r := stream0 2 sp
      (taking sp).streamOf 0 0 = some (0, r) ∧ ((taking sp).tile 0).portOut = [(0, 5), (0, 6)] ∧ (taking sp).tierUp 0 = true ∧ r.kind = 2 ∧ r.space = sp ∧
      ((taking sp).region 0).find r.tag (lineAddr ((taking sp).chunkAt r r.base ((taking sp).tstream 0).given)) = some (16 * 0x400, line0 false false) ∧
      (line0 false false).data.length = 128 ∧ (taking sp).chunkAt r r.base ((taking sp).tstream 0).given % 64 = 0) ∧
    (let r := stream0 1 0
     fetching.tsRec 0 = some r ∧ r.kind = 1 ∧ r.space ≠ 1 ∧ fetching.tierUp (tileRegion (fetching.ctile r.tile)) = true ∧ fetching.wp.released = true ∧
      (fetching.tstream 0).fetched < fetching.accessLimit r ∧ (fetching.tstream 0).fetched = fetching.slowest 0 r ∧
      (fetching.region 0).find r.tag (lineAddr (fetching.chunkAt r r.base 0)) = none) ∧
    ((filling.region 0).fills[0]? = some ⟨0, 0x400⟩ ∧ filling.tierUp 0 = true ∧ filling.stackHeld 0 (128 * 0x400) 128 = false ∧ (filling.region 0).find 0 0x400 = none ∧ filling.freeWay 0 (setOf 0x400) = some 0) ∧
    (let l : Line := { line0 true true with line := 0x400 + 4096 * 3 }
     evicting.tierUp 0 = true ∧ evicting.evictionDue 0 0x400 = true ∧ (evicting.ways 0 0x400).any (fun w => ((evicting.region 0).line 0x400 w).isNone) = false ∧
      evicting.victim 0 0x400 = some (3, l) ∧ l.dirty = true ∧ l.space = 0 ∧ l.data.length = 128 ∧
        evicting.stackHeld 0 (128 * l.line) 128 = false) := by
  refine ⟨?_, ?_, ?_, ?_⟩ <;> decide +kernel

theorem witness_TierTransfers_accum :
    ∀ sp ∈ [0, 1], ∀ g ∈ [1, 2], let r : TierStream := { stream0 3 sp with alt := 0x30000, zevery := 2 }
      let s := accums sp g
      let old := s.chunkAt r (if g % 2 = 0 then r.base else r.alt) 0
      let new := s.chunkAt r (if g % 2 = 0 then r.alt else r.base) 0
      s.streamOf 0 0 = some (0, r) ∧ (s.tile 0).portOut = [(0, 5)] ∧ s.tierUp 0 = true ∧ r.kind = 3 ∧ r.space = sp ∧ (s.tstream 0).gen = g ∧
        (s.tstream 0).given = 0 ∧ (g % r.zevery = 0 ↔ g = 2) ∧ lineAddr old ≠ lineAddr new ∧ new % 64 = 0 ∧
        ((s.region 0).find r.tag (lineAddr new)).map (·.1) = some (if g = 2 then 16 * 0x600 else 16 * 0x400) ∧
        ((s.region 0).find r.tag (lineAddr old)).map (fun l => (l.1, l.2.half old)) = some (if g = 2 then 16 * 0x400 else 16 * 0x600, true) := by
  decide +kernel

/-- A region whose only tile holds at the next waypoint; everything ready, in the last training step and before it. -/
def holding (ready : Bool) (done : Nat) (cs : Tab CSet) : State :=
  { liveS2 with
      chart := some { image := 0x100000, wps := 1, place := [(0, 0, 0)], tiles := [{ entries := [{ ctrl := 0xD8000000 }] }], tally := 0x40000, wptArea := 0x50000 },
      run := some { seq := 1, steps := 4, done := done }, hi := { ready := true, cmds := [cmdOf 4 [4]] },
      tiles := [(0, { st := .hold, wpts := 1, csets := cs })], regions := [(0, { ready := ready })], wp := { released := true } }

theorem witness_WaypointsComplete :
    (let s := holding false 0 [(0, { conv := 3 })]
     ∃ c, s.chart = some c ∧ s.regionHolds c 0 = true ∧ s.savesHeld c 0 = false ∧ ((tget {} (s.tile 0).csets 0).conv ≠ 0)) ∧
    (let m : TileImg := { cset := [3, 4] }
     m.cset.getD 0 0xFFFF = 3 ∧ ∀ j, j < 8 → j ≠ 0 → m.cset.getD j 0xFFFF ≠ 3) ∧
    (∀ d ∈ [3, 2], (let s := holding true d []
     ∃ c r, s.chart = some c ∧ s.run = some r ∧ s.waypointReady = true ∧ r.waiting = false ∧ s.stepEndNext = true ∧ r.stopAt = none ∧
       (r.steps ≤ r.done + 1 ↔ d = 3) ∧ ∃ k, s.cmd r.seq = some k ∧ k.ended = false)) := by
  refine ⟨⟨_, rfl, by decide +kernel⟩, by decide +kernel, ?_⟩
  · intro d h
    refine ⟨_, _, rfl, rfl, ?_, ?_, ?_, ?_, ?_, _, rfl, ?_⟩ <;> (revert d; decide +kernel)

/-- A LIVE extent of tile 0, which its region reads; tallies and scale records, which meet an error. -/
theorem witness_WaypointsComplete_errors :
    (let h := holding false 0 []
     let s : State := { h with chart := h.chart.map (fun c => { c with tensors := [{ fmt := 0, bound := false, bytes := 128, addr := 0, scaled := true, scale := 0x60000 }],
                                                                       tier := some { lives := [{ tile := 0, extent := 0, alt := 0 }] } }) }
     ∃ c, s.chart = some c ∧ s.regionHolds c 0 = true ∧ s.savesHeld c 0 = false ∧ c.readsLive 0 0 = true ∧ tileRegion 0 = 0 ∧
       ueIn (some 0x4001F) [(c.tally, 32 * c.tensors.length)] = some 0x4001F) ∧
    (let h := holding true 2 []
     let s : State := { h with chart := h.chart.map (fun c => { c with tensors := [{ fmt := 0, bound := false, bytes := 128, addr := 0, scaled := true, scale := 0x60000 }] }) }
     ∃ c r, s.chart = some c ∧ s.run = some r ∧ s.waypointReady = true ∧ r.waiting = false ∧ ueIn (some 0x6007F) (s.stepReads c) = some 0x6007F ∧
       ueIn (some 0x60080) (s.stepReads c) = none) := by
  refine ⟨⟨_, rfl, ?_⟩, ⟨_, _, rfl, rfl, ?_⟩⟩ <;> decide +kernel

/-! ## Witnesses: the commit, the reduction -/

/-- The UPDATE section of one unit with one run of 32 blocks of a group in the stack, or in host memory. -/
def updOf (host : Bool) : Upd :=
  { commit := 0x1000, cwpt := 0, save := 0x100000, groups := [{ host := host }], runs := [{ count := 32, wimage := 0x20000 }],
    units := [{ runCount := 1, blocks := 32, map := 0x2000, mapLen := 32, poolSize := 4, pool := 0x3000, stage := 0x10000, frames := 0x40000, frameCnt := 4 }] }

/-- One bucket reduced over A. -/
def redOf : RedSec := { arec := 0x4000, groups := [{ buckets := 1, grad0 := 0x50000, grad1 := 0x60000, wimage := 0x20000, agree := 0x5000 }] }

/-- A training step of two waypoints, of which `w` have completed, with unit 0 and the reduction as given. -/
def trains (host : Bool) (w : Nat) (y : UpdUnit) (d : Redn) : State :=
  { liveS2 with
      chart := some { image := 0x100000, wps := 2, place := [(0, 0, 0)], tiles := [{}], upd := some (updOf host), red := some redOf },
      run := some { seq := 1, steps := 4 }, wp := { count := w }, regions := [(0, { ready := true })], upd := { units := [(0, y)] }, redn := d }

/-- A RUN whose commit is decided, with a RESET_REQUEST of 1 to come. -/
theorem witness_BistAndResetRequests_decided :
    let s := (trains false 1 {} {}).devWrite 0x1000 [1]
    VariantOk s ∧ s.helmRuns = true ∧ s.helm.recovery = false ∧ s.chart.isSome = true ∧ s.run.isSome = true ∧ s.commitPending = true := by
  unfold VariantOk
  decide +kernel

/-- Complete sums of the bucket, all 1. -/
def fullSums : Redn :=
  { sums := (List.range 2).flatMap (fun h => (List.range 171).map (fun c => ⟨0, 0, h, c, 1, List.replicate (chunkElems c) 1⟩)) }

/-- Staging that has the bucket. -/
def fullUnit : UpdUnit := { staged := [(0, 0)] }

/-- Map entry 0 is of step `st` at location `cur`; the pool's head is location 7. -/
def mapped (st cur : Nat) : State := (trains false 1 { fullUnit with active := true } {}).devWrite 0x2000 (leBytes 8 (mkEntry 0 st 7 cur)) |>.devWrite 0x3000 (leBytes 4 7)

theorem fullSums_find (h c : Nat) (hh : h < 2) (hc : c < 171) :
    (fullSums.sums.find? (fun p => decide (p.group = 0 ∧ p.bucket = 0 ∧ p.half = h ∧ p.chunk = c ∧ p.axis = 1))).isSome = true := by
  rw [List.find?_isSome]
  exact ⟨_, List.mem_flatMap.2 ⟨h, List.mem_range.2 hh, List.mem_map.2 ⟨c, List.mem_range.2 hc, rfl⟩⟩, by simp⟩

theorem witness_CommitAndPaging_staging :
    (encodeWeight 0x3F812345).2.2 = false ∧
    (let s := trains false 1 {} fullSums
     ∃ i x g, s.unitRec 0 = some (i, x) ∧ s.rgroup 0 = some g ∧
       (∀ h c, h < 2 → c < 171 → (s.redn.sums.find? (fun p => decide (p.group = 0 ∧ p.bucket = 0 ∧ p.half = h ∧ p.chunk = c ∧
         p.axis = g.axisList.length))).isSome = true) ∧
       stageIx ((updOf false).runsOf x) 0 (32 * 0) 0 = some 0 ∧ s.updSec = some (updOf false) ∧
       s.running = true ∧ s.unitUp 0 = true ∧ (s.unit 0).accept = true ∧ (0, 0) ∉ (s.unit 0).staged) := by
  refine ⟨by decide +kernel, _, _, _, rfl, rfl, fullSums_find, ?_⟩
  decide +kernel

/-- A commit to run and one to skip; an element to commit, one already committed with the pool's head right and wrong; paging; readiness. -/
theorem witness_CommitAndPaging_commit :
    (∀ f ∈ [false, true], (let s := trains false 1 fullUnit { flag := f, flagSet := true }
      s.running = true ∧ s.commitOpen = true ∧ s.commitStep = true ∧ s.upd.started = false ∧ s.rcv.phase = .idle ∧
        (updOf false).units.all s.stagingDone = true ∧ s.stackHeld 0 (updOf false).commit 64 = false ∧ s.upd.finished = 0 ∧ s.commitNat 0 1 = 0 ∧
        s.redn.flag = f)) ∧
    (let s : State := { trains false 1 fullUnit { flagSet := true } with upd := { units := [(0, fullUnit)], finished := 1 } }
     s.running = true ∧ s.commitOpen = true ∧ s.upd.started = false ∧ (updOf false).units.all s.stagingDone = true ∧ s.upd.finished ≠ 0) ∧
    (∀ o ∈ [(0, 7), (1, 7), (1, 8)], (let s := mapped o.1 o.2
      ∃ i x e, s.unitRec 0 = some (i, x) ∧ ((updOf false).commitSeq x)[(s.unit 0).pos]? = some e ∧ (s.unit 0).active = true ∧ s.unitUp 0 = true ∧
        s.elemHeld x e = false ∧ ((updOf false).groups.getD e.grp {}).host = false ∧ (meStep (s.mapEntry x e.ix) = ((s.unit 0).k + 1) % 16384 ↔ o.1 = 1) ∧
        (s.poolHead 0 x = meCur (s.mapEntry x e.ix) ↔ o.2 = 7))) ∧
    (let s := trains true 1 { paged := 3 } {}
     ∃ i x e, s.unitRec 0 = some (i, x) ∧ ((updOf true).hostElems x)[(s.unit 0).paged]? = some e ∧ s.updSec = some (updOf true) ∧ s.running = true ∧
       s.unitUp 0 = true ∧ s.tierUp (pagerOf 0) = true ∧ s.commitStep = true ∧ s.pw.stacksUp = true ∧ s.doorClosed .stack x.stack = false ∧
       ((x.pageWpt + 1 < s.wptIx) ∨ (x.pageWpt + 1 = s.wptIx ∧ s.wp.released = true)) ∧ (s.unit 0).active = false ∧
       (s.unit 0).paged < (updOf true).hostBefore x (s.unit 0).pos + x.frameCnt) ∧
    (let s := trains false 0 {} {}
     ∃ i x, s.unitRec 0 = some (i, x) ∧ s.running = true ∧ (s.unit 0).ready = false ∧ s.unitUp 0 = true ∧ (s.stepEndNext && s.commitStep) = false ∧
       s.stackHeld 0 ((updOf false).recordAt (s.nextWpt % 2) i) 4096 = false) := by
  refine ⟨by decide +kernel, by decide +kernel, ?_, ⟨_, _, _, rfl, rfl, ?_⟩, ⟨_, _, rfl, ?_⟩⟩
  · intro o h
    refine ⟨_, _, _, rfl, rfl, ?_⟩
    revert o
    decide +kernel
  all_goals decide +kernel

/-- The commit record meets an error; a block that has been filled goes back to its segment, and its frame meets an error. -/
theorem witness_CommitAndPaging_errors :
    ueIn (some 0x103F) ((trains false 1 fullUnit {}).constReads (updOf false)) = some 0x103F ∧
    (let s := trains true 1 { active := true, filled := true } {}
     ∃ i x e, s.unitRec 0 = some (i, x) ∧ ((updOf true).hostElems x)[(updOf true).hostBefore x (s.unit 0).pos]? = some e ∧ s.running = true ∧
       s.unitUp 0 = true ∧ s.tierUp (pagerOf 0) = true ∧ s.commitStep = true ∧ s.pw.stacksUp = true ∧ s.doorClosed .stack x.stack = false ∧ (x.pageWpt + 1 < s.wptIx ∨ (x.pageWpt + 1 = s.wptIx ∧ s.wp.released = true)) ∧ (s.unit 0).active = true ∧
       (s.unit 0).filled = true ∧ (s.unit 0).backed = false ∧
       ueIn (some (x.frame 0 + 4095)) [(x.frame ((updOf true).hostBefore x (s.unit 0).pos), 4096)] = some (x.frame 0 + 4095)) := by
  refine ⟨by decide +kernel, _, _, _, rfl, rfl, ?_⟩
  decide +kernel

/-- Unit 0's stack has its door closed while an element is to come. -/
theorem witness_CommitAndPaging_held :
    let s : State := { mapped 0 7 with rcv := { closed := [(.stack, 0)] } }
    ∃ i x e, s.unitRec 0 = some (i, x) ∧ ((updOf false).commitSeq x)[(s.unit 0).pos]? = some e ∧ (s.unit 0).active = true ∧ s.unitUp 0 = true ∧
      s.elemHeld x e = true := by
  refine ⟨_, _, _, rfl, rfl, ?_⟩
  decide +kernel

/-- The machine that the chart runs on: the length of axis A and the module's position on it. -/
def machine (l p : Nat) (s : State) : State :=
  { s with chart := s.chart.map (fun c => { c with map := some { len := [l, 1, 1, 1], pos := [p, 0, 0, 0] } }) }

/-- The same with the torus in effect, and ports 0 and 1 with credits. -/
def torus (l : Nat) (s : State) : State :=
  { machine l 0 s with link := { s.link with
      len := [l, 1, 1, 1], ports := [(0, { st := .active, credits := [(0, 4), (3, 2)] }), (1, { st := .active, credits := [(0, 4), (3, 2)] })] } }

/-- The reduction works and has agreed on group 0's exponents, or not yet. -/
def reduces (l : Nat) (d : Redn) : State := torus l (trains false 1 {} { d with flagSet := true })

theorem witness_ReductionBegins :
    (let s := trains false 0 {} {}
     ∃ g, s.rgroup 0 = some g ∧ s.running = true ∧ s.cwptNext = true ∧ s.commitStep = true ∧ s.rcv.phase = .idle ∧ 0 < g.buckets ∧
       (0, 0) ∉ s.redn.scanned ∧ s.placedRegions.all (fun r => (s.region r).ready) = true) ∧
    (∀ w ∈ [0, 1], (let s := trains false w {} { barrier := { reported := true, axis := 4, nf := true } }
      s.running = true ∧ s.rcv.phase = .idle ∧ s.redn.barrier.complete = false ∧ s.redn.barrier.reported = true ∧ s.redn.barrier.axis = 4 ∧
        ((s.cwptNext && s.commitStep) = true ↔ w = 0))) ∧
    (let s := trains false 0 { ready := true } { scanned := [(0, 0)] }
     s.running = true ∧ s.rcv.phase = .idle ∧ s.redn.barrier.complete = false ∧ s.redn.barrier.reported = false ∧ s.othersReady = true ∧
       (∀ a ∈ List.range 4, s.runLen a < 2) ∧ (∀ c ∈ s.chart, c.taps = []) ∧ (s.cwptNext && s.commitStep) = true) ∧
    (let s := torus 2 (trains false 0 {} { barrier := { reported := true, since := 0, limit := 5000000 } })
     s.running = true ∧ s.multi = true ∧ s.redn.barrier.reported = true ∧ s.redn.barrier.complete = false ∧
       s.redn.barrier.since + 1000 * s.redn.barrier.limit ≤ s.now ∧ s.rcv.phase = .idle ∧ s.oos = false) ∧
    (∀ l ∈ [1, 2], (let s := reduces l {}
      ∃ g, s.rgroup 0 = some g ∧ s.reducing = true ∧ s.link.ports.all (fun p => decide (p.2.rxbuf = [])) = true ∧ 0 ∉ s.redn.agreed ∧
        (∀ a ∈ s.redn.agreeing, a.group ≠ 0) ∧ g.axisList ≠ [] ∧ ((∀ a ∈ List.range 4, s.runLen a = 1) ↔ l = 1))) ∧
    (∀ l ∈ [1, 2], (let s := reduces l { agreed := [0] }
      ∃ g, s.rgroup 0 = some g ∧ s.reducing = true ∧ 0 < g.buckets ∧ 170 < 171 ∧ g.axisList.head? = some 0 ∧ 0 ∈ s.redn.agreed ∧
        (0, 0, 0, 256 * 1 + 170) ∉ s.redn.chains ∧ (0, 0, 0, 256 * 1 + 170) ∉ s.redn.begun ∧ s.runLen 0 = l ∧ (l = 2 → s.chainPlace 0 (s.bucketOwner g 0 0) 0 ≠ 0) ∧
        s.twoCredits (s.chunkPort 0 1 170) g.vc = true)) ∧
    (let s := machine 2 1 (reduces 2 { agreed := [0] })
     ∃ g, s.rgroup 0 = some g ∧ s.reducing = true ∧ s.runLen 0 ≠ 1 ∧ s.chainPlace 0 (s.bucketOwner g 0 0) 1 = 0 ∧
       s.twoCredits (s.chunkPort 0 1 170) g.vc = true) ∧
    (let s : State := ({ reduces 2 { agreed := [0] } with upd := { units := [(0, { pos := 32 })], started := true } } : State).devWrite 0x1000 [1]
     ∃ g, s.rgroup 0 = some g ∧ s.reducing = true ∧ 0 < g.buckets ∧ s.ownsBucket g 0 = true ∧ 2 ≤ s.runLen 0 ∧ (0, 0) ∉ s.redn.gathered ∧
       s.upd.started = true ∧ s.commitNat 0 1 = 1 ∧ s.bucketCommitted 0 0 = true) := by
  refine ⟨⟨_, rfl, ?_⟩, ?_, ?_, ?_, fun l h => ⟨_, rfl, ?_⟩, fun l h => ⟨_, rfl, ?_⟩, ⟨_, rfl, ?_⟩, ⟨_, rfl, ?_⟩⟩
  all_goals first | (revert l; decide +kernel) | decide +kernel

/-- The last byte of what each step of the reduction reads meets an error. -/
theorem witness_Reduction_errors :
    let s := reduces 2 { agreed := [0] }
    ∃ g q, s.rgroup 0 = some g ∧ ueIn (some (s.gradCopy g + 65535)) [(s.gradCopy g + 65536 * 0, 65536)] = some (s.gradCopy g + 65535) ∧
      ueIn (some (g.agree + g.buckets - 1)) [(g.agree, g.buckets)] = some (g.agree + g.buckets - 1) ∧
      s.contribution 0 g 0 0 1 170 = some q ∧ ueIn (some (g.agree + g.buckets)) (s.chunkReads g 0 1 170) = some (g.agree + g.buckets) ∧
      ueIn (some (g.agree + 2 * g.buckets - 1)) [(g.agree + g.buckets, g.buckets)] = some (g.agree + 2 * g.buckets - 1) ∧
      ueIn (some (g.wimage + 32767)) [(g.wimage + 32768 * 0, 32768)] = some (g.wimage + 32767) := by
  refine ⟨_, _, rfl, ?_, ?_, rfl, ?_, ?_, ?_⟩ <;> decide +kernel

theorem buffersEmpty_torus (l : Nat) (s : State) : BuffersEmpty (torus l s) := by
  intro p vc
  by_cases h0 : p = 0
  · subst h0; rfl
  · by_cases h1 : p = 1
    · subst h1; rfl
    · simp [State.port, torus, tget, Ne.symm h0, Ne.symm h1]

/-- A flit of a type on port 0 for a port that expects it. -/
def arrives (type vc : Nat) (payload : List Byte) : Flit := mkFlit type vc payload

/-- A REDUCE of chunk 170 of half 1 whose sums are all 2, and the same with a residue that differs. -/
def sums2 : List Byte := reducePayload 0 0 170 1 0 (List.replicate 32 2)
def badSums : List Byte := sums2.set 0xC6 0xFF

theorem witness_ReductionFlits :
    (let s := reduces 2 { agreed := [0] }
     let f := mkFlit 3 3 sums2
     ∃ g q sums, s.rgroup 0 = some g ∧ residuesOk f = true ∧ s.reducing = true ∧ 0 < 2 * s.variant ∧ g.axisList.findIdx? (fun a => decide (a = portAxis 0)) = some 0 ∧
       (bitsOf (fieldAt f.payload 0 6) 47 40, bitsOf (fieldAt f.payload 0 6) 39 16, bitsOf (fieldAt f.payload 0 6) 15 8,
         bitsOf (fieldAt f.payload 0 6) 7 7, bitsOf (fieldAt f.payload 0 6) 6 6) = (0, 0, 170, 1, 0) ∧
       s.contribution 0 g 0 0 1 170 = some q ∧ addSums (payloadSums f) q = some sums ∧
       s.chainPlace (portAxis 0) (s.bucketOwner g (portAxis 0) 0) 1 + 1 = s.runLen (portAxis 0) ∧
       Receives s 0 f 3 ∧ f.vc = 3) ∧
    (let s := reduces 2 { agreed := [0] }
     Receives s 0 (mkFlit 3 3 badSums) 3 ∧ residuesOk (mkFlit 3 3 badSums) = false ∧ (s.port 0).resFor ≠ some (s.port 0).rxSeq) ∧
    (let s : State := (reduces 2 { agreed := [0] }).modPort 0 (fun x => { x with resFor := some 0 })
     Receives s 0 (mkFlit 3 3 badSums) 3 ∧ (s.port 0).resFor = some (s.port 0).rxSeq) ∧
    (let s := reduces 2 { agreeing := [⟨0, 0, []⟩] }
     let f := mkFlit 4 3 (redHeader 0 0 0 0 1 ++ [9])
     ∃ g k, Receives s 0 f 4 ∧ s.rgroup 0 = some g ∧ s.reducing = true ∧ s.redn.agreeing.find? (fun a => decide (a.group = 0)) = some k ∧
       g.axisList[k.axis]? = some (portAxis 0) ∧ f.payload.length = 240 ∧ bitsOf (fieldAt f.payload 0 6) 47 40 = 0) ∧
    (let s := reduces 2 {}
     let f := mkFlit 5 3 (redHeader 0 0 73 1 16 ++ [9])
     ∃ g, Receives s 0 f 5 ∧ s.rgroup 0 = some g ∧ f.payload.length = 240 ∧ bitsOf (fieldAt f.payload 0 6) 47 40 = 0) ∧
    (∀ h ∈ [0, 1], let s := reduces 2 {}
     let f := mkFlit 6 0 (leBytes 8 2 ++ [0, 1] ++ leBytes 1 h)
     Receives s 0 f 6 ∧ 2 ≤ s.runLen (portAxis 0) ∧ fieldAt f.payload 8 1 = portAxis 0 ∧ fieldAt f.payload 0 8 = s.nextWpt ∧ fieldAt f.payload 0xA 1 = h) := by
  unfold Receives
  refine ⟨⟨_, _, _, rfl, ?_, ?_, ?_, ?_, ?_, rfl, rfl, ?_, ?_⟩, ?_, ?_, ⟨_, _, ?_, rfl, ?_, rfl, ?_⟩, ⟨_, ?_, rfl, ?_⟩, ?_⟩ <;> decide +kernel

/-! ## Witnesses: links and taps -/

/-- A module of a machine of two on axis A, port 0 as given. -/
def ported (x : Port) : State :=
  { liveS2 with
      dict := { objs := [(okey 0x5001 1, 2), (okey 0x5001 2, 1), (okey 0x5001 3, 1), (okey 0x5001 4, 1), (okey 0x5010 0, 15)] },
      link := { refclk := true, len := [2, 1, 1, 1], ports := [(0, x)] } }

/-- The IDENT of an S2 at position 1 with firmware 2, from its port `q`. -/
def ident (q : Nat) : List Byte := leBytes 1 2 ++ [0xB1, 2] ++ leBytes 1 q ++ [2, 1, 1, 1, 1, 0, 0, 0, 0, 0, 0, 0, 9, 0, 0, 0, 0, 0, 0, 0]

theorem witness_PortsTrain :
    ((ported {}).canTrain 0 = true ∧ torusOk 2 (ported {}).storedLen (ported {}).storedPos = true ∧ (ported {}).storedLen = (ported {}).link.len ∧
      (ported {}).storedPos = (ported {}).link.pos ∧ 2 ≤ (ported {}).axisLen (portAxis 0)) ∧
    (((ported { st := .detect }).port 0).st = .detect ∧ 15 % 16 = 15 ∧ 13 % 16 ≠ 15) ∧
    (∀ st ∈ [PortSt.equalise, .align, .fecLock], ((ported { st := st }).port 0).st = st) ∧
    ((ported { st := .identify }).identFail 0 (ident 1) = 0 ∧ (ported { st := .identify }).identFail 0 (ident 3) ≠ 0) ∧
    (∀ st ∈ [PortSt.detect, .equalise, .align, .fecLock, .identify], ∃ b code, trainBound ((ported { st := st }).port 0).st = some (b, code) ∧
      ((ported { st := st }).port 0).since + b < (ported { st := st }).now) ∧
    (∀ g ∈ [true, false], ∀ e ∈ [0, 1], (let s := ported { st := .active, genOpen := g }
      (s.port 0).st = .active ∧ s.linkReset 0 = false ∧ (s.port 0).genOpen = g ∧ (mkFlit 0x0E 0 (leBytes 1 5 ++ leBytes 1 e)).type = 0x0E ∧
        (fieldAt (mkFlit 0x0E 0 (leBytes 1 5 ++ leBytes 1 e)).payload 1 1 = 1 ↔ e = 1))) ∧
    (∀ c ∈ [RetrainCause.naks, .retries, .lock], (let s := ported { st := .active, nakRun := 8, nakTimes := List.replicate 2000 4999999999 }
      (s.port 0).st = .active ∧ s.retrainWhy 0 c = true)) ∧
    (let s := ported { st := .retrain, since := 4999950000, txMask := 15, rxMask := 15 }
     (s.port 0).st = .retrain ∧ s.retrainFailed 0 = false) ∧
    (ported { st := .retrain, since := 4999949999, txMask := 15, rxMask := 15 }).retrainFailed 0 = true := by
  refine ⟨?_, ?_, ?_, ?_, ?_, ?_, ?_, ?_, ?_⟩
  case _ => decide +kernel
  case _ => decide +kernel
  case _ => decide +kernel
  case _ => decide +kernel
  case _ =>
    simp only [List.forall_mem_cons]
    refine ⟨⟨_, _, rfl, ?_⟩, ⟨_, _, rfl, ?_⟩, ⟨_, _, rfl, ?_⟩, ⟨_, _, rfl, ?_⟩, ⟨_, _, rfl, ?_⟩, nofun⟩ <;> decide +kernel
  all_goals decide +kernel

/-- A port of an axis of length 1 whose retry is due; one that may not train; a GEN on VC3; a RETRAIN that a replay waits for. -/
theorem witness_PortsTrain_more :
    (let s : State := { ported {} with dict := { objs := [(okey 0x5001 1, 1), (okey 0x5001 2, 1), (okey 0x5001 3, 1), (okey 0x5001 4, 1), (okey 0x5010 0, 15)] },
                                       link := { refclk := true, len := [1, 1, 1, 1], ports := [(0, { retryAt := some 4999999999 })] } }
     s.canTrain 0 = true ∧ torusOk s.variant s.storedLen s.storedPos = true ∧ s.storedLen = s.link.len ∧ s.storedPos = s.link.pos ∧ s.axisLen (portAxis 0) < 2) ∧
    (ported { retryAt := some 5000000001 }).canTrain 0 = false ∧
    ((mkFlit 0x0E 3 (leBytes 1 5)).type = 0x0E ∧ (mkFlit 0x0E 3 (leBytes 1 5)).vc ≠ 0) ∧
    (let s : State := { ported { st := .retrain, since := 4999950000, txMask := 15, rxMask := 15 } with rcv := { phase := .replaying, linkHold := true } }
     (s.port 0).st = .retrain ∧ s.retrainFailed 0 = false ∧ s.rcv.linkHold = true) := by
  refine ⟨?_, ?_, ?_, ?_⟩ <;> decide +kernel

/-- A port that works, its queue of VC2 tokens one short of its credits. -/
def working : Port := { st := .active, txSeq := 4095, credits := [(2, 2)], sendq := [(2, [mkFlit 1 2 []])] }

/-- The same module runs a chart whose tile's side N is bound to port 0 by a record of a USE; `x` the tile, `y` the port. -/
def tapped (u : Nat) (x : Tile) (y : Port) : State :=
  { ported y with
      chart := some { wps := 1, place := [(0, 0, 0)], tiles := [{}],
                      map := some { len := [2, 1, 1, 1], taps := [⟨0, u, 0, 0, 8, 8⟩], rings := (if u = 2 then [⟨3, 0, 1, 0, 2, 2⟩] else []) } },
      run := some { seq := 1, steps := 4 }, tiles := [(0, x)] }

theorem witness_FlitsAndTaps_port :
    (let s := ported working
     (s.port 0).st = .active ∧ s.linkReset 0 = false ∧ (s.port 0).genOpen = false ∧ s.onward 0 = none ∧ (s.port 0).genSend = none ∧ (s.port 0).resend = [] ∧
       (s.port 0).retry.length < 512 ∧ (s.port 0).beginChains.choose = some 2 ∧ tget [] (s.port 0).beginChains.sendq 2 = [mkFlit 1 2 []]) ∧
    (let s := ported { working with sendq := [], startq := [(3, [mkFlit 3 3 []])], credits := [(3, 2)] }
     (s.port 0).beginChains.choose = some 3 ∧ tget [] (s.port 0).beginChains.sendq 3 = [mkFlit 3 3 []]) ∧
    (let s := ported { st := .identify }; (s.port 0).st = .identify ∧ s.linkReset 0 = false) ∧
    (∀ st ∈ [PortSt.align, .fecLock], (let s := ported { st := st }; (s.port 0).st = st ∧ s.linkReset 0 = false)) ∧
    (let s := ported { working with resFor := some 0 }; (s.port 0).resFor = some (s.port 0).rxSeq ∧ ((ported working).port 0).resFor ≠ some 0) ∧
    (let f : Flit := { mkFlit 1 2 [] with seq := 5 }
     1 ≤ seqDiff f.seq ((ported working).port 0).rxSeq ∧ seqDiff f.seq ((ported working).port 0).rxSeq ≤ 2048 ∧
       ((ported working).port 0).nakFor ≠ some ((ported working).port 0).rxSeq ∧ flitCrc f + 1 ≠ flitCrc f) ∧
    (let s := ported working
     (s.port 0).st = .active ∧ ({ mkFlit 0 0 [] with ack := 1 } : Flit).type = 0 ∧ ({ mkFlit 0 0 [] with ack := 1 } : Flit).vc = 0 ∧ (mkFlit 0 5 []).vc ≠ 0) ∧
    (let s := tapped 0 { outq := [(0, [⟨1, false⟩, ⟨2, false⟩, ⟨3, false⟩, ⟨4, false⟩])] } working
     ∃ r, s.tapRec 0 2 = some r ∧ r.use ≠ 3 ∧ (s.port 0).st = .active ∧ s.linkDoor 0 = false ∧ (s.port 0).genOpen = false ∧ s.tapWaiting r ≠ [] ∧
       s.tapMay 0 2 r = true ∧ s.doorClosed .dataflow (s.physOf (tileRegion (s.tapTile r).1)) = false) := by
  refine ⟨?_, ?_, ?_, ?_, ?_, ?_, ?_, ⟨_, rfl, ?_⟩⟩ <;> decide +kernel

theorem witness_FlitsAndTaps_received :
    (∀ h ∈ [0, 1], (let s := tapped 0 {} working
      let f := { mkFlit 1 2 (tokenPayload [⟨5, false⟩]) with hops := h }
      Receives s 0 f 1 ∧ f.vc = 2 ∧ (s.tapRec 0 2).isSome = true)) ∧
    (∀ k ∈ [0, 1], (let s := tapped 2 {} working
      let f := { mkFlit 2 1 (tokenPayload [⟨5, false⟩]) with ring := 3, kind := k }
      ∃ r t, Receives s 0 f 2 ∧ f.vc = 1 ∧ s.ringOf 0 = some r ∧ s.tapRec 0 1 = some t ∧
        (s.kvExpect 0 r t.rtokens = (f.ring, f.kind, f.round, f.origin) ↔ k = 1))) ∧
    (let s : State := { tapped 2 {} working with chart := (tapped 2 {} working).chart.map (fun c => { c with map := c.map.map (fun m => { m with rings := [] }) }) }
     ∃ t, Receives s 0 (mkFlit 2 1 (tokenPayload [⟨5, false⟩])) 2 ∧ s.ringOf 0 = none ∧ s.tapRec 0 1 = some t) ∧
    (Receives (ported working) 0 (mkFlit 7 0 []) 7 ∧ (ported working).run = none) ∧
    (let s := tapped 0 {} working
     ∃ r, Receives s 0 (mkFlit 8 0 []) 8 ∧ s.boundTaps.find? (fun r => decide (r.port = 0)) = some r ∧ s.redn.barrier.reported = false ∧
       fieldAt (mkFlit 8 0 [1]).payload 0 8 ≠ s.wp.count ∧ fieldAt (mkFlit 8 0 []).payload 0 8 = s.wp.count ∧
       ((s.port 0).tap (tapVc r)).lastRecvd = fieldAt (mkFlit 8 0 []).payload 8 4 ∧
       ((s.port 0).tap (tapVc r)).lastRecvd ≠ fieldAt (mkFlit 8 0 (zeros 8 ++ [1])).payload 8 4) ∧
    (let s : State := { tapped 0 {} working with run := some { seq := 1, waiting := true, limit := 600000 }, hi := { ready := true, cmds := [cmdOf 4 []] },
                                                  pw := { liveS2.pw with time := 700000000000 } }
     ∃ run r k, s.run = some run ∧ run.waiting = true ∧ run.since + run.limit * 1000000 ≤ s.now ∧
       s.boundTaps.find? (fun r => decide (s.startMatches r run.steps ≠ some true)) = some r ∧ s.cmd run.seq = some k ∧ k.ended = false) ∧
    (let s := tapped 0 {} working
     Receives s 0 (mkFlit 9 0 []) 9 ∧ s.running = true ∧ s.rcv.phase = .idle ∧ s.oos = false) ∧
    (∀ a ∈ [0x100, 2 ^ 60], (let s := ported working
      let f := mkFlit 0x0A 7 (leBytes 8 a ++ leBytes 8 224 ++ [1, 2, 3])
      Receives s 0 f 0x0A ∧ f.vc = 7 ∧ f.payload.length = 240 ∧ bulkBytes f ≤ 224 ∧ (s.inDevice (fieldAt f.payload 0 8) (bulkBytes f) = true ↔ a = 0x100) ∧
        (a = 0x100 → s.writeRefused (fieldAt f.payload 0 8) (bulkBytes f) = false) ∧ (∀ k ∈ s.hi.cmds, k.opcode ≠ 1) ∧
        s.stackHeld 0 (fieldAt f.payload 0 8) (bulkBytes f) = false)) ∧
    (let s : State := { ported working with rcv := { closed := [(.stack, 0)] } }
     let f := mkFlit 0x0A 7 (leBytes 8 0x100 ++ leBytes 8 224 ++ [1, 2, 3])
     Receives s 0 f 0x0A ∧ s.inDevice (fieldAt f.payload 0 8) (bulkBytes f) = true ∧ s.writeRefused (fieldAt f.payload 0 8) (bulkBytes f) = false ∧
       s.stackHeld 0 (fieldAt f.payload 0 8) (bulkBytes f) = true) := by
  unfold Receives
  refine ⟨?_, ?_, ⟨_, ?_, ?_, rfl⟩, ?_, ⟨_, ?_, rfl, ?_⟩, ⟨_, _, _, rfl, ?_, ?_, rfl, rfl, ?_⟩, ?_, ?_, ?_⟩
  case _ => decide +kernel
  case _ =>
    intro k h
    refine ⟨_, _, ?_, ?_, rfl, rfl, ?_⟩ <;> (revert k; decide +kernel)
  all_goals decide +kernel

/-! ## Well-formedness: a command that each check refuses, beside one it takes -/

theorem test_wf_tiles_regions :
    (Instr.mac 1535 .ok).wf 2 = true ∧ (Instr.mac 1536 .ok).wf 2 = false ∧ (Instr.regionReady 47 1535 .ok .ok false none).wf 2 = true ∧
      (Instr.regionReady 48 0 .ok .ok false none).wf 2 = false ∧ (Instr.regionReady 0 1536 .ok .ok false none).wf 2 = false ∧
      (Instr.regionTrip 55).wf 2 = true ∧ (Instr.regionTrip 56).wf 2 = false ∧ (Instr.capFloorAlarm (.thermal 48)).wf 2 = false := by decide +kernel

theorem test_wf_units_of_a_tile :
    (Instr.rdA 0 2 .ok).wf 2 = true ∧ (Instr.rdA 0 3 .ok).wf 2 = false ∧ (Instr.win 0 3).wf 2 = false ∧ (Instr.branch 0 3).wf 2 = true ∧
      (Instr.branch 0 4).wf 2 = false ∧ (Instr.portAccess 0 7 .ok .ok).wf 2 = true ∧ (Instr.portAccess 0 8 .ok .ok).wf 2 = false ∧
      (Instr.writeBack 0 4095 15 .ok false).wf 2 = true ∧ (Instr.writeBack 0 4096 0 .ok false).wf 2 = false ∧ (Instr.writeBack 0 0 16 .ok false).wf 2 = false := by decide +kernel

theorem test_wf_ports_units_queues :
    (Instr.equalise 3 15).wf 2 = true ∧ (Instr.equalise 4 0).wf 2 = false ∧ (Instr.equalise 0 16).wf 2 = false ∧ (Instr.detect 0 16 false 0).wf 2 = false ∧ (Instr.retrain 0 .lock 0 16).wf 2 = false ∧
      (Instr.tapSend 0 2).wf 2 = true ∧ (Instr.tapSend 0 3).wf 2 = false ∧ (Instr.commitElement 15 false).wf 2 = true ∧ (Instr.commitElement 16 false).wf 2 = false ∧
      (Instr.qCtrlWrite 15 0).wf 2 = true ∧ (Instr.qCtrlWrite 16 0).wf 2 = false ∧ (Instr.bar0RegisterWrite 0 0 8).wf 2 = true ∧
      (Instr.bar0RegisterWrite 0 0 2).wf 2 = false ∧ (Instr.chainStart 0 0 2 0 none).wf 2 = false ∧ (Instr.torusLen false 4 1 .ok).wf 2 = false := by decide +kernel

theorem test_wf_flits_domains_dictionary :
    (Instr.idle 0 (mkFlit 0 0 [])).wf 2 = true ∧ (Instr.idle 0 { mkFlit 0 0 [] with seq := 4096 }).wf 2 = false ∧
      (Instr.idle 0 { mkFlit 0 0 [] with payload := [] }).wf 2 = false ∧ (Instr.resetComplete .module 0).wf 2 = true ∧
      (Instr.resetComplete .module 1).wf 2 = false ∧ (Instr.resetComplete .stack 8).wf 2 = false ∧ (Instr.resetComplete .die 2).wf 2 = false ∧
      (Instr.resetComplete .link 4).wf 2 = false ∧ (Instr.resetComplete .update 16).wf 2 = false ∧ (Instr.resetOverrun .tier 56).wf 2 = false ∧
      (Instr.dictWrite 65536 0 [] .ok).wf 2 = false ∧ (Instr.opkey 4 [] .ok).wf 2 = false ∧ (Instr.setEndpointId false 256).wf 2 = false := by decide +kernel

/-! ## The spec's worked examples -/

/-- 02, the last worked example of the chapter: CTRL, ARRAY, MEM0 and ROUTE. -/
theorem test_step_entry :
    let e : Entry := { ctrl := 0x3F, array := 0x12880000, mem0 := 0x12000800, route := 0x10000000 }
    (e.rep, e.isNull, e.seq, e.aop, e.afmt, e.aplane, e.bsrc) = (63, false, 0, 1, 2, 1, 4) ∧ (e.mop 0, e.str 0, e.adv 0) = (1, 2, true) ∧
      e.osel .east = 4 ∧ e.osel .south = 0 ∧ e.pops = [.west] := by decide +kernel

/-- 04, the convergence loop: descriptor word 0x7131_4408_0000_0000. -/
theorem test_steering_descriptor :
    let d : W64 × W64 := (0x7131440800000000, 0)
    [stMode d, stDin d, stIn1 d, stBsrc d, stBpt d, stOut0 d, stOut1 d, stTrip d] = [3, 4, 2, 3, 1, 2, 1, 8] := by decide +kernel

/-- 07, step 3 of the worked example: element 0 carries STEP 42 already; its PREV goes back into ring entry 16. Stack 9 of an S8. -/
theorem test_commit_element_again :
    let x : UnitRec := { stack := 9, runCount := 1, blocks := 32, map := 0x900000001000, poolSize := 32, pool := 0x900000002000 }
    let s : State := { trains false 1 {} {} with
      variant := 8, upd := { units := [(18, { k := 41, head := 96, tail := 112, whead := 96, wtail := 112, active := true })] } }
    let s : State := { s with chart := s.chart.map (fun c => { c with upd := some { updOf false with units := [x] } }) }
    let s := (s.devWrite x.map (leBytes 8 0x402A000100000200)).devWrite x.pool (leBytes 4 0x200)
    let u := after (.commitElement 18 false) s
    mkEntry 1 42 0x100 0x200 = 0x402A000100000200 ∧ stackBase 9 = 0x009000000000 ∧ u.devNat (x.pool + 64) 4 = 0x100 ∧
      u.devNat x.map 8 = 0x402A000100000200 ∧ ((u.unit 18).pos, (u.unit 18).whead, (u.unit 18).wtail) = (1, 97, 113) := by decide +kernel

/-- 09, four modules on A: local bytes, integers, residues, sums and the staged value of element 100 of bucket 5. -/
theorem test_reduction_of_an_element :
    let g : RGroup := { buckets := 8, agree := 0x5000, grad0 := 0x100000 }
    let s : State := { trains false 1 {} {} with chart := (machine 4 3 (trains false 1 {} {})).chart }
    let s := s.devWrite 0x500D [0x85]
    let q := fun (x : W32) => (s.devWrite (0x100000 + 65536 * 5 + 400) (leBytes 4 x.toNat)).qValue g 5 100
    [0x42150000, 0x42B50000, 0x41400000, 0x42700000].map (fun x => exponentByte [ofF32 x]) = [0x84, 0x85, 0x82, 0x84] ∧
      (s.headroom g, s.shiftK g 5) = (3, 21) ∧ (List.range 8).map (s.bucketOwner g 0) = [0, 0, 1, 1, 2, 2, 3, 3] ∧
      [0x3F9E0000, 0xBF000000, 0x35400000, 0x3F400002].map q = [2588672, 0xFFF00000, 2, 1572864] ∧
      [(2588672 : W32), 0xFFF00000, 2, 1572864, 4161536, 3112960, 3112962].map residue = [31, 63, 2, 96, 0, 63, 65] ∧
      addSums [4161536] [0xFFF00000] = some [3112960] ∧ s.chainPlace 0 2 0 = 0 ∧ s.chunkPort 0 0 2 = 0 ∧
      s.stagedValue g 5 3112962 = (0x3DF0, false) := by decide +kernel

/-- 10, the module at A 5, B 2, C 0, D 1; 11, the journal slots of SEQ 1,048,699 and 1,048,690; 08, 30 layers over 8 stages. -/
theorem test_addresses_and_shares :
    moduleAddr [5, 2, 0, 1] = 0x8045 ∧ journalSlot 1048699 = 0xFFC001EC0 ∧ journalSlot 1048690 = 0xFFC001C80 ∧
      (List.range 8).map (shareOf 30 8) = [4, 4, 4, 4, 4, 4, 3, 3] := by decide +kernel

/-- 13, the first row of the thermal loop's worked example: at 87.0 °C the set point falls from 0.70 V to 0.69 V. -/
theorem test_thermal_loop_lowers :
    let s : State := { liveS2 with pw := { liveS2.pw with regions := [(0, { vset := 700, vth := 700000, shutter := .opened, temp := 87 * 16 })] } }
    ((after .thermalLoop s).rpw 0).vth = 690000 ∧ ((after .thermalLoop s).rpw 0).vset = 690 := by decide +kernel

/-- 15, three module resets: the stamp of exactly 900 s before counts, one of 1 ns more does not. -/
theorem test_module_reset_window :
    ([1203500000000, 1650000000000].filter (fun t => inWindow window900 2103500000000 t)).length = 2 ∧
      ([1203500000000, 1650000000000].filter (fun t => inWindow window900 2103500000001 t)).length = 1 := by decide +kernel

end Sys2Proof.Tests
end

section
/-! SUPPORT. Little-endian bytes, sparse tables and device memory: what is written reads back. -/

namespace Sys2Proof.Machine

/-! ## Bytes and bits -/

@[simp] theorem length_leBytes (n v : Nat) : (leBytes n v).length = n := by
  induction n generalizing v with
  | zero => rfl
  | succ n ih => simp [leBytes, ih]

/-- A number that fits `n` bytes reads back from them. -/
theorem leVal_leBytes {n v : Nat} (h : v < 2 ^ (8 * n)) : leVal (leBytes n v) = v := by
  induction n generalizing v with
  | zero =>
    rw [Nat.mul_zero, Nat.pow_zero, Nat.lt_one_iff] at h
    rw [h]
    rfl
  | succ n ih =>
    have hq : v / 256 < 2 ^ (8 * n) := by
      rw [Nat.div_lt_iff_lt_mul (by decide)]
      calc v < 2 ^ (8 * (n + 1)) := h
        _ = 2 ^ (8 * n) * 256 := by rw [Nat.mul_succ, Nat.pow_add]
    simp only [leBytes, leVal, ih hq, BitVec.toNat_ofNat]
    omega

theorem and_mod_two (w m : Nat) : (w &&& m) % 2 = w % 2 * (m % 2) := by
  have h := Nat.and_mod_two_pow (a := w) (b := m) (n := 1)
  rw [Nat.pow_one] at h
  rw [h]
  rcases Nat.mod_two_eq_zero_or_one w with hw | hw <;> rcases Nat.mod_two_eq_zero_or_one m with hm | hm <;> rw [hw, hm] <;> rfl

/-- Clearing the bits of `m` clears those and no other. -/
theorem testBit_clearBitsN (w m i : Nat) : (clearBitsN w m).testBit i = (w.testBit i && !m.testBit i) := by
  unfold clearBitsN
  induction i generalizing w m with
  | zero =>
    have hle : w &&& m ≤ w := Nat.and_le_left
    have hmod := and_mod_two w m
    have hbit : (w - (w &&& m)) % 2 = 1 ↔ w % 2 = 1 ∧ m % 2 ≠ 1 := by
      rcases Nat.mod_two_eq_zero_or_one m with hm | hm <;> rw [hm] at hmod <;> omega
    simp only [Nat.testBit_zero, hbit, Bool.decide_and, ne_eq, decide_not]
  | succ i ih =>
    have hle : w &&& m ≤ w := Nat.and_le_left
    have hmod := and_mod_two w m
    have hdiv := Nat.and_div_two (a := w) (b := m)
    have hhalf : (w - (w &&& m)) / 2 = w / 2 - (w / 2 &&& m / 2) := by
      rcases Nat.mod_two_eq_zero_or_one m with hm | hm <;> rw [hm] at hmod <;> omega
    rw [Nat.testBit_succ, Nat.testBit_succ, Nat.testBit_succ, hhalf, ih]

/-! ## Sparse tables -/

section
variable {α : Type}

/-- A table whose entries are kept by key reads as before where the key is kept, and as the default elsewhere. -/
theorem tget_filter (d : α) (p : Nat → Bool) (t : Tab α) (k : Nat) :
    tget d (t.filter (fun e => p e.1)) k = if p k then tget d t k else d := by
  induction t with
  | nil => simp [tget]
  | cons e t ih =>
    rw [List.filter_cons]
    by_cases hk : e.1 = k
    · by_cases hp : p k = true
      · simp [tget, hk, hp]
      · simp [hk, hp, ih]
    · by_cases hp : p e.1 = true
      · simpa [tget, hk, hp] using ih
      · simpa [tget, hk, hp] using ih

/-- A change made at each of the first `n` keys reaches those and no other. -/
theorem tget_foldl_tmod_range [DecidableEq α] (d : α) (f : α → α) (t : Tab α) (n k : Nat) :
    tget d ((List.range n).foldl (fun t i => tmod d t i f) t) k = if k < n then f (tget d t k) else tget d t k := by
  induction n with
  | zero => rfl
  | succ n ih =>
    rw [List.range_succ, List.foldl_append, List.foldl_cons, List.foldl_nil]
    by_cases hk : k = n
    · subst hk
      simp [ih]
    · rw [tget_tmod_other d _ f hk, ih]
      have : (k < n + 1) = (k < n) := by simp; omega
      simp only [this]

end

/-! ## Device memory -/

/-- A write leaves every byte outside its range as it was. -/
theorem devByte_devWrite_outside (bs : List Byte) : ∀ (s : State) (a : Nat) {b : Nat}, b < a ∨ a + bs.length ≤ b →
    (s.devWrite a bs).devByte b = s.devByte b := by
  induction bs with
  | nil => intro s a b _; rfl
  | cons x bs ih =>
    intro s a b h
    simp only [List.length_cons] at h
    rw [State.devWrite, ih _ _ (by omega), devByte_devPut_other _ _ (by omega)]

/-- A write reads back byte for byte. -/
theorem devByte_devWrite_inside (bs : List Byte) : ∀ (s : State) (a : Nat) {i : Nat} (h : i < bs.length),
    (s.devWrite a bs).devByte (a + i) = bs[i] := by
  induction bs with
  | nil => intro s a i h; exact absurd h (Nat.not_lt_zero i)
  | cons x bs ih =>
    intro s a i h
    rw [State.devWrite]
    cases i with
    | zero =>
      rw [devByte_devWrite_outside _ _ _ (by omega)]
      exact devByte_devPut_same s a x
    | succ i =>
      rw [show a + (i + 1) = a + 1 + i by omega, ih _ _ (Nat.lt_of_succ_lt_succ h)]
      rfl

/-- A list of bytes written to device memory reads back. -/
@[simp] theorem devRead_devWrite (s : State) (a : Nat) (bs : List Byte) : (s.devWrite a bs).devRead a bs.length = bs := by
  apply List.ext_getElem
  · simp [State.devRead]
  · intro i h _
    have hi : i < bs.length := by simpa [State.devRead] using h
    simp [State.devRead, devByte_devWrite_inside bs s a hi]

end Sys2Proof.Machine
end

section
/-! SUPPORT. Laws of the object dictionary: what the object table holds, how an object reads, what an ordinary write answers and what it
leaves (12 R363-R371). -/

namespace Sys2Proof.Machine

/-! ## The object table -/

/-- The row of an object is a row of the table, with the object's own index and subindex. -/
theorem objRow_spec {v i j : Nat} {r : ObjRow} (h : objRow v i j = some r) : r ∈ objTable v ∧ r.idx = i ∧ r.sub = j :=
  ⟨List.mem_of_find?_eq_some h, by simpa using List.find?_some h⟩

/-- The rows of a variant's table stand in ascending order of their objects (12 R370). -/
theorem objTable_ascending {v : Nat} (hv : v = 2 ∨ v = 4 ∨ v = 8) :
    (objTable v).Pairwise (fun r r' => okey r.idx r.sub < okey r'.idx r'.sub) := by
  have chain : ∀ v ∈ [2, 4, 8], ((objTable v).map (fun r => okey r.idx r.sub)).IsChain (· < ·) := by decide +kernel
  exact List.pairwise_map.1 (List.isChain_iff_pairwise.1 (chain v (by simpa using hv)))

/-- So a row of the table is the row of its object. -/
theorem objRow_of_mem {s : State} (hv : VariantOk s) {r : ObjRow} (h : r ∈ objTable s.variant) : objRow s.variant r.idx r.sub = some r := by
  have first : ∀ l : List ObjRow, l.Pairwise (fun r r' => okey r.idx r.sub < okey r'.idx r'.sub) → r ∈ l →
      l.find? (fun x => decide (x.idx = r.idx ∧ x.sub = r.sub)) = some r := by
    intro l hl hr
    induction hl with
    | nil => cases hr
    | @cons x l hx _ ih =>
      obtain rfl | hr := List.mem_cons.1 hr
      · simp
      · have hne : ¬(x.idx = r.idx ∧ x.sub = r.sub) := fun e => by simpa [e.1, e.2] using hx r hr
        rw [List.find?_cons_of_neg (by simpa using hne), ih hr]
  exact first _ (objTable_ascending hv) h

/-- The default under which an object's value is stored is the one of its row. -/
theorem objDflt_okey {v i j : Nat} (hj : j < 256) {r : ObjRow} (h : objRow v i j = some r) : objDflt v (okey i j) = r.dflt := by
  have hi : okey i j / 256 = i := by unfold okey; omega
  have hs : okey i j % 256 = j := by unfold okey; omega
  simp [objDflt, hi, hs, h]

/-- The WO objects whose length is not fixed are among those that act when they are written. -/
theorem acting_of_wo_unfixed {v : Nat} {r : ObjRow} (h : r ∈ objTable v) (ha : r.acc = .wo) (hf : otFixed r.ty = false) :
    r.idx ∈ actingObjects := by
  have listed : ∀ l : List ObjRow, l.all (fun r => !decide (r.acc = .wo) || otFixed r.ty || decide (r.idx ∈ actingObjects)) = true → r ∈ l →
      r.idx ∈ actingObjects := by
    intro l hl hr
    simpa [ha, hf] using List.all_eq_true.1 hl r hr
  simp only [objTable, List.mem_append] at h
  obtain ((((((h | h) | h) | h) | h) | h) | h) | h := h
  · exact listed _ rfl h
  · exact listed _ rfl h
  · simp only [objs3, List.mem_append, List.mem_flatMap] at h
    obtain (h | ⟨k, -, h⟩) | h := h <;> exact listed _ rfl h
  · exact listed _ rfl h
  · simp only [objs5, List.mem_append, List.mem_flatMap] at h
    obtain (h | ⟨p, -, h⟩) | h := h <;> exact listed _ rfl h
  · exact listed _ rfl h
  · exact listed _ rfl h
  · exact listed _ rfl h

/-- A table in which nothing is stored reads every object at its default. -/
theorem obj_of_objs_nil {s : State} (h : s.dict.objs = []) {i j : Nat} (hj : j < 256) {r : ObjRow} (hr : objRow s.variant i j = some r) :
    s.obj i j = r.dflt := by
  rw [State.obj, h, tget, objDflt_okey hj hr]

/-- The rows of the 0x9000 range are in the table of every variant. -/
theorem mem_objTable_of_objs9 (v : Nat) {r : ObjRow} (h : r ∈ objs9) : r ∈ objTable v := List.mem_append_right _ h

/-- The Sextants' objects are numbers. -/
theorem fixed_of_sextant : ∀ r ∈ objs9, r.idx = 0x9020 → otFixed r.ty = true := by decide

/-! ## Reads -/

/-- A number that may be read reads as its bytes (12 R364). -/
theorem objRead_number {s : State} {r : ObjRow} (hr : objRow s.variant r.idx r.sub = some r) (ha : r.acc ≠ .wo)
    (hx : s.sextantAbsent r.idx = false) (hf : otFixed r.ty = true) :
    s.objRead r.idx r.sub = some (leBytes (otSize r.ty) (s.objNum r.idx r.sub)) := by
  simp [State.objRead, hr, State.rowBytes, ha, hx, hf]

/-- A Sextant's object on a variant without Sextants reads as zero (00 R4). -/
theorem sextantAbsent_reads_zero {s : State} {r : ObjRow} (hr : objRow s.variant r.idx r.sub = some r) (hx : s.sextantAbsent r.idx = true)
    (hf : otFixed r.ty = true) : s.objRead r.idx r.sub = some (zeros (otSize r.ty)) := by
  simp [State.objRead, hr, State.rowBytes, hx, hf]

/-! ## What an ordinary write answers -/

/-- The state with the status of a dictionary access left in it. -/
def State.withStatus (s : State) (code : Nat) : State := { s with dict := { s.dict with status := code } }

@[simp] theorem obj_withStatus (s : State) (code i j : Nat) : (s.withStatus code).obj i j = s.obj i j := rfl
@[simp] theorem rpw_withStatus (s : State) (code pr : Nat) : (s.withStatus code).rpw pr = s.rpw pr := rfl

/-- A write that meets a status is refused with it and changes nothing. -/
theorem ordWrite_refused {s : State} (w : Writer) {i j : Nat} {b : List Byte} {wide : Bool} (st : Store) (h : s.ordStatus i j b wide ≠ 0) :
    s.ordWrite w i j b wide st = (s.ordStatus i j b wide, s) := by
  unfold State.ordWrite
  split
  · rfl
  · simp [h]

/-- A write whose value cannot be stored changes nothing. -/
theorem ordWrite_storeFails {s : State} (w : Writer) {i j : Nat} {b : List Byte} {wide : Bool} {st : Store} {r : ObjRow}
    (hr : objRow s.variant i j = some r) (h : s.ordStatus i j b wide = 0) (hp : r.p = true) (hst : st ≠ .ok)
    (hx : s.sextantAbsent i = false) : s.ordWrite w i j b wide st = (stStore, s) := by
  simp [State.ordWrite, hr, h, hp, hst, hx]

/-- A write that meets no status, and whose value is stored, is taken. -/
theorem ordWrite_taken {s : State} (w : Writer) {i j : Nat} {b : List Byte} {wide : Bool} {st : Store} {r : ObjRow}
    (hr : objRow s.variant i j = some r) (h : s.ordStatus i j b wide = 0) (hst : st = .ok ∨ r.p = false ∨ s.sextantAbsent i = true) :
    s.ordWrite w i j b wide st = (0, (s.applyWrite w r b).noteLength r b.length) := by
  have : ¬(r.p ∧ st ≠ .ok ∧ ¬s.sextantAbsent i) := by
    rintro ⟨hp, hs, hx⟩
    obtain h | h | h := hst
    · exact hs h
    · exact absurd (hp.symm.trans h) (by decide)
    · exact hx h
  simp only [State.ordWrite, hr, h, if_neg this]
  rfl

theorem noteLength_of_fixed (s : State) {r : ObjRow} (n : Nat) (h : otFixed r.ty = true) : s.noteLength r n = s := by
  simp [State.noteLength, h]

theorem noteLength_of_ne_wo (s : State) {r : ObjRow} (n : Nat) (h : r.acc ≠ .wo) : s.noteLength r n = s := by
  simp [State.noteLength, h]

/-- An object without a behaviour of its own: its value is stored, where the variant has it. -/
theorem applyWrite_of_not_acting (s : State) (w : Writer) {r : ObjRow} (b : List Byte) (h : r.idx ∉ actingObjects) :
    s.applyWrite w r b = if s.sextantAbsent r.idx then s else s.setObj r.idx r.sub (leVal b) := by
  simp only [actingObjects, List.mem_cons, List.not_mem_nil, or_false, not_or] at h
  simp [State.applyWrite, h]

/-- A Sextant's object has no behaviour of its own. -/
theorem not_acting_of_sextantAbsent {s : State} {i : Nat} (h : s.sextantAbsent i = true) : i ∉ actingObjects := by
  have : i = 0x9020 := by
    simp only [State.sextantAbsent, decide_eq_true_eq] at h
    exact h.1
  subst this
  decide

/-- A status of zero is that of an object which the module presents. -/
theorem objRow_of_ordStatus {s : State} {i j : Nat} {b : List Byte} {wide : Bool} (h : s.ordStatus i j b wide = 0) :
    ∃ r, objRow s.variant i j = some r := by
  unfold State.ordStatus at h
  split at h
  · cases h
  · exact ⟨_, ‹_›⟩

/-- A value that meets no status has no reserved bit set, on a variant that has the object. -/
theorem reservedSet_of_ordStatus {s : State} {i j : Nat} {b : List Byte} {wide : Bool} {r : ObjRow} (hr : objRow s.variant i j = some r)
    (hx : s.sextantAbsent i = false) (h : s.ordStatus i j b wide = 0) : reservedSet r b = false := by
  cases hb : reservedSet r b with
  | false => rfl
  | true =>
    simp only [State.ordStatus, hr, hx, hb, stReadOnly, stLength, stMalformed] at h
    split_ifs at h <;> contradiction

/-- An ordinary write of an object without a behaviour of its own stores the value and nothing else. -/
theorem ordWrite_stores {s : State} (w : Writer) {i j : Nat} {b : List Byte} {wide : Bool} (h : s.ordStatus i j b wide = 0)
    (ha : i ∉ actingObjects) (hx : s.sextantAbsent i = false) : s.ordWrite w i j b wide .ok = (0, s.setObj i j (leVal b)) := by
  obtain ⟨r, hr⟩ := objRow_of_ordStatus h
  obtain ⟨hm, rfl, rfl⟩ := objRow_spec hr
  rw [ordWrite_taken w hr h (.inl rfl), applyWrite_of_not_acting s w b ha, hx]
  congr 1
  by_cases hwo : r.acc = .wo
  · cases hf : otFixed r.ty with
    | false => exact absurd (acting_of_wo_unfixed hm hwo hf) ha
    | true => exact noteLength_of_fixed _ _ hf
  · exact noteLength_of_ne_wo _ _ hwo

/-- A Sextant's object on a variant without Sextants takes every write and keeps nothing of it (00 R4). -/
theorem ordWrite_sextantAbsent {s : State} (w : Writer) {i j : Nat} (b : List Byte) (wide : Bool) (st : Store) {r : ObjRow}
    (hr : objRow s.variant i j = some r) (hx : s.sextantAbsent i = true) (hf : otFixed r.ty = true) : s.ordWrite w i j b wide st = (0, s) := by
  have h : s.ordStatus i j b wide = 0 := by simp [State.ordStatus, hr, hx]
  obtain ⟨-, rfl, rfl⟩ := objRow_spec hr
  rw [ordWrite_taken w hr h (.inr (.inr hx)), applyWrite_of_not_acting s w b (not_acting_of_sextantAbsent hx), hx,
    noteLength_of_fixed _ _ hf]
  rfl

/-! ## Writes on no particular path -/

/-- A value stored and a status left change the dictionary alone. -/
theorem setObj_withStatus_frame (s : State) (i j v code : Nat) : { (s.setObj i j v).withStatus code with dict := s.dict } = s := rfl

/-- A write while the Helm runs, of an object that it serves, leaves its status. -/
theorem writeObject_of_served {s : State} {i j : Nat} (b : List Byte) (wide : Bool) (st : Store) (hr : s.helmRuns = true)
    (hs : s.objServed i j = true) :
    s.writeObject i j b wide st = (s.ordWrite {} i j b wide st).2.withStatus (s.ordWrite {} i j b wide st).1 := by
  simp [State.writeObject, hr, hs, State.withStatus]

theorem writeObject_of_not_served {s : State} {i j : Nat} (b : List Byte) (wide : Bool) (st : Store) (hs : s.objServed i j = false) :
    s.writeObject i j b wide st = s := by
  simp [State.writeObject, hs]

/-- Outside recovery mode every object is served (14 R419). -/
theorem objServed_of_not_recovery {s : State} (h : s.helm.recovery = false) (i j : Nat) : s.objServed i j = true := by
  simp [State.objServed, h]

/-- A command whose write changes nothing is refused with the write's status. -/
theorem refuses_of_ordWrite {c : Instr} {s : State} {i j code : Nat} {b : List Byte} {wide : Bool} {st : Store}
    (hc : exec c s = .next (s.writeObject i j b wide st)) (hr : s.helmRuns = true) (hs : s.objServed i j = true)
    (h : s.ordWrite {} i j b wide st = (code, s)) : Refuses c s code := by
  refine ⟨_, hc, ?_⟩
  rw [writeObject_of_served b wide st hr hs, h]
  rfl

theorem exec_dictWrite (i j : Nat) (b : List Byte) (st : Store) (s : State) :
    exec (.dictWrite i j b st) s = .next (s.writeObject i j b false st) := rfl

/-- One stored value set differs from the state in that value alone. -/
theorem objectIs_setObj (s : State) (i j v : Nat) : ObjectIs s (s.setObj i j v) i j v :=
  ⟨State.obj_setObj_same s i j v, fun _ _ h => State.obj_setObj_other s v h⟩

end Sys2Proof.Machine
end

section
/-! SUPPORT. Writes of a number to a fixed-size object, on no particular path (12 R364-R368). -/

namespace Sys2Proof.Machine

/-- The number `v` is written to the object of row `r`, which the module has, which takes ordinary writes and whose size `v` fits. -/
structure NumberWrite (s : State) (r : ObjRow) (v : Nat) : Prop where
  row      : objRow s.variant r.idx r.sub = some r
  present  : s.sextantAbsent r.idx = false
  writable : r.acc = .rw ∨ r.acc = .wo
  fixed    : otFixed r.ty = true
  plain    : r.idx ≠ 0x8002
  fits     : v < 2 ^ (8 * otSize r.ty)

namespace NumberWrite

variable {s : State} {r : ObjRow} {v : Nat}

/-- The bytes of the number. -/
theorem value (h : NumberWrite s r v) : leVal (leBytes (otSize r.ty) v) = v := leVal_leBytes h.fits

/-- The status of such a write: what its value meets, lowest code first (12 R368, R371). -/
theorem status_eq (h : NumberWrite s r v) : s.ordStatus r.idx r.sub (leBytes (otSize r.ty) v) false =
    if v &&& reservedBits (okey r.idx r.sub) ≠ 0 then stMalformed
    else if s.outOfRange r (leBytes (otSize r.ty) v) then stRange
    else if s.writeBusy r.idx v then stBusy
    else if isDump r.idx && s.dumpRefused v (s.dumpBytes r.idx) then stAddress
    else 0 := by
  have hl : badLength r (leBytes (otSize r.ty) v).length = false := by simp [badLength, h.fixed]
  have ho : r.acc ≠ .ro ∧ r.acc ≠ .rwa := by
    obtain e | e := h.writable <;> simp [e]
  simp only [State.ordStatus, h.row, h.present, ho.1, ho.2, hl, reservedSet, State.valueStatus, h.value, h.plain, Bool.false_eq_true, if_false,
    false_and, Bool.false_or, decide_eq_true_eq]

theorem status_zero (h : NumberWrite s r v) (hm : v &&& reservedBits (okey r.idx r.sub) = 0)
    (ho : s.outOfRange r (leBytes (otSize r.ty) v) = false) (hb : s.writeBusy r.idx v = false) (hd : isDump r.idx = false) :
    s.ordStatus r.idx r.sub (leBytes (otSize r.ty) v) false = 0 := by
  simp [h.status_eq, hm, ho, hb, hd]

theorem status_malformed (h : NumberWrite s r v) (hm : v &&& reservedBits (okey r.idx r.sub) ≠ 0) :
    s.ordStatus r.idx r.sub (leBytes (otSize r.ty) v) false = stMalformed := by
  rw [h.status_eq, if_pos hm]

theorem status_busy (h : NumberWrite s r v) (hm : v &&& reservedBits (okey r.idx r.sub) = 0)
    (ho : s.outOfRange r (leBytes (otSize r.ty) v) = false) (hb : s.writeBusy r.idx v = true) :
    s.ordStatus r.idx r.sub (leBytes (otSize r.ty) v) false = stBusy := by
  simp [h.status_eq, hm, ho, hb]

/-- A BOOL takes 0 and 1 (12 R364). -/
theorem inRange_bool (h : NumberWrite s r v) (ht : r.ty = .bool) (hv : v ≤ 1) : s.outOfRange r (leBytes (otSize r.ty) v) = false := by
  simp only [State.outOfRange, h.value]
  simp only [ht, decide_eq_false_iff_not]
  omega

/-- An unsigned object takes every value of the range its table gives, or of its type. -/
theorem inRange_unsigned (h : NumberWrite s r v) (ht : r.ty = .u8 ∨ r.ty = .u16 ∨ r.ty = .u32 ∨ r.ty = .u64)
    (hv : ∀ lo hi, objRange s.variant (okey r.idx r.sub) = some (lo, hi) → lo ≤ v ∧ v ≤ hi) :
    s.outOfRange r (leBytes (otSize r.ty) v) = false := by
  simp only [State.outOfRange, h.value]
  cases hcase : objRange s.variant (okey r.idx r.sub) with
  | none => obtain e | e | e | e := ht <;> simp only [e]
  | some range =>
    have hin : ¬(v < range.1 ∨ range.2 < v) := by
      have := hv range.1 range.2 hcase
      omega
    obtain e | e | e | e := ht <;> simp only [e, hin, decide_false]

/-- The write of a number that fits is no wide one. -/
theorem writeNumber_eq (h : NumberWrite s r v) (hr : s.helmRuns = true) (hs : s.objServed r.idx r.sub = true) (st : Store) :
    s.writeNumber r.idx r.sub (otSize r.ty) v st =
      (s.ordWrite {} r.idx r.sub (leBytes (otSize r.ty) v) false st).2.withStatus
        (s.ordWrite {} r.idx r.sub (leBytes (otSize r.ty) v) false st).1 := by
  rw [State.writeNumber, decide_eq_false (Nat.not_le.2 h.fits), writeObject_of_served _ _ _ hr hs]

/-- The number is all that the write of an object without a behaviour of its own stores. -/
theorem stores (h : NumberWrite s r v) (ha : r.idx ∉ actingObjects) :
    s.applyWrite {} r (leBytes (otSize r.ty) v) = s.setObj r.idx r.sub v := by
  rw [applyWrite_of_not_acting s {} _ ha, h.present, h.value]
  rfl

section

variable {c : Instr} {st : Store} (h : NumberWrite s r v) (hr : s.helmRuns = true) (hs : s.objServed r.idx r.sub = true)
  (hc : exec c s = .next (s.writeNumber r.idx r.sub (otSize r.ty) v st))

include h hr hs hc

/-- A command whose write meets a status is refused with it. -/
theorem refuses {code : Nat} (hst : s.ordStatus r.idx r.sub (leBytes (otSize r.ty) v) false = code) (h0 : code ≠ 0) : Refuses c s code := by
  refine ⟨_, hc, ?_⟩
  rw [h.writeNumber_eq hr hs, ordWrite_refused {} st (hst ▸ h0), hst]
  rfl

/-- So is one whose value cannot be stored. -/
theorem storeFails (hst : s.ordStatus r.idx r.sub (leBytes (otSize r.ty) v) false = 0) (hp : r.p = true) (hne : st ≠ .ok) :
    Refuses c s stStore := by
  refine ⟨_, hc, ?_⟩
  rw [h.writeNumber_eq hr hs, ordWrite_storeFails {} h.row hst hp hne h.present]
  rfl

/-- A command whose write is taken acts and leaves status 0. -/
theorem acts (hst : s.ordStatus r.idx r.sub (leBytes (otSize r.ty) v) false = 0) (hok : st = .ok) {t : State}
    (ht : s.applyWrite {} r (leBytes (otSize r.ty) v) = t) : Completes c s (t.withStatus 0) := by
  rw [Completes, hc, h.writeNumber_eq hr hs, ordWrite_taken {} h.row hst (.inl hok), noteLength_of_fixed _ _ h.fixed, ht]

end

end NumberWrite

/-- A row of the table that takes ordinary writes and is of no Sextant. -/
theorem numberWrite_of_mem {s : State} (hv : VariantOk s) {r : ObjRow} (hm : r ∈ objTable s.variant) (hx : r.idx ≠ 0x9020 ∨ s.variant = 8)
    (hw : r.acc = .rw ∨ r.acc = .wo) (hf : otFixed r.ty = true) (hp : r.idx ≠ 0x8002) {v : Nat} (hfit : v < 2 ^ (8 * otSize r.ty)) :
    NumberWrite s r v := by
  refine ⟨objRow_of_mem hv hm, ?_, hw, hf, hp, hfit⟩
  obtain h | h := hx <;> simp [State.sextantAbsent, h]

end Sys2Proof.Machine
end

section
/-! SUPPORT. The paths of an ordinary write: DICT_WRITE, DICT_SET and MCTP_SET (12 R367, R372, R375). -/

namespace Sys2Proof.Machine

/-! ## DICT_SET of a fixed-size object -/

/-- A command that has started is in hand and has not ended. -/
theorem started_spec {s : State} {seq op : Nat} {k : Cmd} (h : s.started seq op = some k) : s.cmd seq = some k ∧ k.ended = false := by
  unfold State.started at h
  split at h
  · split at h
    · cases h
      exact ⟨‹_›, by simp_all⟩
    · cases h
  · cases h

/-- A command that has started ends with the outcome given. -/
theorem ended_of_started {s u : State} {seq op : Nat} {k : Cmd} (h : s.started seq op = some k) (hu : u.hi = s.hi) (code detail result : Nat) :
    Ended (u.endCmd seq code detail result) seq code detail result := by
  obtain ⟨hc, he⟩ := started_spec h
  exact endCmd_ended u seq code detail result k (by rw [State.cmd, hu]; exact hc) he

/-- A DICT_SET in hand that writes the number `k.dictValue` to a fixed-size object, laid out as Table HOST-5 gives. -/
structure SetsNumber (s : State) (seq : Nat) (k : Cmd) (r : ObjRow) : Prop where
  started  : s.started seq 8 = some k
  unsigned : k.flags % 2 = 0
  idle     : s.log.clearing = none
  row      : objRow s.variant k.dictIndex k.dictSub = some r
  fixed    : otFixed r.ty = true
  noLength : k.dictLength = 0
  noBuf    : k.dictBuf = 0
  fits     : k.dictValue < 2 ^ (8 * otSize r.ty)

namespace SetsNumber

variable {s : State} {seq : Nat} {k : Cmd} {r : ObjRow}

/-- The bytes such a command writes. -/
theorem value (h : SetsNumber s seq k r) : leVal (leBytes (otSize r.ty) k.dictValue) = k.dictValue := leVal_leBytes h.fits

/-- A reserved bit makes it malformed; a dump that has to wait leaves it in hand; else it ends with the status of its write. -/
theorem exec_eq (h : SetsNumber s seq k r) (pe : Bool) (st : Store) : exec (.dictSet seq pe st) s =
    if k.dictValue &&& reservedBits (okey r.idx r.sub) ≠ 0 then .next (s.endCmd seq 1 0x18 0)
    else if s.dumpWaits seq r.idx k.dictValue ∧ s.ordStatus r.idx r.sub (leBytes (otSize r.ty) k.dictValue) false = 0 then .next s
    else .next (dictSetEnd seq (s.ordWrite { seq := seq } r.idx r.sub (leBytes (otSize r.ty) k.dictValue) false st)) := by
  change execDictSet seq pe st s = _
  have hw : decide (2 ^ (8 * otSize r.ty) ≤ k.dictValue) = false := decide_eq_false (Nat.not_le.2 h.fits)
  simp only [execDictSet, h.started, h.idle, h.unsigned, h.row, h.fixed, h.noLength, h.noBuf, hw]
  rfl

/-- A value that meets no status has no reserved bit set. -/
theorem not_reserved (h : SetsNumber s seq k r) (hx : s.sextantAbsent r.idx = false)
    (hc : s.ordStatus r.idx r.sub (leBytes (otSize r.ty) k.dictValue) false = 0) :
    k.dictValue &&& reservedBits (okey r.idx r.sub) = 0 := by
  obtain ⟨-, hi, hj⟩ := objRow_spec h.row
  have hr : objRow s.variant r.idx r.sub = some r := by rw [hi, hj]; exact h.row
  have := reservedSet_of_ordStatus hr hx hc
  simpa [reservedSet, h.value] using this

end SetsNumber

/-- A DICT_SET whose write is refused ends with the status as DETAIL (11 Table HOST-7). -/
theorem dictSetEnd_refused (s : State) (seq : Nat) {code : Nat} (h : code ≠ 0) : dictSetEnd seq (code, s) = s.endCmd seq 0x20 code 0 := by
  simp [dictSetEnd, h]

/-- One whose write is taken ends, unless the write begins to erase the flash ring. -/
theorem dictSetEnd_taken {s : State} (seq : Nat) (h : s.log.clearing = none) : dictSetEnd seq (0, s) = s.endCmd seq 0 0 0 := by
  simp [dictSetEnd, h]

/-! ## MCTP_SET -/

/-- The state in which a request is served at once. -/
def State.withoutEarlier (s : State) : State := { s with dict := { s.dict with earlier := [] } }

/-- A SET that is served at once is answered with the status of its write, unless the write begins to erase the flash ring. -/
theorem exec_mctpSet {s : State} {vdm : Bool} (src : Nat) {body : List Byte} (st : Store) (hs : s.mctpServes vdm body = true)
    (hn : s.dict.serving = none) (ho : mOp body = 2) (hb : mctpBad body = false)
    (hc : (s.withoutEarlier.ordWrite {} (mIndex body) (mSub body) (mData body) false st).2.log.clearing = none) :
    exec (.mctpSet vdm src body st) s = .next
      ((s.withoutEarlier.ordWrite {} (mIndex body) (mSub body) (mData body) false st).2.answer body
        (s.withoutEarlier.ordWrite {} (mIndex body) (mSub body) (mData body) false st).1 0 []) := by
  change execMctpSet vdm src body st s = _
  have hw : s.withoutEarlier.mctpWrite src body st =
      mctpSetEnd s.withoutEarlier src body (s.withoutEarlier.ordWrite {} (mIndex body) (mSub body) (mData body) false st) := by
    simp [State.mctpWrite, hb]
  have hm : s.withoutEarlier.mctpServe src body st = s.withoutEarlier.mctpWrite src body st := by simp [State.mctpServe, ho]
  have he : s.mctpArrive vdm src body st = s.withoutEarlier.mctpServe src body st := by simp [State.mctpArrive, hs, hn, State.withoutEarlier]
  rw [execMctpSet, if_pos ho, he, hm, hw]
  simp [mctpSetEnd, hc]

/-- An answer changes the dictionary alone, with the objects left to the write before it. -/
theorem answer_frame (s t : State) (b : List Byte) (status off : Nat) (data : List Byte) (h : { t with dict := s.dict } = s) :
    { t.answer b status off data with dict := s.dict } = s := h

@[simp] theorem response_answer (s : State) (b : List Byte) (status off : Nat) (data : List Byte) :
    (s.answer b status off data).dict.response = mctpReply b status off data := rfl

theorem withoutEarlier_frame (s : State) : { s.withoutEarlier with dict := s.dict } = s := rfl

theorem setObj_frame (s t : State) (i j v : Nat) (h : { t with dict := s.dict } = s) : { t.setObj i j v with dict := s.dict } = s := h

/-! ## What each path does -/

/-- Every DICT_WRITE of an object that is served (12 R365-R368). -/
theorem dictWrite_served {s : State} {i j : Nat} (b : List Byte) (hr : s.helmRuns = true) (hs : s.objServed i j = true) :
    (∀ st, s.ordStatus i j b false ≠ 0 → Refuses (.dictWrite i j b st) s (s.ordStatus i j b false)) ∧
      (s.ordStatus i j b false = 0 → i ∉ actingObjects → s.sextantAbsent i = false →
        ∃ u, Completes (.dictWrite i j b .ok) s u ∧ u.dict.status = 0 ∧ ObjectIs s u i j (leVal b) ∧
          { u with dict := { u.dict with objs := s.dict.objs, status := s.dict.status } } = s) ∧
      (∀ r st, objRow s.variant i j = some r → r.p = true → s.ordStatus i j b false = 0 → s.sextantAbsent i = false → st ≠ .ok →
        Refuses (.dictWrite i j b st) s 0xE) := by
  refine ⟨fun st h => ?_, fun h ha hx => ?_, fun r st hrow hp h hx hst => ?_⟩
  · exact refuses_of_ordWrite (exec_dictWrite i j b st s) hr hs (ordWrite_refused {} st h)
  · refine ⟨(s.setObj i j (leVal b)).withStatus 0, ?_, rfl, objectIs_setObj s i j (leVal b), rfl⟩
    rw [Completes, exec_dictWrite, writeObject_of_served b false .ok hr hs, ordWrite_stores {} h ha hx]
  · exact refuses_of_ordWrite (exec_dictWrite i j b st s) hr hs (ordWrite_storeFails {} hrow h hp hst hx)

/-- Every DICT_SET of a number that fits its object (12 R372; 00 R14). -/
theorem SetsNumber.outcomes {s : State} {seq : Nat} {k : Cmd} {r : ObjRow} (h : SetsNumber s seq k r) :
    let code := s.ordStatus r.idx r.sub (leBytes (otSize r.ty) k.dictValue) false
    (∀ st, k.dictValue &&& reservedBits (okey r.idx r.sub) ≠ 0 →
        ∃ u, Completes (.dictSet seq false st) s u ∧ OnlyHost s u ∧ Ended u seq 1 0x18 0) ∧
      (∀ st, k.dictValue &&& reservedBits (okey r.idx r.sub) = 0 → code ≠ 0 →
        ∃ u, Completes (.dictSet seq false st) s u ∧ OnlyHost s u ∧ Ended u seq 0x20 code 0) ∧
      (code = 0 → r.idx ∉ actingObjects → s.sextantAbsent r.idx = false →
        ∃ u, Completes (.dictSet seq false .ok) s u ∧ Ended u seq 0 0 0 ∧ ObjectIs s u r.idx r.sub k.dictValue ∧
          { u with hi := s.hi, dict := { u.dict with objs := s.dict.objs } } = s) := by
  intro code
  refine ⟨fun st hres => ?_, fun st hres hc => ?_, fun hc ha hx => ?_⟩
  · refine ⟨s.endCmd seq 1 0x18 0, ?_, rfl, ended_of_started h.started rfl _ _ _⟩
    rw [Completes, h.exec_eq, if_pos hres]
  · refine ⟨s.endCmd seq 0x20 code 0, ?_, rfl, ended_of_started h.started rfl _ _ _⟩
    rw [Completes, h.exec_eq, if_neg (not_not.2 hres), if_neg (fun e => hc e.2), ordWrite_refused _ st hc, dictSetEnd_refused s seq hc]
  · have hd : s.dumpWaits seq r.idx k.dictValue = false := by
      have : isDump r.idx = false := by
        simp only [actingObjects, List.mem_cons, not_or] at ha
        simp [isDump, ha]
      simp [State.dumpWaits, this]
    refine ⟨(s.setObj r.idx r.sub k.dictValue).endCmd seq 0 0 0, ?_, ended_of_started h.started rfl _ _ _,
      objectIs_setObj s r.idx r.sub k.dictValue, rfl⟩
    rw [Completes, h.exec_eq, if_neg (not_not.2 (h.not_reserved hx hc)), if_neg (by simp [hd]), ordWrite_stores _ hc ha hx, h.value,
      dictSetEnd_taken (s := s.setObj _ _ _) seq h.idle]

/-- Every MCTP_SET that is served at once (12 R375). -/
theorem mctpSet_served {s : State} {vdm : Bool} (src : Nat) {body : List Byte} (hs : s.mctpServes vdm body = true)
    (hn : s.dict.serving = none) (ho : mOp body = 2) (hb : mctpBad body = false) (hl : s.log.clearing = none) :
    let code := s.ordStatus (mIndex body) (mSub body) (mData body) false
    (∀ st, code ≠ 0 → ∃ u, Completes (.mctpSet vdm src body st) s u ∧ { u with dict := s.dict } = s ∧ u.dict.objs = s.dict.objs ∧
        u.dict.response = mctpReply body code 0 []) ∧
      (code = 0 → mIndex body ∉ actingObjects → s.sextantAbsent (mIndex body) = false →
        ∃ u, Completes (.mctpSet vdm src body .ok) s u ∧ { u with dict := s.dict } = s ∧ u.dict.response = mctpReply body 0 0 [] ∧
          ObjectIs s u (mIndex body) (mSub body) (leVal (mData body))) := by
  intro code
  have hcode : s.withoutEarlier.ordStatus (mIndex body) (mSub body) (mData body) false = code := rfl
  refine ⟨fun st hc => ?_, fun hc ha hx => ?_⟩
  · have hw := ordWrite_refused {} st (s := s.withoutEarlier) (hcode ▸ hc)
    refine ⟨s.withoutEarlier.answer body code 0 [], ?_, answer_frame s _ _ _ _ _ (withoutEarlier_frame s), rfl, response_answer _ _ _ _ _⟩
    rw [Completes, exec_mctpSet src st hs hn ho hb (by rw [hw]; exact hl), hw]
    rfl
  · have hw := ordWrite_stores {} (s := s.withoutEarlier) (hcode.trans hc) ha hx
    refine ⟨(s.withoutEarlier.setObj (mIndex body) (mSub body) (leVal (mData body))).answer body 0 0 [], ?_,
      answer_frame s _ _ _ _ _ (setObj_frame s _ _ _ _ (withoutEarlier_frame s)), response_answer _ _ _ _ _,
      objectIs_setObj s.withoutEarlier _ _ _⟩
    rw [Completes, exec_mctpSet src .ok hs hn ho hb (by rw [hw]; exact hl), hw]

end Sys2Proof.Machine
end

section
/-! SUPPORT. What the objects that act do when they are written (05 R172, R173; 06 R210, R211; 10 R334; 12 Table DICT-8; 13 R392). -/

namespace Sys2Proof.Machine

/-! ## Dumps (05 R173, 06 R211, 14 R416; 12 R377) -/

/-- The row of an object whose write starts a dump. -/
def dumpRow (idx : Nat) : ObjRow := orow idx 0 .u64 .wo false 0

theorem isDump_cases {idx : Nat} (h : isDump idx = true) : idx = 0x9010 ∨ idx = 0x3010 ∨ idx = 0x7010 ∨ idx = 0x7013 := of_decide_eq_true h

theorem dumpRow_mem (v : Nat) {idx : Nat} (h : isDump idx = true) : dumpRow idx ∈ objTable v := by
  obtain rfl | rfl | rfl | rfl := isDump_cases h <;> simp [dumpRow, objTable, objs9, objs3, objs78]

/-- A device address is written to the object of a dump. -/
theorem dump_numberWrite {s : State} (hv : VariantOk s) {idx : Nat} (h : isDump idx = true) (a : W64) :
    NumberWrite s (dumpRow idx) a.toNat := by
  have hne : idx ≠ 0x9020 ∧ idx ≠ 0x8002 := by obtain rfl | rfl | rfl | rfl := isDump_cases h <;> decide
  exact numberWrite_of_mem hv (dumpRow_mem _ h) (.inl hne.1) (.inr rfl) rfl hne.2 a.isLt

/-- A dump meets BUSY, then ADDRESS, and no other status. -/
theorem dump_status {s : State} (hv : VariantOk s) {idx : Nat} (h : isDump idx = true) (a : W64) :
    s.ordStatus idx 0 (leBytes 8 a.toNat) false =
      if s.writeBusy idx a.toNat then stBusy else if s.dumpRefused a.toNat (s.dumpBytes idx) then stAddress else 0 := by
  have hres : reservedBits (okey idx 0) = 0 := by obtain rfl | rfl | rfl | rfl := isDump_cases h <;> rfl
  have hrange : objRange s.variant (okey idx 0) = none := by obtain rfl | rfl | rfl | rfl := isDump_cases h <;> rfl
  have hout : s.outOfRange (dumpRow idx) (leBytes 8 a.toNat) = false := by simp [State.outOfRange, dumpRow, orow, hrange]
  refine (dump_numberWrite hv h a).status_eq.trans ?_
  change (if a.toNat &&& reservedBits (okey idx 0) ≠ 0 then _ else if s.outOfRange (dumpRow idx) (leBytes 8 a.toNat) then _ else
    if s.writeBusy idx a.toNat then _ else if isDump idx && _ then _ else _) = _
  simp [hres, hout, h]
  rfl

/-- With power to the stacks a dump is sent to device memory. -/
theorem applyWrite_dump {s : State} {idx : Nat} (h : isDump idx = true) (hp : s.pw.stacksUp = true) (w : Writer) (a : W64) :
    s.applyWrite w (dumpRow idx) (leBytes 8 a.toNat) = s.devSend .helm a.toNat (s.dumpData idx) := by
  have hval : leVal (leBytes 8 a.toNat) = a.toNat := leVal_leBytes a.isLt
  obtain rfl | rfl | rfl | rfl := isDump_cases h <;> simp [State.applyWrite, dumpRow, orow, hval, State.counterDump, hp]

/-- Without it a dump of counters is stored. -/
theorem applyWrite_counterDump {s : State} {idx : Nat} (h : idx = 0x9010 ∨ idx = 0x3010) (hp : s.pw.stacksUp = false) (w : Writer) (a : W64) :
    s.applyWrite w (dumpRow idx) (leBytes 8 a.toNat) = { s with dict := { s.dict with dumps := s.dict.dumps ++ [(idx, a.toNat)] } } := by
  have hval : leVal (leBytes 8 a.toNat) = a.toNat := leVal_leBytes a.isLt
  obtain rfl | rfl := h <;> simp [State.applyWrite, dumpRow, orow, hval, State.counterDump, hp]

/-- With power to the stacks, and without it for the counters, no dump is BUSY. -/
theorem writeBusy_dump_false {s : State} {idx : Nat} (h : isDump idx = true) (hp : s.pw.stacksUp = true ∨ idx = 0x9010 ∨ idx = 0x3010) (n : Nat) :
    s.writeBusy idx n = false := by
  obtain hp | rfl | rfl := hp
  · obtain rfl | rfl | rfl | rfl := isDump_cases h <;> simp [State.writeBusy, hp]
  · rfl
  · rfl

section

variable {s : State} {c : Instr} {idx : Nat} {addr : W64} (hv : VariantOk s) (hr : s.helmRuns = true) (hrec : s.helm.recovery = false)
  (h : isDump idx = true) (hc : exec c s = .next (s.writeNumber idx 0 8 addr.toNat .ok))

include hv hr hrec h hc

theorem dump_refuses {code : Nat} (hst : s.ordStatus idx 0 (leBytes 8 addr.toNat) false = code) (h0 : code ≠ 0) : Refuses c s code :=
  (dump_numberWrite hv h addr).refuses hr (objServed_of_not_recovery hrec _ _) hc hst h0

theorem dump_acts (hp : s.pw.stacksUp = true ∨ idx = 0x9010 ∨ idx = 0x3010) (hd : s.dumpRefused addr.toNat (s.dumpBytes idx) = false) :
    Completes c s ((s.applyWrite {} (dumpRow idx) (leBytes 8 addr.toNat)).withStatus 0) := by
  have hst : s.ordStatus idx 0 (leBytes 8 addr.toNat) false = 0 := by
    rw [dump_status hv h addr, writeBusy_dump_false h hp, hd]
    rfl
  exact (dump_numberWrite hv h addr).acts hr (objServed_of_not_recovery hrec _ _) hc hst rfl rfl

/-- A dump of the Logbook without power to the stacks (log 71). -/
theorem dump_busy (hp : s.pw.stacksUp = false) (hi : idx = 0x7010 ∨ idx = 0x7013) : Refuses c s 0xB := by
  have hb : s.writeBusy idx addr.toNat = true := by obtain rfl | rfl := hi <;> simp [State.writeBusy, hp]
  exact dump_refuses hv hr hrec h hc ((dump_status hv h addr).trans (by rw [hb]; rfl)) (by decide)

/-- A dump into a range in use (05 R173). -/
theorem dump_addressRefused (hp : s.pw.stacksUp = true ∨ idx = 0x9010 ∨ idx = 0x3010)
    (hd : s.dumpRefused addr.toNat (s.dumpBytes idx) = true) : Refuses c s 0xC :=
  dump_refuses hv hr hrec h hc ((dump_status hv h addr).trans (by rw [writeBusy_dump_false h hp, hd]; rfl)) (by decide)

/-- A dump of counters without power to the stacks (12 R377). -/
theorem dump_stored (hp : s.pw.stacksUp = false) (hi : idx = 0x9010 ∨ idx = 0x3010)
    (hd : s.dumpRefused addr.toNat (s.dumpBytes idx) = false) :
    Completes c s { s with dict := { s.dict with dumps := s.dict.dumps ++ [(idx, addr.toNat)], status := 0 } } := by
  have := dump_acts hv hr hrec h hc (.inr hi) hd
  rwa [applyWrite_counterDump hi hp] at this

/-- A dump that waits at a stack's closed door (15 R431). -/
theorem dump_held (hp : s.pw.stacksUp = true) (hd : s.dumpRefused addr.toNat (s.dumpBytes idx) = false)
    (hh : s.stackHeld 0 addr.toNat (s.dumpData idx).length = true) :
    Completes c s ((s.hold .helm addr.toNat (s.dumpData idx).length (some (s.dumpData idx))).withStatus 0) := by
  have := dump_acts hv hr hrec h hc (.inl hp) hd
  rwa [applyWrite_dump h hp, State.devSend, if_pos hh] at this

/-- A dump that is written. -/
theorem dump_written (hp : s.pw.stacksUp = true) (hd : s.dumpRefused addr.toNat (s.dumpBytes idx) = false)
    (hh : s.stackHeld 0 addr.toNat (s.dumpData idx).length = false) :
    Completes c s ((s.devWrite addr.toNat (s.dumpData idx)).withStatus 0) := by
  have := dump_acts hv hr hrec h hc (.inl hp) hd
  rwa [applyWrite_dump h hp, State.devSend, if_neg (by simp [hh])] at this

end

/-! ## The clears and RESTORE_DEFAULTS (05 R172, 06 R210, 12 Table DICT-8) -/

/-- STALL_CLEAR empties the stall counters of every tile. -/
theorem tile_stallClear (s : State) {t : Nat} (ht : t < 768 * s.variant) : s.stallClear.tile t = { s.tile t with stall := [] } := by
  have h := tget_foldl_tmod_range {} (fun x : Tile => { x with stall := [] }) s.tiles (768 * s.variant) t
  rwa [if_pos ht] at h

/-- TIER_CLEAR empties the tier counters of every region. -/
theorem region_tierClear (s : State) {r : Nat} (hr : r < 24 * s.variant) : s.tierClear.region r = { s.region r with tw := [] } := by
  have h := tget_foldl_tmod_range {} (fun x : Region => { x with tw := [] }) s.regions (24 * s.variant) r
  rwa [if_pos hr] at h

/-- RESTORE_DEFAULTS leaves the stored value of a key: every one but those of RW objects marked P. -/
def restoreKeeps (v key : Nat) : Bool :=
  match objRow v (key / 256) (key % 256) with
  | some r => !(decide (r.acc = .rw) && r.p)
  | none => true

/-- RESTORE_DEFAULTS drops stored values and records its event. -/
theorem restoreDefaults_eq (s : State) : ∃ l, s.restoreDefaults =
    { s with dict := { s.dict with objs := s.dict.objs.filter (fun e => restoreKeeps s.variant e.1) }, log := l } :=
  event_eq ({ s with dict := { s.dict with objs := s.dict.objs.filter (fun e => restoreKeeps s.variant e.1) } } : State) srcHelm 0x1B05 []

/-- After RESTORE_DEFAULTS an RW object marked P reads its default, every other one as before. -/
theorem obj_restoreDefaults (s : State) {i j : Nat} (hj : j < 256) {r : ObjRow} (hr : objRow s.variant i j = some r) :
    s.restoreDefaults.obj i j = if r.acc = .rw ∧ r.p = true then r.dflt else s.obj i j := by
  obtain ⟨l, e⟩ := restoreDefaults_eq s
  have hi : okey i j / 256 = i := by unfold okey; omega
  have hs : okey i j % 256 = j := by unfold okey; omega
  have hk : restoreKeeps s.variant (okey i j) = !(decide (r.acc = .rw) && r.p) := by simp [restoreKeeps, hi, hs, hr]
  rw [e]
  refine (tget_filter (objDflt s.variant (okey i j)) (restoreKeeps s.variant) s.dict.objs (okey i j)).trans ?_
  rw [hk, objDflt_okey hj hr, State.obj, objDflt_okey hj hr]
  by_cases hc : r.acc = .rw ∧ r.p = true
  · simp [hc]
  · rw [if_neg hc, if_pos (by simpa [Decidable.imp_iff_not_or] using hc)]

/-! ## SHUTTER_EMPTY (13 R392) -/

/-- The Helm's treatment of one region at a moment at which it opens shutters. -/
def State.openIfRequired (s : State) (pr : Nat) : State := if ¬ s.shutterAllowed pr ∧ (s.rpw pr).shutter = .empty then s.openShutter pr else s

theorem openRequired_eq (s : State) : s.openRequired = forEach s.allPhys s State.openIfRequired := rfl

/-- A shutter that opens changes the power side of its region, and the trace, alone. -/
theorem openShutter_eq (s : State) {pr : Nat} (h : (s.rpw pr).shutter ≠ .opened) : ∃ x t n, x.shutter = .opened ∧
    s.openShutter pr = ({ s with rcv := { s.rcv with traceq := t, shed := n } } : State).setRpw pr x := by
  obtain ⟨t, n, e⟩ := traceRec_eq s (srcDie (pr / 28)) trShutter (leBytes 1 pr ++ [1])
  refine ⟨{ s.rpw pr with vset := (s.setPoint s.regionVdd).1, cap := (s.setPoint s.regionVdd).2, vth := s.regionVdd, shutter := .opened,
                          floorAt := none }, t, n, rfl, ?_⟩
  simp only [State.openShutter, if_neg h, e]
  rfl

/-- A region is left as it was where its shutter is not to open; elsewhere it opens, which changes the trace besides, and nothing else. -/
theorem openIfRequired_cases (s : State) (pr : Nat) :
    (s.openIfRequired pr = s ∧ ¬(¬ s.shutterAllowed pr ∧ (s.rpw pr).shutter = .empty)) ∨
      ∃ x t n, x.shutter = .opened ∧ s.openIfRequired pr = ({ s with rcv := { s.rcv with traceq := t, shed := n } } : State).setRpw pr x := by
  unfold State.openIfRequired
  split
  · exact .inr (openShutter_eq s (by simp [*]))
  · exact .inl ⟨rfl, ‹_›⟩

theorem obj_openIfRequired (s : State) (pr i j : Nat) : (s.openIfRequired pr).obj i j = s.obj i j := by
  obtain ⟨e, -⟩ | ⟨x, t, n, -, e⟩ := openIfRequired_cases s pr <;> rw [e]
  rfl

theorem shutterAllowed_openIfRequired (s : State) (pr q : Nat) : (s.openIfRequired pr).shutterAllowed q = s.shutterAllowed q := by
  obtain ⟨e, -⟩ | ⟨x, t, n, -, e⟩ := openIfRequired_cases s pr <;> rw [e]
  rfl

theorem rpw_openIfRequired_other (s : State) {pr q : Nat} (h : q ≠ pr) : (s.openIfRequired pr).rpw q = s.rpw q := by
  obtain ⟨e, -⟩ | ⟨x, t, n, -, e⟩ := openIfRequired_cases s pr <;> rw [e]
  exact State.rpw_setRpw_other _ x h

theorem openIfRequired_opens (s : State) {pr : Nat} (ha : s.shutterAllowed pr = false) (he : (s.rpw pr).shutter = .empty) :
    ((s.openIfRequired pr).rpw pr).shutter = .opened := by
  obtain ⟨-, h⟩ | ⟨x, t, n, hx, e⟩ := openIfRequired_cases s pr
  · exact absurd ⟨by simp [ha], he⟩ h
  · rw [e, State.rpw_setRpw_same, hx]

/-- An open shutter stays open. -/
theorem openIfRequired_stays (s : State) (pr : Nat) {q : Nat} (h : (s.rpw q).shutter = .opened) :
    ((s.openIfRequired pr).rpw q).shutter = .opened := by
  by_cases hq : q = pr
  · obtain ⟨e, -⟩ | ⟨x, t, n, hx, e⟩ := openIfRequired_cases s pr
    · rwa [e]
    · rw [e, hq, State.rpw_setRpw_same, hx]
  · rwa [rpw_openIfRequired_other s hq]

/-- Every region of a list whose shutter is to open has it open at the end. -/
theorem forEach_openIfRequired_opens (xs : List Nat) {pr : Nat} : ∀ s : State, pr ∈ xs → s.shutterAllowed pr = false →
    (s.rpw pr).shutter = .empty → ((forEach xs s State.openIfRequired).rpw pr).shutter = .opened := by
  induction xs with
  | nil => intro s hm; cases hm
  | cons x xs ih =>
    intro s hm ha he
    by_cases hx : pr = x
    · subst hx
      exact forEach_keeps (fun u => (u.rpw pr).shutter = .opened) _ xs (fun u y _ h => openIfRequired_stays u y h) _ (openIfRequired_opens s ha he)
    · exact ih _ ((List.mem_cons.1 hm).resolve_left hx) ((shutterAllowed_openIfRequired s x pr).trans ha)
        ((congrArg _ (rpw_openIfRequired_other s hx)).trans he)

@[simp] theorem obj_openRequired (s : State) (i j : Nat) : s.openRequired.obj i j = s.obj i j :=
  forEach_keeps (fun u => u.obj i j = s.obj i j) State.openIfRequired s.allPhys (fun u pr _ h => (obj_openIfRequired u pr i j).trans h) s rfl

/-- In service and with SHUTTER_EMPTY 0 no shutter of a presented region may be closed (13 R391). -/
theorem shutterAllowed_eq_false {s : State} {pr : Nat} (hp : (s.presentedOf pr).isSome = true) (ho : s.oos = false) (h0 : s.obj 0x2020 0 = 0) :
    s.shutterAllowed pr = false := by
  obtain ⟨r, hr⟩ := Option.isSome_iff_exists.1 hp
  simp [State.shutterAllowed, hr, ho, h0]

/-- With SHUTTER_EMPTY 0 in service, every shutter that stood closed over a presented region opens (13 R392). -/
theorem openRequired_opens {s : State} (ho : s.oos = false) {pr : Nat} (hpr : pr < 28 * s.variant) (hp : (s.presentedOf pr).isSome = true)
    (he : (s.rpw pr).shutter = .empty) : (((s.setObj 0x2020 0 0).openRequired).rpw pr).shutter = .opened := by
  have hoos : (s.setObj 0x2020 0 0).oos = false := by
    rw [State.oos, State.obj_setObj_other s 0 (by decide)]
    exact ho
  have ha : (s.setObj 0x2020 0 0).shutterAllowed pr = false := shutterAllowed_eq_false hp hoos (State.obj_setObj_same _ _ _ _)
  rw [openRequired_eq]
  exact forEach_openIfRequired_opens _ _ (List.mem_range.2 hpr) ha he

/-- What SHUTTER_EMPTY leaves in the dictionary (13 R392). -/
theorem obj_shutterEmpty (s : State) (v : Nat) :
    (if v = 0 ∧ s.pw.railsUp then (s.setObj 0x2020 0 v).openRequired else s.setObj 0x2020 0 v).obj 0x2020 0 = v := by
  split
  · rw [obj_openRequired, State.obj_setObj_same]
  · exact State.obj_setObj_same _ _ _ _

/-! ## LINK_RETRAIN (10 R334) -/

/-- Nothing differs between two states but port `p` and the host interface. -/
def OnlyPortAndHost (p : Nat) (s u : State) : Prop :=
  { u with hi := s.hi, link := { u.link with ports := s.link.ports } } = s ∧ ∀ q, q ≠ p → u.port q = s.port q

/-- A port that begins a full training at once, with no copy in hand. -/
def TrainsAfresh (x : Port) : Prop := x.st = .down ∧ x.retryAt = none ∧ x.copies = []

theorem OnlyPortAndHost.trans {p : Nat} {s u v : State} (h : OnlyPortAndHost p s u) (k : OnlyPortAndHost p u v) : OnlyPortAndHost p s v :=
  ⟨(congrArg (fun x : State => { x with hi := s.hi, link := { x.link with ports := s.link.ports } }) k.1).trans h.1,
    fun q hq => (k.2 q hq).trans (h.2 q hq)⟩

theorem OnlyPortAndHost.refl (p : Nat) (s : State) : OnlyPortAndHost p s s := ⟨rfl, fun _ _ => rfl⟩

/-- A state with another host interface. -/
def State.withHost (s : State) (hi : HostIf) : State := { s with hi := hi }

@[simp] theorem port_withHost (s : State) (hi : HostIf) (p : Nat) : (s.withHost hi).port p = s.port p := rfl

theorem OnlyPortAndHost.withHost {p : Nat} {s u : State} (h : OnlyPortAndHost p s u) (hi : HostIf) : OnlyPortAndHost p s (u.withHost hi) := h

theorem onlyPortAndHost_modPort (s : State) (p : Nat) (f : Port → Port) : OnlyPortAndHost p s (s.modPort p f) :=
  ⟨rfl, fun _ hq => State.port_setPort_other s _ hq⟩

@[simp] theorem port_modPort_same (s : State) (p : Nat) (f : Port → Port) : (s.modPort p f).port p = f (s.port p) := State.port_setPort_same _ _ _

/-- The copies through a port end in the host interface, and the port has none then. -/
theorem dropCopies_spec (s : State) (p : Nat) : OnlyPortAndHost p s (s.dropCopies p) ∧ ((s.dropCopies p).port p).copies = [] := by
  have ends : ∃ h, forEach (s.port p).copies s (fun s c => s.endCmd c.1 0x10 p c.2.2) = { s with hi := h } :=
    forEach_keeps (fun u => ∃ h, u = { s with hi := h }) _ _ (fun u c _ ⟨h, e⟩ => by
      obtain ⟨h', e'⟩ := endCmd_eq u c.1 0x10 p c.2.2
      exact ⟨h', by rw [e', e]⟩) s ⟨s.hi, rfl⟩
  obtain ⟨h, e⟩ := ends
  unfold State.dropCopies
  rw [e]
  exact ⟨((OnlyPortAndHost.refl p s).withHost h).trans (onlyPortAndHost_modPort _ p _), by rw [port_modPort_same]⟩

/-- A port that enters a state. -/
def Port.enters (st : PortSt) (now : Nat) (x : Port) : Port := { x with st := st, since := now }

theorem portTo_of_ne {s : State} {p : Nat} {st : PortSt} (h : (s.port p).st ≠ st) :
    ∃ hi, s.portTo p st = (s.modPort p (Port.enters st s.now)).withHost hi := by
  rw [State.portTo, if_neg h]
  exact setCause_eq _ 18

/-- A port put into a state is in it, with its copies. -/
theorem portTo_spec (s : State) (p : Nat) (st : PortSt) :
    OnlyPortAndHost p s (s.portTo p st) ∧ ((s.portTo p st).port p).st = st ∧ ((s.portTo p st).port p).copies = (s.port p).copies := by
  by_cases h : (s.port p).st = st
  · rw [State.portTo, if_pos h]
    exact ⟨.refl p s, h, rfl⟩
  · obtain ⟨hi, e⟩ := portTo_of_ne h
    rw [e, port_withHost, port_modPort_same]
    exact ⟨(onlyPortAndHost_modPort s p _).withHost hi, rfl, rfl⟩

theorem trainsAfresh_fallen {x : Port} (h : x.st = .down) (hc : x.copies = []) : TrainsAfresh { x.fallen with retryAt := none } := ⟨h, rfl, hc⟩

/-- A full training begins at one port, and reaches the host interface and no other port. -/
theorem trainAfresh_spec (s : State) (p : Nat) : OnlyPortAndHost p s (s.trainAfresh p) ∧ TrainsAfresh ((s.trainAfresh p).port p) := by
  obtain ⟨hd, cd⟩ := dropCopies_spec s p
  obtain ⟨ht, st, ct⟩ := portTo_spec (s.dropCopies p) p .down
  unfold State.trainAfresh
  rw [port_modPort_same]
  exact ⟨hd.trans (ht.trans (onlyPortAndHost_modPort _ p _)), trainsAfresh_fallen st (ct.trans cd)⟩

/-- Each port of a list begins a full training, every other port and all else but the host interface is as it was. -/
def TrainsPorts (ps : List Nat) (s u : State) : Prop :=
  { u with hi := s.hi, link := { u.link with ports := s.link.ports } } = s ∧ (∀ q, q ∈ ps → TrainsAfresh (u.port q)) ∧
    ∀ q, q ∉ ps → u.port q = s.port q

theorem TrainsPorts.cons {p : Nat} {ps : List Nat} {s t u : State} (h : OnlyPortAndHost p s t) (hp : TrainsAfresh (t.port p))
    (k : TrainsPorts ps t u) : TrainsPorts (p :: ps) s u := by
  obtain ⟨hf, ho⟩ := h
  obtain ⟨kf, kt, ko⟩ := k
  refine ⟨(congrArg (fun x : State => { x with hi := s.hi, link := { x.link with ports := s.link.ports } }) kf).trans hf, fun q hq => ?_,
    fun q hq => ?_⟩
  · by_cases hm : q ∈ ps
    · exact kt q hm
    · obtain rfl : q = p := (List.mem_cons.1 hq).resolve_right hm
      rw [ko q hm]
      exact hp
  · rw [List.mem_cons, not_or] at hq
    exact (ko q hq.2).trans (ho q hq.1)

theorem forEach_trainAfresh (ps : List Nat) : ∀ s : State, TrainsPorts ps s (forEach ps s State.trainAfresh) := by
  induction ps with
  | nil => exact fun s => ⟨rfl, fun q h => (by cases h), fun _ _ => rfl⟩
  | cons p ps ih =>
    intro s
    obtain ⟨ho, ht⟩ := trainAfresh_spec s p
    rw [forEach_cons]
    exact .cons ho ht (ih _)

/-- Where the stored torus values are those in effect and meet the rules, LINK_RETRAIN trains each port that it names. -/
theorem retrainPorts_eq {s : State} (v : Nat) (hok : torusOk s.variant s.storedLen s.storedPos = true) (hl : s.storedLen = s.link.len)
    (hp : s.storedPos = s.link.pos) : s.retrainPorts v = forEach (s.ports.filter (fun p => v.testBit p)) s State.trainAfresh := by
  have he : s.torusEffect = s := by
    rw [State.torusEffect]
    simp only [hok, if_true, if_pos (And.intro hl hp)]
  have hb : ∀ p, s.torusBlocked p = false := fun p => by simp [State.torusBlocked, hok]
  simp only [State.retrainPorts, he, hb, Bool.not_false, Bool.and_true]

/-- Outside a RUN, with main power, LINK_RETRAIN trains the ports that it names where the stored torus values stand in effect (10 R334). -/
theorem linkRetrain_spec {s : State} (v : Nat) (hp : s.pw.railsUp = true) (hok : torusOk s.variant s.storedLen s.storedPos = true)
    (hl : s.storedLen = s.link.len) (hpos : s.storedPos = s.link.pos) : let u := s.linkRetrain v
    { u with hi := s.hi, link := { u.link with ports := s.link.ports } } = s ∧ ∀ p, p < 2 * s.variant →
      (v.testBit p = true → TrainsAfresh (u.port p)) ∧ (v.testBit p = false → u.port p = s.port p) := by
  have e : s.linkRetrain v = forEach (s.ports.filter (fun p => v.testBit p)) s State.trainAfresh := by
    rw [State.linkRetrain, if_pos hp, retrainPorts_eq v hok hl hpos]
  rw [e]
  obtain ⟨hf, ht, ho⟩ := forEach_trainAfresh (s.ports.filter (fun p => v.testBit p)) s
  refine ⟨hf, fun p hlt => ⟨fun hb => ht p ?_, fun hb => ho p ?_⟩⟩
  · exact List.mem_filter.2 ⟨List.mem_range.2 hlt, hb⟩
  · exact fun hm => absurd ((List.mem_filter.1 hm).2.symm.trans hb) (by decide)

end Sys2Proof.Machine
end

section
/-! SUPPORT. The commands named after the objects that act, and a DICT_SET of a dump. -/

namespace Sys2Proof.Machine

/-! ## The rows of TORUS_LEN and TORUS_POS (10 R313) -/

/-- The row of TORUS_LEN or TORUS_POS of an axis. -/
def torusRow (pos : Bool) (a : Nat) : ObjRow := orow (if pos then 0x5002 else 0x5001) (a + 1) .u8 .rw true (if pos then 0 else 1)

theorem axis_cases {a : Nat} (ha : a < 4) : a = 0 ∨ a = 1 ∨ a = 2 ∨ a = 3 := by omega

theorem torusRow_mem (v : Nat) (pos : Bool) {a : Nat} (ha : a < 4) : torusRow pos a ∈ objTable v := by
  have : torusRow pos a ∈ objs5 v := by
    obtain rfl | rfl | rfl | rfl := axis_cases ha <;> cases pos <;> simp [torusRow, objs5]
  simp [objTable, this]

/-- Lengths run from 1 to 32, positions from 0 to 31. -/
theorem objRange_torusRow (v : Nat) (pos : Bool) {a : Nat} (ha : a < 4) :
    objRange v (okey (torusRow pos a).idx (torusRow pos a).sub) = some (if pos then 0 else 1, if pos then 31 else 32) := by
  obtain rfl | rfl | rfl | rfl := axis_cases ha <;> cases pos <;> rfl

theorem reservedBits_torusRow (pos : Bool) {a : Nat} (ha : a < 4) : reservedBits (okey (torusRow pos a).idx (torusRow pos a).sub) = 0 := by
  obtain rfl | rfl | rfl | rfl := axis_cases ha <;> cases pos <;> rfl

/-! ## What each command does -/

section

variable {s : State} (hv : VariantOk s) (hr : s.helmRuns = true) (hrec : s.helm.recovery = false)

include hv hr hrec

theorem stallClear_completes : Completes (.stallClear 1) s (s.stallClear.withStatus 0) := by
  have hw : NumberWrite s (orow 0x9011 0 .bool .wo false 0) 1 :=
    numberWrite_of_mem hv (by simp [objTable, objs9]) (.inl (by decide)) (.inr rfl) rfl (by decide) (by decide)
  exact hw.acts hr (objServed_of_not_recovery hrec _ _) rfl (hw.status_zero rfl (hw.inRange_bool rfl (by decide)) rfl rfl) rfl rfl

theorem tierClear_completes : Completes (.tierClear 1) s (s.tierClear.withStatus 0) := by
  have hw : NumberWrite s (orow 0x3011 0 .bool .wo false 0) 1 :=
    numberWrite_of_mem hv (by simp [objTable, objs3]) (.inl (by decide)) (.inr rfl) rfl (by decide) (by decide)
  exact hw.acts hr (objServed_of_not_recovery hrec _ _) rfl (hw.status_zero rfl (hw.inRange_bool rfl (by decide)) rfl rfl) rfl rfl

/-- RESTORE_DEFAULTS acts with no chart loaded, and is BUSY with one (12 Table DICT-8). -/
theorem restoreDefaults_outcomes : (s.chart = none → Completes (.restoreDefaults 1) s (s.restoreDefaults.withStatus 0)) ∧
    (s.chart.isSome = true → Refuses (.restoreDefaults 1) s 0xB) := by
  have hw : NumberWrite s (orow 0x1010 0 .bool .wo false 0) 1 :=
    numberWrite_of_mem hv (by simp [objTable, objs1]) (.inl (by decide)) (.inr rfl) rfl (by decide) (by decide)
  have hs := objServed_of_not_recovery hrec 0x1010 0
  have hout := hw.inRange_bool rfl (by decide)
  exact ⟨fun hc => hw.acts hr hs rfl (hw.status_zero rfl hout (by simp [State.writeBusy, orow, hc]) rfl) rfl rfl,
    fun hc => hw.refuses hr hs rfl (hw.status_busy rfl hout (by simp [State.writeBusy, orow, hc])) (by decide)⟩

/-- PT_ALARM_CLEAR clears the alarms it names; a reserved bit makes it MALFORMED (13 R396, 00 R14). -/
theorem ptAlarmClear_outcomes {v : Nat} (h : v < 256) :
    (v ≤ 15 → Completes (.ptAlarmClear v) s ((s.setObj 0x2040 1 (clearBitsN (s.obj 0x2040 1) v)).withStatus 0)) ∧
      (15 < v → Refuses (.ptAlarmClear v) s 4) := by
  have hw : NumberWrite s (orow 0x2041 0 .u8 .wo false 0) v :=
    numberWrite_of_mem hv (by simp [objTable, objs2]) (.inl (by decide)) (.inr rfl) rfl (by decide) h
  have hs := objServed_of_not_recovery hrec 0x2041 0
  have reserved : ∀ v < 256, v &&& 0xF0 = 0 ↔ v ≤ 15 := by decide +kernel
  refine ⟨fun hle => ?_, fun hlt => ?_⟩
  · have hst := hw.status_zero ((reserved v h).2 hle) (hw.inRange_unsigned (.inl rfl) (fun _ _ e => by cases e)) rfl rfl
    exact hw.acts hr hs rfl hst rfl (congrArg (fun n => s.setObj 0x2040 1 (clearBitsN (s.obj 0x2040 1) n)) hw.value)
  · exact hw.refuses hr hs rfl (hw.status_malformed (fun e => Nat.not_le.2 hlt ((reserved v h).1 e))) (by decide)

/-- SHUTTER_EMPTY is stored; 0 opens the shutters that the Helm may not keep closed (13 R391, R392). -/
theorem shutterEmpty_outcomes {v : Nat} (h : v ≤ 1) :
    Completes (.shutterEmpty v .ok) s
        ((if v = 0 ∧ s.pw.railsUp then (s.setObj 0x2020 0 v).openRequired else s.setObj 0x2020 0 v).withStatus 0) ∧
      Refuses (.shutterEmpty v .value) s 0xE := by
  have hw : NumberWrite s (orow 0x2020 0 .bool .rw true 1) v :=
    numberWrite_of_mem hv (by simp [objTable, objs2]) (.inl (by decide)) (.inl rfl) rfl (by decide) (Nat.lt_of_le_of_lt h (by decide))
  have hs := objServed_of_not_recovery hrec 0x2020 0
  have hst := hw.status_zero (Nat.and_zero v) (hw.inRange_bool rfl h) rfl rfl
  exact ⟨hw.acts hr hs rfl hst rfl
      (congrArg (fun n => if n = 0 ∧ s.pw.railsUp then (s.setObj 0x2020 0 n).openRequired else s.setObj 0x2020 0 n) hw.value),
    hw.storeFails hr hs (st := .value) rfl hst rfl (by decide)⟩

/-- SEXTANT_ENABLE is stored on an S8 (05 R171). -/
theorem sextantEnable_stored {v : Nat} (h : v ≤ 1) (h8 : s.variant = 8) :
    Completes (.sextantEnable v .ok) s ((s.setObj 0x9020 1 v).withStatus 0) := by
  have hw : NumberWrite s (orow 0x9020 1 .bool .rw true 1) v :=
    numberWrite_of_mem hv (by simp [objTable, objs9]) (.inr h8) (.inl rfl) rfl (by decide) (Nat.lt_of_le_of_lt h (by decide))
  have hst := hw.status_zero (Nat.and_zero v) (hw.inRange_bool rfl h) rfl rfl
  exact hw.acts hr (objServed_of_not_recovery hrec _ _) rfl hst rfl (hw.stores (by decide))

/-- SEXTANT_ENABLE changes nothing where the variant has no Sextants (00 R4). -/
theorem sextantEnable_ignored (v : Nat) (st : Store) (h8 : s.variant ≠ 8) : Refuses (.sextantEnable v st) s 0 := by
  have hrow := objRow_of_mem hv (mem_objTable_of_objs9 s.variant (r := orow 0x9020 1 .bool .rw true 1) (by decide))
  exact refuses_of_ordWrite rfl hr (objServed_of_not_recovery hrec _ _)
    (ordWrite_sextantAbsent {} (leBytes 1 v) _ st hrow (by simp [State.sextantAbsent, h8]) rfl)

/-- TORUS_LEN and TORUS_POS are stored with no chart loaded, and are BUSY with one (10 R313; log 29). -/
theorem torusLen_outcomes {pos : Bool} {a v : Nat} (ha : a < 4) (hle : v ≤ (if pos then 31 else 32)) (hge : pos = false → 1 ≤ v) :
    (s.chart = none → Completes (.torusLen pos a v .ok) s ((s.setObj (if pos then 0x5002 else 0x5001) (a + 1) v).withStatus 0)) ∧
      (s.chart.isSome = true → Refuses (.torusLen pos a v .ok) s 0xB) := by
  have hidx : (torusRow pos a).idx = 0x5001 ∨ (torusRow pos a).idx = 0x5002 := by cases pos <;> simp [torusRow, orow]
  have hlt : v < 256 := by
    cases pos <;> simp at hle <;> omega
  have hw : NumberWrite s (torusRow pos a) v := numberWrite_of_mem hv (torusRow_mem _ pos ha) (.inl (by omega)) (.inl rfl) rfl (by omega) hlt
  have hs := objServed_of_not_recovery hrec (torusRow pos a).idx (torusRow pos a).sub
  have hres : v &&& reservedBits (okey (torusRow pos a).idx (torusRow pos a).sub) = 0 := by rw [reservedBits_torusRow pos ha, Nat.and_zero]
  have hout : s.outOfRange (torusRow pos a) (leBytes 1 v) = false := by
    refine hw.inRange_unsigned (.inl rfl) (fun lo hi e => ?_)
    rw [objRange_torusRow _ pos ha] at e
    cases e
    cases pos
    · exact ⟨hge rfl, hle⟩
    · exact ⟨Nat.zero_le v, hle⟩
  have hbusy : s.writeBusy (torusRow pos a).idx v = s.chart.isSome := by obtain e | e := hidx <;> simp [State.writeBusy, e]
  have hna : (torusRow pos a).idx ∉ actingObjects := by obtain e | e := hidx <;> simp [actingObjects, e]
  have hd : isDump (torusRow pos a).idx = false := by obtain e | e := hidx <;> simp [isDump, e]
  exact ⟨fun hc => hw.acts hr hs rfl (hw.status_zero hres hout (by simp [hbusy, hc]) hd) rfl (hw.stores hna),
    fun hc => hw.refuses hr hs rfl (hw.status_busy hres hout (hbusy.trans hc)) (by decide)⟩

/-- LINK_RETRAIN is BUSY during a RUN, and acts otherwise (10 R334). -/
theorem linkRetrain_outcomes {v : Nat} (h : v < 65536) :
    (s.running = true → Refuses (.linkRetrain v) s 0xB) ∧
      (s.running = false → Completes (.linkRetrain v) s ((s.linkRetrain v).withStatus 0)) := by
  have hw : NumberWrite s (orow 0x5032 0 .u16 .wo false 0) v :=
    numberWrite_of_mem hv (by simp [objTable, objs5]) (.inl (by decide)) (.inr rfl) rfl (by decide) h
  have hs := objServed_of_not_recovery hrec 0x5032 0
  have hout := hw.inRange_unsigned (.inr (.inl rfl)) (fun _ _ e => by cases e)
  exact ⟨fun hrun => hw.refuses hr hs rfl (hw.status_busy (Nat.and_zero v) hout hrun) (by decide),
    fun hrun => hw.acts hr hs rfl (hw.status_zero (Nat.and_zero v) hout hrun rfl) rfl (congrArg s.linkRetrain hw.value)⟩

end

/-- A DICT_SET of a dump that has to wait stays in hand (05 R173). -/
theorem SetsNumber.waits {s : State} {seq : Nat} {k : Cmd} {r : ObjRow} (h : SetsNumber s seq k r)
    (hc : s.ordStatus r.idx r.sub (leBytes (otSize r.ty) k.dictValue) false = 0) (hd : s.dumpWaits seq r.idx k.dictValue = true)
    (pe : Bool) (st : Store) : Completes (.dictSet seq pe st) s s := by
  have hdump : isDump r.idx = true := by
    rw [State.dumpWaits, Bool.and_eq_true] at hd
    exact hd.1
  have hx : s.sextantAbsent r.idx = false := by
    obtain e | e | e | e := isDump_cases hdump <;> simp [State.sextantAbsent, e]
  rw [Completes, h.exec_eq, if_neg (not_not.2 (h.not_reserved hx hc)), if_pos ⟨hd, hc⟩]

end Sys2Proof.Machine
end

section
/-! The statements of 00: O46, O48, O2, O7, O45 and O60. -/

namespace Sys2Proof.Proofs

open Sys2Proof.Machine

/-- Settles O46: the refusals and the stores of each path, and the two statuses that the object table alone decides. -/
theorem dictionaryWrites : Obligations.DictionaryWrites := by
  intro s
  refine ⟨fun i j b st hs => ?_, fun i j b hr hs => dictWrite_served b hr hs, ?_, ?_, fun i j b w h => ?_, fun i j b w r h hx ha => ?_⟩
  · rw [Completes, exec_dictWrite, writeObject_of_not_served b false st hs]
  · intro seq k r hst hf hl hr hfx hn hb hv
    exact SetsNumber.outcomes ⟨hst, hf, hl, hr, hfx, hn, hb, hv⟩
  · intro vdm src body hs hn ho hb hl
    exact mctpSet_served src hs hn ho hb hl
  · simp [State.ordStatus, h, stNoObject]
  · simp [State.ordStatus, h, hx, ha, stReadOnly]

/-- Settles O48: the commands named after the acting objects, one by one, and a DICT_SET of a dump that waits. -/
theorem actingObjects : Obligations.ActingObjects := by
  intro s hv hr hrec
  refine ⟨?dumps, ?stall, ?tier, ?restore, ?restoreBusy, ?ptClear, ?ptReserved, ?shutter, ?sextant, ?noSextant, ?torus, ?retrain, ?waits⟩
  case dumps =>
    intro addr c idx hcase
    have hd : isDump idx = true ∧ exec c s = .next (s.writeNumber idx 0 8 addr.toNat .ok) := by
      obtain ⟨rfl, rfl⟩ | ⟨rfl, rfl⟩ | ⟨rfl, rfl⟩ | ⟨rfl, rfl⟩ := hcase <;> exact ⟨rfl, rfl⟩
    obtain ⟨h, hc⟩ := hd
    refine ⟨dump_busy hv hr hrec h hc, dump_addressRefused hv hr hrec h hc, dump_stored hv hr hrec h hc, dump_held hv hr hrec h hc,
      fun hp hd hh => ⟨_, dump_written hv hr hrec h hc hp hd hh, ?_, rfl, devRead_devWrite s _ _,
        fun b hb => devByte_devWrite_outside _ s _ hb⟩⟩
    obtain ⟨m, j, e⟩ := devWrite_eq (s.dumpData idx) s addr.toNat
    rw [e]
    rfl
  case stall => exact ⟨_, stallClear_completes hv hr hrec, rfl, fun t ht => tile_stallClear s ht⟩
  case tier => exact ⟨_, tierClear_completes hv hr hrec, rfl, fun r hlt => region_tierClear s hlt⟩
  case restore =>
    intro hc
    refine ⟨_, (restoreDefaults_outcomes hv hr hrec).1 hc, ?_, fun i j r hj hrow => obj_restoreDefaults s hj hrow⟩
    obtain ⟨l, e⟩ := restoreDefaults_eq s
    rw [e]
    rfl
  case restoreBusy => exact (restoreDefaults_outcomes hv hr hrec).2
  case ptClear =>
    intro v hle
    refine ⟨_, (ptAlarmClear_outcomes hv hr hrec (by omega)).1 hle, setObj_withStatus_frame s _ _ _ _, fun i _ => ?_,
      fun i j hne => State.obj_setObj_other s _ hne⟩
    rw [obj_withStatus, State.obj_setObj_same, testBit_clearBitsN]
  case ptReserved => exact fun v hlt hv' => (ptAlarmClear_outcomes hv hr hrec hv').2 hlt
  case shutter =>
    intro v hle
    obtain ⟨hc, hf⟩ := shutterEmpty_outcomes hv hr hrec hle
    refine ⟨⟨_, hc, obj_shutterEmpty s v, rfl, ?_, ?_⟩, hf⟩
    · rintro rfl
      rw [if_neg (fun e => absurd e.1 Nat.one_ne_zero)]
      exact setObj_withStatus_frame s 0x2020 0 1 0
    · rintro rfl hp ho pr hpr hpres he
      rw [if_pos ⟨rfl, hp⟩, rpw_withStatus]
      exact openRequired_opens ho hpr hpres he
  case sextant => exact fun v hle h8 => ⟨_, sextantEnable_stored hv hr hrec hle h8, objectIs_setObj s _ _ v, setObj_withStatus_frame s _ _ _ _⟩
  case noSextant => exact fun v st h8 => sextantEnable_ignored hv hr hrec v st h8
  case torus =>
    intro pos a v ha hle hge
    obtain ⟨hc, hb⟩ := torusLen_outcomes hv hr hrec ha hle hge
    exact ⟨fun h => ⟨_, hc h, objectIs_setObj s _ _ v, setObj_withStatus_frame s _ _ _ _⟩, hb⟩
  case retrain =>
    intro v hlt
    obtain ⟨hb, hc⟩ := linkRetrain_outcomes hv hr hrec hlt
    refine ⟨hb, fun hrun hp => ?_, fun hrun hp hok hl hpos => ?_⟩
    · have := hc hrun
      rwa [State.linkRetrain, if_neg (by simp [hp])] at this
    · obtain ⟨hf, hports⟩ := linkRetrain_spec v hp hok hl hpos
      have hchart := congrArg State.chart hf
      have htiles := congrArg State.tiles hf
      have hmem := congrArg State.mem hf
      have hlen := congrArg (fun u => u.link.len) hf
      exact ⟨_, hc hrun, hchart, htiles, hmem, hlen, hports⟩
  case waits =>
    intro seq k r hst hf hl hrow hfx hn hb hcode hfit hd pe st
    exact SetsNumber.waits ⟨hst, hf, hl, hrow, hfx, hn, hb, hfit⟩ hcode hd pe st

/-- Settles O2: the two cases of standby. -/
theorem idleStepPassesTime : Obligations.IdleStepPassesTime := by
  intro s hp
  refine ⟨idleStep s, by simp [step, hp], ?_⟩
  by_cases hv : s.pw.vsb = true
  · rw [idleStep, if_pos hv, if_pos hv]
    exact ⟨rfl, rfl⟩
  · rw [idleStep, if_neg hv, if_neg hv]
    exact ⟨rfl, rfl⟩

/-- Settles O7: every memory is empty, and the manufactured image satisfies a ROLLBACK_COUNTER of 0. -/
theorem invariantsHoldAtReset : Obligations.InvariantsHoldAtReset := by
  refine ⟨⟨Memory.wf_empty, Memory.wf_empty, Memory.wf_empty, Memory.wf_empty, Memory.wf_empty⟩, ?_⟩
  exact ⟨.inr (.inr rfl), Nat.zero_le 1, Nat.zero_le _, fun h => by cases h⟩

/-- Settles O45: the rows of the object table, and the reads and writes of the Sextants' objects where the variant has none. -/
theorem variantObjects : Obligations.VariantObjects := by
  intro s hv
  have variantRow := objRow_of_mem hv (r := orow 0x1000 1 .u8 .ro false s.variant) (by simp [objTable, objs1])
  have steppingRow := objRow_of_mem hv (r := orow 0x1000 2 .u8 .ro false 0xB1) (by simp [objTable, objs1])
  refine ⟨⟨_, variantRow, rfl, rfl, objRead_number variantRow (by simp [orow]) rfl rfl⟩,
    ⟨_, steppingRow, rfl, rfl, objRead_number steppingRow (by simp [orow]) rfl rfl⟩,
    fun r hr => objRow_of_mem hv (mem_objTable_of_objs9 _ hr), fun h8 r hr hi => ?_⟩
  have hx : s.sextantAbsent r.idx = true := by simp [State.sextantAbsent, hi, h8]
  have hrow := objRow_of_mem hv (mem_objTable_of_objs9 s.variant hr)
  have hf := fixed_of_sextant r hr hi
  refine ⟨sextantAbsent_reads_zero hrow hx hf, fun hrun hrec b st => ?_⟩
  exact refuses_of_ordWrite (exec_dictWrite r.idx r.sub b st s) hrun (objServed_of_not_recovery hrec _ _)
    (ordWrite_sextantAbsent {} b false st hrow hx hf)

/-- Settles O60: the fields at their reset values, every object at its default because none is stored. -/
theorem resetState : Obligations.ResetState := by
  have hoos : State.reset.oos = false := by
    have h : objRow 8 0x6000 0 = some (orow 0x6000 0 .u8 .ro true 0) :=
      objRow_of_mem (s := State.reset) (.inr (.inr rfl)) (r := orow 0x6000 0 .u8 .ro true 0) (by decide +kernel)
    have := obj_of_objs_nil (s := State.reset) rfl (by decide) h
    simp [State.oos, this, orow]
  have hmod : State.reset.modState = 0 := by
    rw [State.modState, hoos]
    rfl
  exact ⟨rfl, rfl, rfl, rfl, rfl, rfl, rfl, rfl, rfl, rfl, hmod, fun _ => rfl, rfl, fun _ _ => rfl,
    fun _ _ _ hj hr => obj_of_objs_nil (s := State.reset) rfl hj hr, rfl, fun _ => rfl, rfl, rfl⟩

end Sys2Proof.Proofs
end

section
/-! SUPPORT. Laws of memory: what a list of bytes written reads as, and what it leaves (00 R25; 11 R358). -/

namespace Sys2Proof.Machine

/-- A write of a memory leaves every byte outside its range as it was. -/
theorem Memory.read_writeN_outside (bs : List Byte) : ∀ (m : Memory) (a : Nat) {b : Nat}, b < a ∨ a + bs.length ≤ b →
    (m.writeN a bs).read b = m.read b := by
  induction bs with
  | nil => intro m a b _; rfl
  | cons x bs ih =>
    intro m a b h
    simp only [List.length_cons] at h
    rw [Memory.writeN, ih _ _ (by omega), Memory.read_write_other _ _ (by omega)]

theorem Memory.read_writeN_inside (bs : List Byte) : ∀ (m : Memory) (a : Nat) {i : Nat} (h : i < bs.length),
    (m.writeN a bs).read (a + i) = bs[i] := by
  induction bs with
  | nil => intro m a i h; exact absurd h (Nat.not_lt_zero i)
  | cons x bs ih =>
    intro m a i h
    rw [Memory.writeN]
    cases i with
    | zero =>
      rw [Memory.read_writeN_outside _ _ _ (by omega)]
      exact m.read_write_same a x
    | succ i =>
      have e : a + (i + 1) = a + 1 + i := by omega
      rw [e, ih _ _ (Nat.lt_of_succ_lt_succ h), List.getElem_cons_succ]

@[simp] theorem Memory.length_readN (m : Memory) (a n : Nat) : (m.readN a n).length = n := by simp [Memory.readN]

theorem Memory.readN_writeN (m : Memory) (a : Nat) (bs : List Byte) : (m.writeN a bs).readN a bs.length = bs := by
  refine List.ext_getElem (by simp) fun i _ hi => ?_
  simp [Memory.readN, Memory.read_writeN_inside bs m a hi]

/-- Device memory and the journal's reservation put back undo a write of device memory. -/
theorem devWrite_restore (s : State) (a : Nat) (bs : List Byte) : { s.devWrite a bs with mem := s.mem, jmem := s.jmem } = s := by
  obtain ⟨m, j, e⟩ := devWrite_eq bs s a
  rw [e]

end Sys2Proof.Machine
end

section
/-! SUPPORT. What every operation of the model holds steady: the identity of the module, the waiting commands, the canonical form of the
memories and, but for the commands that may change it, the firmware. Each lemma follows the operation's definition: the chain of its name
is the chain of the operations that the definition applies. -/

namespace Sys2Proof.Machine

/-- What of the Helm decides which firmware runs and from which the Helm falls back (14 R419-R422). -/
def Helm.firmware (h : Helm) : Memory × Memory × Option Nat × Nat × Nat × Bool × Nat × Bool :=
  (h.bankA, h.bankB, h.factory, h.active, h.running, h.pending, h.rollback, h.selfTest)

/-- From `s` to `u` the waiting commands and the identity of the module stand, so does the firmware unless `F` holds, and canonical memories
stay canonical. -/
structure Steady (F : Prop) (s u : State) : Prop where
  pending  : u.pending = s.pending
  variant  : u.variant = s.variant
  serial   : u.serial = s.serial
  firmware : F ∨ u.helm.firmware = s.helm.firmware
  memories : MemoriesWf s → MemoriesWf u

namespace Steady

variable {F : Prop} {s u v : State}

theorem refl (s : State) : Steady F s s := ⟨rfl, rfl, rfl, .inr rfl, id⟩

/-- What keeps the memories, but for writes of device memory, and the Helm, but for its measurements, is steady. -/
theorem kept {D : Prop} (h : Steady F s u) (k : Kept D u v) : Steady F s v := by
  refine ⟨k.pending.trans h.pending, k.variant.trans h.variant, k.serial.trans h.serial, h.firmware.imp_right fun e => ?_,
    fun w => k.memoriesWf (h.memories w)⟩
  obtain ⟨m, c, hk⟩ := k.helm
  rw [hk]
  exact e

theorem ite {c : Prop} {_ : Decidable c} (h : Steady F s u) (k : Steady F s v) : Steady F s (if c then u else v) := by
  split <;> assumption

theorem iteSnd {β : Type} {c : Prop} {_ : Decidable c} {x y : β × State} (h : Steady F s x.2) (k : Steady F s y.2) :
    Steady F s (if c then x else y).2 := by
  split <;> assumption

/-- An operation taken where a condition holds. -/
theorem opt {c : Prop} {_ : Decidable c} (h : Steady F s u) (f : Steady F s u → Steady F s v) : Steady F s (if c then v else u) :=
  .ite (f h) h

/-- An operation taken where a condition fails. -/
theorem optElse {c : Prop} {_ : Decidable c} (h : Steady F s u) (f : Steady F s u → Steady F s v) : Steady F s (if c then u else v) :=
  .ite h (f h)

/-- One operation or another. -/
theorem either {c : Prop} {_ : Decidable c} {w : State} (h : Steady F s u) (f : Steady F s u → Steady F s v) (g : Steady F s u → Steady F s w) :
    Steady F s (if c then v else w) := .ite (f h) (g h)

/-- A list of operations that are each steady is steady. -/
theorem forEach {α : Type} {f : State → α → State} {xs : List α} (h : Steady F s u) (hf : ∀ v x, Steady F s v → Steady F s (f v x)) :
    Steady F s (forEach xs u f) := forEach_keeps (Steady F s) f xs (fun v x _ => hf v x) u h

/-! ## Updates of the state -/

/-- An update of the state outside the memories, the Helm, the identity and the waiting commands. -/
theorem elsewhere {freeCount pw hi dict log chart run wp tiles transom regions streams upd redn link rcv} (h : Steady F s u) :
    Steady F s ⟨u.pending, freeCount, u.variant, u.serial, pw, hi, dict, u.helm, log, chart, run, wp, tiles, transom, regions, streams, upd,
      redn, link, rcv, u.mem, u.jmem, u.hostMem⟩ := ⟨h.pending, h.variant, h.serial, h.firmware, h.memories⟩

/-- An update outside the memories, the firmware, the identity and the waiting commands. -/
theorem helm {recovery staged bootAt pufOk writes meas mcount attestSt captured report freeCount pw hi dict log chart run wp tiles transom
    regions streams upd redn link rcv} (h : Steady F s u) :
    Steady F s ⟨u.pending, freeCount, u.variant, u.serial, pw, hi, dict,
      ⟨recovery, u.helm.bankA, u.helm.bankB, u.helm.factory, staged, u.helm.active, u.helm.running, u.helm.pending, u.helm.rollback,
        u.helm.selfTest, bootAt, pufOk, writes, meas, mcount, attestSt, captured, report⟩,
      log, chart, run, wp, tiles, transom, regions, streams, upd, redn, link, rcv, u.mem, u.jmem, u.hostMem⟩ :=
  ⟨h.pending, h.variant, h.serial, h.firmware, h.memories⟩

/-- An update outside the memories, the identity and the waiting commands, where the firmware may change. -/
theorem firmwareState {recovery factory staged active running pending rollback selfTest bootAt pufOk writes meas mcount attestSt captured
    report freeCount pw hi dict log chart run wp tiles transom regions streams upd redn link rcv} (hF : F) (h : Steady F s u) :
    Steady F s ⟨u.pending, freeCount, u.variant, u.serial, pw, hi, dict,
      ⟨recovery, u.helm.bankA, u.helm.bankB, factory, staged, active, running, pending, rollback, selfTest, bootAt, pufOk, writes, meas,
        mcount, attestSt, captured, report⟩,
      log, chart, run, wp, tiles, transom, regions, streams, upd, redn, link, rcv, u.mem, u.jmem, u.hostMem⟩ :=
  ⟨h.pending, h.variant, h.serial, .inl hF, h.memories⟩

theorem setTile {t x} (h : Steady F s u) : Steady F s (u.setTile t x) := h.elsewhere
theorem modTile {t f} (h : Steady F s u) : Steady F s (u.modTile t f) := h.setTile
theorem putTile {t x} (h : Steady F s u) : Steady F s (u.putTile t x) := h.setTile
theorem setRegion {r x} (h : Steady F s u) : Steady F s (u.setRegion r x) := h.elsewhere
theorem modRegion {r f} (h : Steady F s u) : Steady F s (u.modRegion r f) := h.setRegion
theorem setTstream {i x} (h : Steady F s u) : Steady F s (u.setTstream i x) := h.elsewhere
theorem setRpw {r x} (h : Steady F s u) : Steady F s (u.setRpw r x) := h.elsewhere
theorem setQueue {q x} (h : Steady F s u) : Steady F s (u.setQueue q x) := h.elsewhere
theorem setUnit {n x} (h : Steady F s u) : Steady F s (u.setUnit n x) := h.elsewhere
theorem setPort {p x} (h : Steady F s u) : Steady F s (u.setPort p x) := h.elsewhere
theorem modPort {p f} (h : Steady F s u) : Steady F s (u.modPort p f) := h.setPort
theorem setObj {i j n} (h : Steady F s u) : Steady F s (u.setObj i j n) := h.elsewhere
theorem bump {i j b n} (h : Steady F s u) : Steady F s (u.bump i j b n) := h.setObj
theorem setCmds {cs} (h : Steady F s u) : Steady F s (u.setCmds cs) := h.elsewhere
theorem modCmd {n f} (h : Steady F s u) : Steady F s (u.modCmd n f) := h.setCmds
theorem endCmd {n c d r} (h : Steady F s u) : Steady F s (u.endCmd n c d r) := h.modCmd
theorem setRedn {x} (h : Steady F s u) : Steady F s (u.setRedn x) := h.elsewhere
theorem queueFlit {p f} (h : Steady F s u) : Steady F s (u.queueFlit p f) := h.modPort
theorem hold {x a n d} (h : Steady F s u) : Steady F s (u.hold x a n d) := h.elsewhere
theorem setCrossing {t d q} (h : Steady F s u) : Steady F s (u.setCrossing t d q) := h.elsewhere
theorem setReply {r} (h : Steady F s u) : Steady F s (u.setReply r) := h.elsewhere

/-! ## Memories -/

theorem devWrite {a bs} (h : Steady F s u) : Steady F s (u.devWrite a bs) := h.kept (kept_devWrite u trivial a bs)
theorem devPut {a b} (h : Steady F s u) : Steady F s (u.devPut a b) := h.devWrite (a := a) (bs := [b])
theorem devSend {x a bs} (h : Steady F s u) : Steady F s (u.devSend x a bs) := .ite h.hold h.devWrite
theorem journal {c} (h : Steady F s u) : Steady F s (u.journal c) := h.devSend
theorem loseMemory (h : Steady F s u) : Steady F s u.loseMemory :=
  ⟨h.pending, h.variant, h.serial, h.firmware, fun w => (h.memories w).loseMemory⟩

/-- The module writes host memory. -/
theorem hostWrite {a bs} (h : Steady F s u) : Steady F s { u with hostMem := u.hostMem.writeN a bs } := by
  refine ⟨h.pending, h.variant, h.serial, h.firmware, fun w => ?_⟩
  obtain ⟨hm, hj, hh, hb⟩ := h.memories w
  exact ⟨hm, hj, Memory.wf_writeN _ _ _ hh, hb⟩

/-- A firmware bank takes canonical contents. -/
theorem setBank {b m} (hF : F) (h : Steady F s u) (hm : MemoriesWf s → m.wf = true) : Steady F s (u.setBank b m) := by
  unfold State.setBank
  split
  · refine ⟨h.pending, h.variant, h.serial, .inl hF, fun w => ?_⟩
    obtain ⟨h1, h2, h3, -, hB⟩ := h.memories w
    exact ⟨h1, h2, h3, hm w, hB⟩
  · refine ⟨h.pending, h.variant, h.serial, .inl hF, fun w => ?_⟩
    obtain ⟨h1, h2, h3, hA, -⟩ := h.memories w
    exact ⟨h1, h2, h3, hA, hm w⟩

/-- Both banks are canonical where the memories are. -/
theorem bank_wf (b : Nat) (w : MemoriesWf u) : (u.bank b).wf = true := by
  obtain ⟨-, -, -, hA, hB⟩ := w
  unfold State.bank
  split <;> assumption

theorem journalCmd {n f} (h : Steady F s u) : Steady F s (u.journalCmd n f) := by
  unfold State.journalCmd
  dsimp only
  split
  · exact h.modCmd.journal
  · exact h.modCmd

/-! ## Events, causes, alarms, doors, resets, faults (Laws/Kept) -/

theorem event {src code data} (h : Steady F s u) : Steady F s (u.event src code data) := h.kept (kept_event (D := False) _ _ _ _)
theorem traceRec {src kind data} (h : Steady F s u) : Steady F s (u.traceRec src kind data) := h.kept (kept_traceRec (D := False) _ _ _ _)
theorem traceStep {n} (h : Steady F s u) : Steady F s (u.traceStep n) := h.traceRec
theorem setCause {n} (h : Steady F s u) : Steady F s (u.setCause n) := h.kept (kept_setCause (D := False) _ _)
theorem raiseVector {n} (h : Steady F s u) : Steady F s (u.raiseVector n) := .ite h.elsewhere h.elsewhere
theorem alarm {b} (h : Steady F s u) : Steady F s (u.alarm b) := h.kept (kept_alarm (D := False) _ _)
theorem alarmEvent {b code} (h : Steady F s u) : Steady F s (u.alarmEvent b code) := .ite h.alarm h.alarm.event
theorem endRun {c d} (h : Steady F s u) : Steady F s (u.endRun c d) := h.kept (kept_endRun (D := False) _ _ _)
theorem closeDoors {ds} (h : Steady F s u) : Steady F s (u.closeDoors ds) := h.kept (kept_closeDoors (D := False) _ _)
theorem regionDoors {r} (h : Steady F s u) : Steady F s (u.regionDoors r) := h.closeDoors
theorem openDoors {ds} (h : Steady F s u) : Steady F s (u.openDoors ds) := h.kept (kept_openDoors _ trivial _)
theorem clearDataflow {r} (h : Steady F s u) : Steady F s (u.clearDataflow r) := h.kept (kept_clearDataflow (D := False) _ _)
theorem keepCounts {x r} (h : Steady F s u) : Steady F s (u.keepCounts x r) := h.kept (kept_keepCounts (D := False) _ _ _)
theorem closeShutter {r w} (h : Steady F s u) : Steady F s (u.closeShutter r w) := h.kept (kept_closeShutter (D := False) _ _ _)
theorem openShutter {r} (h : Steady F s u) : Steady F s (u.openShutter r) := h.kept (kept_openShutter (D := False) _ _)
theorem advanceTags {k i} (h : Steady F s u) : Steady F s (u.advanceTags k i) := h.elsewhere
theorem issueResets {ds} (h : Steady F s u) : Steady F s (u.issueResets ds) := h.kept (kept_issueResets (D := False) _ _)
theorem issueModule {c} (h : Steady F s u) : Steady F s (u.issueModule c) := h.kept (kept_issueModule (D := False) _ _)
theorem enterWindow {c} (h : Steady F s u) : Steady F s (u.enterWindow c) := h.elsewhere
theorem sendReplay {w} (h : Steady F s u) : Steady F s (u.sendReplay w) := h.kept (kept_sendReplay (D := False) _ _)
theorem haltForReplay (h : Steady F s u) : Steady F s u.haltForReplay := h.kept (kept_haltForReplay (D := False) _)
theorem recordFault {f c o d m} (h : Steady F s u) : Steady F s (u.recordFault f c o d m) := h.kept (kept_recordFault (D :=
  False) _ _ _ _ _ _)
theorem endOthers {c} (h : Steady F s u) : Steady F s (u.endOthers c) := h.setCmds
theorem forgetCopies (h : Steady F s u) : Steady F s u.forgetCopies := h.kept (kept_forgetCopies (D := False) _)
theorem dropChart (h : Steady F s u) : Steady F s u.dropChart := h.elsewhere
theorem outOfService {c n} (h : Steady F s u) : Steady F s (u.outOfService c n) := h.kept (kept_outOfService _ trivial _ _)
theorem extend {i d} (h : Steady F s u) : Steady F s (u.extend i d) := h.kept (kept_extend (D := False) _ _ _)
theorem measureKeys (h : Steady F s u) : Steady F s u.measureKeys := h.kept (kept_measureKeys (D := False) _)
theorem addRegionEntry {r} (h : Steady F s u) : Steady F s (u.addRegionEntry r) := h.kept (kept_addRegionEntry (D := False) _ _)
theorem stopRun {c d} (h : Steady F s u) : Steady F s (u.stopRun c d) := h.kept (kept_stopRun (D := False) _ _ _)
theorem raiseAs {f c} (h : Steady F s u) : Steady F s (u.raiseAs f c) := h.kept (kept_raiseAs _ _ _ fun _ => trivial)
theorem tileFault {t c d} (h : Steady F s u) : Steady F s (u.tileFault t c d) := h.kept (kept_tileFault _ trivial _ _ _)
theorem regionFault {r c k x d} (h : Steady F s u) : Steady F s (u.regionFault r c k x d) := h.kept (kept_regionFault _ trivial _ _ _ _ _)
theorem linkFault {p c d} (h : Steady F s u) : Steady F s (u.linkFault p c d) := h.kept (kept_linkFault _ _ _ _ fun _ => trivial)
theorem unitFault {x c d} (h : Steady F s u) : Steady F s (u.unitFault x c d) := h.kept (kept_unitFault _ _ _ _ fun _ => trivial)
theorem stackUe {a} (h : Steady F s u) : Steady F s (u.stackUe a) := h.kept (kept_stackUe _ _)
theorem endUe {q a n} (h : Steady F s u) : Steady F s (u.endUe q a n) := h.stackUe.endCmd
theorem faultAt {t c} (h : Steady F s u) : Steady F s (u.faultAt t c) := h.kept (kept_faultAt _ trivial _ _)
theorem runUnit {t k err cause sel act} (h : Steady F s u) : Steady F s (u.runUnit t k err cause sel act) :=
  h.kept (kept_runUnit _ trivial _ _ _ _ _ _)
theorem sendNak {p b} (h : Steady F s u) : Steady F s (u.sendNak p b) := h.modPort
theorem rxHeader {p f} (h : Steady F s u) : Steady F s (u.rxHeader p f) := h.kept (kept_rxHeader (D := False) _ _ _)

/-- A flit's effect is as steady as its own part. -/
theorem rxSequenced {p f type ok k} (h : Steady F s u) (hk : ∀ v, Steady F s v → Steady F s (k v)) :
    Steady F s (u.rxSequenced p f type ok k) := by
  rcases rxSequenced_cases u p f type ok k with e | e | ⟨b, e⟩ | ⟨-, -, e⟩ <;> rw [e]
  · exact h
  · exact h.bump
  · exact h.sendNak
  · exact hk _ h.rxHeader.modPort

end Steady

end Sys2Proof.Machine
end

section
/-! SUPPORT. What is steady, continued: shutters, Logbook, Helm, repair, links (10, 13, 14, 15). -/

namespace Sys2Proof.Machine.Steady

variable {F : Prop} {s u v : State}

/-! ## Shutters and Logbook -/

theorem closeAllowed (h : Steady F s u) : Steady F s u.closeAllowed := h.forEach fun _ _ k => .ite k.closeShutter k
theorem openRequired (h : Steady F s u) : Steady F s u.openRequired := h.forEach fun _ _ k => .ite k.openShutter k
theorem logAppend {r} (h : Steady F s u) : Steady F s (u.logAppend r) := h.elsewhere
theorem logClear {i c q} (h : Steady F s u) : Steady F s (u.logClear i c q) := h.elsewhere

theorem traceTake {src} (h : Steady F s u) : Steady F s (u.traceTake src) := by
  unfold State.traceTake
  split
  · exact h
  · exact h.elsewhere

theorem logTake {src} (h : Steady F s u) : Steady F s (u.logTake src) := by
  unfold State.logTake
  split
  · exact .ite h.traceTake h
  · exact .ite h.elsewhere.logAppend h

theorem logSpillOne (h : Steady F s u) : Steady F s u.logSpillOne := by
  unfold State.logSpillOne
  split
  · exact h
  · exact h.elsewhere

theorem logErased (h : Steady F s u) : Steady F s u.logErased := by
  unfold State.logErased
  split
  · exact h
  · exact h.elsewhere

/-! ## The Helm's boot -/

theorem protect {b n} (h : Steady F s u) (hF : F) : Steady F s (u.protect b n) := .ite (h.firmwareState hF) h
theorem unpend (h : Steady F s u) (hF : F) : Steady F s u.unpend := .ite (h.protect hF) h

theorem helmBoot {b ok} (h : Steady F s u) (hF : F) : Steady F s (u.helmBoot b ok) := by
  unfold State.helmBoot
  dsimp only
  split
  on_goal 1 => refine extend ?_
  all_goals exact ((h.helm.either (·.firmwareState hF |>.extend) fun k => (k.unpend hF).either (·.firmwareState hF |>.extend.event)
    (·.firmwareState hF |>.event)).optElse (·.event)).measureKeys.elsewhere

theorem helmReboot {b ok} (h : Steady F s u) (hF : F) : Steady F s (u.helmReboot b ok) := (h.helmBoot hF).bump.event

/-! ## Repair -/

theorem loadColumns {r} (h : Steady F s u) : Steady F s (u.loadColumns r) := h.forEach fun _ _ k => k.modTile

theorem takeColumns {x t n} (h : Steady F s u) : Steady F s (u.takeColumns x t n) := by
  unfold State.takeColumns
  exact h.modTile

theorem dieRepair {d} (h : Steady F s u) : Steady F s (u.dieRepair d) :=
  (((h.opt (·.elsewhere)).opt (·.measureKeys)).opt (·.elsewhere.event)).forEach
    (fun _ _ k => k.opt (·.setRpw.traceRec.opt (·.elsewhere))) |>.forEach (fun _ _ k => k.elsewhere) |>.forEach fun _ _ k => k.loadColumns

theorem bistBegin (h : Steady F s u) : Steady F s u.bistBegin := h.setObj.event.forEach fun _ _ k => .ite k.openShutter k

theorem bistEnd {found} (h : Steady F s u) : Steady F s (u.bistEnd found) :=
  ((h.elsewhere.measureKeys.setObj.forEach fun _ _ k => k.clearDataflow.keepCounts).opt (·.closeAllowed.openRequired)).event

theorem applyShift {r trip} (h : Steady F s u) : Steady F s (u.applyShift r trip) :=
  (((h.opt (·.closeShutter)).either (·.elsewhere) (·.elsewhere)).openShutter.forEach fun _ _ k => k.forEach fun _ _ k =>
    k.takeColumns).loadColumns.bump.event

theorem mapShift {r} (h : Steady F s u) : Steady F s (u.mapShift r) := h.addRegionEntry

/-! ## Ports -/

theorem portTo {p st} (h : Steady F s u) : Steady F s (u.portTo p st) := .ite h h.modPort.setCause
theorem dropCopies {p} (h : Steady F s u) : Steady F s (u.dropCopies p) := (h.forEach fun _ _ k => k.endCmd).modPort
theorem trainFail {p c} (h : Steady F s u) : Steady F s (u.trainFail p c) := h.dropCopies.portTo.modPort.setObj.bump.event
theorem trainAfresh {p} (h : Steady F s u) : Steady F s (u.trainAfresh p) := h.dropCopies.portTo.modPort

theorem torusEffect (h : Steady F s u) : Steady F s u.torusEffect :=
  .ite (.ite h (h.elsewhere.forEach fun _ _ k => .ite k.trainAfresh (.ite k.modPort k)))
    (h.forEach fun _ _ k => .ite k.trainFail k)

theorem tapReceive {p vc ts} (h : Steady F s u) : Steady F s (u.tapReceive p vc ts) := h.modPort
theorem countTap {i n} (h : Steady F s u) : Steady F s (u.countTap i n) := h.bump
theorem countRed {f} (h : Steady F s u) : Steady F s (u.countRed f) := .ite h.bump h
theorem emit {p f} (h : Steady F s u) : Steady F s (u.emit p f) := (ite h.bump h).setPort

theorem transmit {p} (h : Steady F s u) : Steady F s (u.transmit p) := by
  unfold State.transmit
  extract_lets s₁ x
  have k : Steady F s s₁ := by
    simp only [s₁]
    split
    · exact .ite h.queueFlit.modPort h
    · exact h
  refine .ite k.emit ?_
  split
  · exact k.emit.modPort
  · refine .ite k.emit ?_
    split
    · exact k.emit.modPort
    · refine .ite k.emit ?_
      split
      · exact k.emit
      · split
        · exact k.emit
        · exact k.setPort.countRed.emit

theorem portDown {p c} (h : Steady F s u) : Steady F s (u.portDown p c) := by
  unfold State.portDown
  exact h.portTo.event.dropCopies.modPort

theorem keepBer {p} (h : Steady F s u) : Steady F s (u.keepBer p) := .ite h.setObj.elsewhere h

theorem linksOff (h : Steady F s u) : Steady F s u.linksOff := (h.forEach fun _ _ k => k.keepBer.setPort).opt (·.setCause)

theorem retrainPorts {n} (h : Steady F s u) : Steady F s (u.retrainPorts n) := h.torusEffect.forEach fun _ _ k => k.trainAfresh
theorem linkRetrain {n} (h : Steady F s u) : Steady F s (u.linkRetrain n) := .ite h.retrainPorts h.elsewhere

theorem linksOn (h : Steady F s u) : Steady F s u.linksOn := by
  unfold State.linksOn
  dsimp only
  split
  · exact (h.forEach fun _ _ k => k.modPort).elsewhere.retrainPorts
  · exact h.forEach fun _ _ k => k.modPort

end Sys2Proof.Machine.Steady
end

section
/-! SUPPORT. What is steady, continued: tiles and the mesh (02, 04). -/

namespace Sys2Proof.Machine

/-- A command that completes is steady. -/
def SteadyNext (F : Prop) (s : State) (o : Host.Outcome State Fault Refusal) : Prop := ∀ u, o = .next u → Steady F s u

theorem SteadyNext.next {F : Prop} {s u : State} (h : Steady F s u) : SteadyNext F s (.next u) := by
  rintro _ ⟨⟩
  exact h

theorem SteadyNext.ite {F : Prop} {s : State} {o o' : Host.Outcome State Fault Refusal} {c : Prop} {_ : Decidable c} (h : SteadyNext F s o)
    (k : SteadyNext F s o') : SteadyNext F s (if c then o else o') := by
  split <;> assumption

namespace Steady

variable {F : Prop} {s u v : State}

/-! ## Firings -/

theorem progress {t} (h : Steady F s u) : Steady F s (u.progress t) := h.modRegion
theorem corrected {t} (h : Steady F s u) : Steady F s (u.corrected t) := h.modRegion

theorem entryDone {t m x} (h : Steady F s u) : Steady F s (u.entryDone t m x) := by
  have go : ∀ {c : Prop} [Decidable c] {y z : Tile}, Steady F s (if c then u.putTile t y else u.putTile t z) := .ite h.putTile h.putTile
  unfold State.entryDone
  dsimp only
  refine ite ?_ go
  split
  · exact go
  · refine ite go ?_
    split
    · exact go
    · exact h.putTile.bump.tileFault

theorem completeFiring {t} (h : Steady F s u) : Steady F s (u.completeFiring t) := by
  unfold State.completeFiring
  split
  · exact h
  · dsimp only
    split
    · exact .ite h (.ite (.ite h.putTile h) (.ite h.progress.entryDone h.progress.putTile))
    · exact h

theorem execPassStart {t} (h : Steady F s u) : SteadyNext F s (execPassStart t u) := by
  unfold Machine.execPassStart
  split
  · exact .ite (.next h.putTile.progress) (.next h)
  · exact .next h

theorem execNull {t} (h : Steady F s u) : SteadyNext F s (execNull t u) := by
  unfold Machine.execNull
  split
  · exact .next h
  · exact .ite (.next h.putTile) (.next h)

theorem execWin {t n} (h : Steady F s u) : SteadyNext F s (execWin t n u) := by
  unfold Machine.execWin
  split
  · exact .next h
  · exact .ite (.next h.putTile.tileFault) (.next h.runUnit)

theorem runSteer {t n m act} (h : Steady F s u) : SteadyNext F s (u.runSteer t n m act) := by
  unfold State.runSteer
  split
  · exact .next h
  · exact .next h.runUnit

theorem execSteerDataIntake {t n} (h : Steady F s u) : SteadyNext F s (execSteerDataIntake t n u) := by
  unfold Machine.execSteerDataIntake
  split
  · exact .next h
  · dsimp only
    split
    · exact .next h
    · exact .next h
    · split
      · exact .next h
      · exact .ite (.next h.putTile) (.next h)

theorem execSteerBearingIntake {t n} (h : Steady F s u) : SteadyNext F s (execSteerBearingIntake t n u) := by
  unfold Machine.execSteerBearingIntake
  split
  · exact .next h
  · dsimp only
    split
    · exact .next h
    · exact .next h
    · split
      · exact .next h
      · exact .ite (.next h.putTile) (.next h)

/-! ## Mesh -/

theorem deliver {t d k par} (h : Steady F s u) (hv : u.deliver t d k par = some v) : Steady F s v := by
  unfold State.deliver at hv
  dsimp only at hv
  split at hv
  · cases hv
  · split at hv
    · split at hv
      · cases hv
      · cases hv
        exact .ite h.modTile.tileFault h.modTile
    · split at hv
      · cases hv
      · cases hv
        exact h.setCrossing

theorem execMeshTransfer {t d par} (h : Steady F s u) : SteadyNext F s (execMeshTransfer t d par u) := by
  unfold Machine.execMeshTransfer
  dsimp only
  refine .ite ?crossing (.ite (.next h) ?up)
  case crossing =>
    split
    · exact .next h
    · split
      · exact .next (h.setCrossing.deliver ‹_›)
      · exact .next h
  case up =>
    split
    · split
      · exact .next h
      · exact .ite (.next h) (.next (.ite h.setPort.modTile.tileFault h.setPort.modTile))
    · split
      · exact .next h
      · split
        · exact .next (h.modTile.deliver ‹_›)
        · exact .next h

end Steady

end Sys2Proof.Machine
end

section
/-! SUPPORT. What is steady, continued: tiers and update units (06, 07). -/

namespace Sys2Proof.Machine.Steady

variable {F : Prop} {s u v : State}

/-! ## Region stores and tier streams (06) -/

theorem writeAgreement {b} (h : Steady F s u) : Steady F s (u.writeAgreement b) := by
  unfold State.writeAgreement
  split
  · exact h.devWrite.setObj.elsewhere
  · exact h

theorem tierCount {r k n} (h : Steady F s u) : Steady F s (u.tierCount r k n) := h.modRegion.bump

theorem tierWrite {n a bs} (h : Steady F s u) : Steady F s (u.tierWrite n a bs) := by
  unfold State.tierWrite
  refine .ite h.devWrite ?_
  split
  · exact h.hostWrite
  · exact h

theorem touch {r k l} (h : Steady F s u) : Steady F s (u.touch r k l) := h.modRegion

theorem cleanLine {r k l} (h : Steady F s u) : Steady F s (u.cleanLine r k l) := by
  unfold State.cleanLine
  exact ((h.opt (·.tierWrite)).opt (·.tierWrite)).modRegion

theorem storeChunk {r n a bs} (h : Steady F s u) (hv : u.storeChunk r n a bs = some v) : Steady F s v := by
  unfold State.storeChunk at hv
  dsimp only at hv
  split at hv
  · cases hv
    exact h.touch
  · split at hv
    · cases hv
      exact h.touch
    · cases hv

theorem askFill {r n l} (h : Steady F s u) : Steady F s (u.askFill r n l) := .ite h h.modRegion

theorem rsEvent {r ev} (h : Steady F s u) : Steady F s (u.rsEvent r ev).2 := by
  unfold State.rsEvent
  cases ev with
  | ok => exact h
  | corrected k hi =>
    dsimp only
    split
    · exact h.opt (·.bump)
    · exact h
  | fatal k hi =>
    dsimp only
    split
    · exact iteSnd h (iteSnd h.regionFault (h.modRegion.optElse (·.askFill.tierCount)).bump)
    · exact h
  | tag k =>
    dsimp only
    split
    · exact h.regionFault
    · exact h
  | lentCorrected seg => exact h.opt (·.bump)
  | lentFatal seg k hi =>
    dsimp only
    split
    · exact iteSnd h.regionFault h
    · exact h

theorem hostFault {r a} (h : Steady F s u) : Steady F s (u.hostFault r a) := h.regionFault

theorem deliverTo {i r t} (n : Nat) : ∀ {u : State}, Steady F s u → Steady F s (State.deliverTo i r t n u) := by
  induction n with
  | zero => exact id
  | succ n ih =>
    intro u h
    unfold State.deliverTo
    refine .ite h ?_
    split
    · exact ih h.modTile
    · exact h

theorem deliverAll {r} (h : Steady F s u) : Steady F s (u.deliverAll r) := by
  unfold State.deliverAll
  split
  · exact h.forEach fun _ _ k => k.forEach fun _ _ k => k.deliverTo 8
  · exact h

theorem request {r n l k hit} (h : Steady F s u) : Steady F s (u.request r n l k hit) := .ite h.tierCount h.askFill.tierCount.tierCount

theorem execLineFetch {i ev} (h : Steady F s u) : SteadyNext F s (execLineFetch i ev u) := by
  unfold Machine.execLineFetch
  split
  · exact .next h
  · have k : ∀ {r}, Steady F s (u.rsEvent r ev).2 := h.rsEvent
    dsimp only
    refine .ite (.next h) (.ite (.next k) ?_)
    refine .next (deliverAll (setTstream ?_))
    split
    · exact (k.optElse (·.request)).optElse (·.touch)
    · exact k.optElse (·.request)

theorem doorDrop (h : Steady F s u) : Steady F s u.doorDrop := h.bump

theorem execLineFill {r n ev e x} (h : Steady F s u) : SteadyNext F s (execLineFill r n ev e x u) := by
  unfold Machine.execLineFill
  split
  · exact .ite (.next h.modRegion.doorDrop) (.next h)
  · refine .ite (.next h.modRegion.doorDrop) (.ite (.next h) (.ite (.next h.hostFault) (.ite (.next h.stackUe) ?_)))
    dsimp only
    split
    · exact .next h
    · exact .next (h.touch.modRegion.rsEvent.opt (·.deliverAll))

theorem chargeWait {t w n} (h : Steady F s u) : Steady F s (u.chargeWait t w n) := .ite h h.setTile.tierCount

theorem execPortAccess {t w e ev} (h : Steady F s u) : SteadyNext F s (execPortAccess t w e ev u) := by
  unfold Machine.execPortAccess
  split
  · dsimp only
    refine .ite (.next h) (.ite (.next h.tileFault) (.ite ?_ (.ite (.next h.chargeWait) (.ite (.next h.faultAt)
      (.next (h.opt (·.corrected)).setTile.setTstream.progress)))))
    split
    · exact .next (h.setTile.setTstream.progress.rsEvent.opt (·.deliverAll))
    · exact .next h.chargeWait
  · exact .next h

theorem takeChunk {t} (h : Steady F s u) : SteadyNext F s (u.takeChunk t) := by
  unfold State.takeChunk
  dsimp only
  split
  · exact .next h
  · split
    · exact .next h
    · refine .ite (.next h) (.ite (.ite (.next h.modRegion.modTile.setTstream) (.ite ?zero ?add))
        (.ite (.next h.modRegion.modTile.setTstream) ?store))
      case zero =>
        refine .next ?_
        split
        · exact (h.storeChunk ‹_›).modTile.setTstream
        · exact h
      case add =>
        have ask : ∀ {c : Prop} [Decidable c] {r n l k hit i x}, Steady F s (if c then u else (u.request r n l k hit).setTstream i x) :=
          h.optElse (·.request.setTstream)
        split
        · refine .ite (.next ?_) (.next ask)
          split
          · exact ((h.optElse (·.tierCount)).touch.storeChunk ‹_›).modTile.setTstream.setTstream
          · exact h
        · exact .next ask
      case store =>
        refine .next ?_
        split
        · exact (h.storeChunk ‹_›).modTile.setTstream
        · exact h

theorem execPortOutChunkTake {t ev} (h : Steady F s u) : SteadyNext F s (execPortOutChunkTake t ev u) := by
  unfold Machine.execPortOutChunkTake
  exact .ite (.next h) (.ite (h.rsEvent.takeChunk) (.next h.rsEvent))

theorem execWriteBack {r n w ev e} (h : Steady F s u) : SteadyNext F s (execWriteBack r n w ev e u) := by
  unfold Machine.execWriteBack
  refine .ite (.next h) ?_
  split
  · have k : Steady F s (u.rsEvent r ev).2 := h.rsEvent
    refine .ite (.ite (.next k) (.ite (.next k.hostFault) ?_)) (.next h)
    split
    · exact .next k.cleanLine
    · exact .next k
  · exact .next h

/-! ## Update units (07) -/

theorem countBlock {n e b} (h : Steady F s u) : Steady F s (u.countBlock n e b) := by
  unfold State.countBlock
  dsimp only
  split
  · exact h.bump.bump
  · exact h.bump.bump.optElse (·.elsewhere.event)

theorem poolPush {n x l} (h : Steady F s u) : Steady F s (u.poolPush n x l) := by
  unfold State.poolPush
  exact h.devWrite.setUnit

theorem nextElem {n} (h : Steady F s u) : Steady F s (u.nextElem n) := h.setUnit
theorem weightImage {e bs} (h : Steady F s u) : Steady F s (u.weightImage e bs) := h.opt (·.devWrite)

theorem stackElem {n cu x e} (h : Steady F s u) : Steady F s (u.stackElem n cu x e) := by
  unfold State.stackElem
  exact .ite (.ite h.unitFault h.poolPush.weightImage.bump.nextElem)
    h.countBlock.devWrite.devWrite.poolPush.weightImage.bump.nextElem

theorem chargePage {n} (h : Steady F s u) : Steady F s (u.chargePage n) := .ite h h.tierCount.setUnit

theorem hostElem {n cu x e} (h : Steady F s u) : Steady F s (u.hostElem n cu x e) := by
  unfold State.hostElem
  exact .ite h.chargePage (.ite h.weightImage.bump.nextElem (.ite h.countBlock.devWrite.setUnit
    (.ite h.devWrite.weightImage.bump.nextElem h)))

theorem execStagingBucketReceive {n g b} (h : Steady F s u) : SteadyNext F s (execStagingBucketReceive n g b u) := by
  unfold Machine.execStagingBucketReceive
  split
  · dsimp only
    split
    · exact .next h
    · exact .ite (.next h.devWrite.bump.setUnit.elsewhere) (.next h)
  · exact .next h

theorem beginUnit {cu n} (h : Steady F s u) : Steady F s (u.beginUnit cu n) := h.setUnit

theorem execCommitStart {ue} (h : Steady F s u) : SteadyNext F s (execCommitStart ue u) := by
  unfold Machine.execCommitStart
  split
  · exact .next h
  · refine .ite ?_ (.next h)
    split
    · exact .next h.stackUe
    · exact .ite (.next (h.opt (·.devWrite)).elsewhere) (.next ((h.opt (·.devWrite)).elsewhere.forEach fun _ _ k => k.beginUnit))

theorem execCommitElement {n ue} (h : Steady F s u) : SteadyNext F s (execCommitElement n ue u) := by
  unfold Machine.execCommitElement
  split
  · refine .ite ?_ (.next h)
    split
    · exact .ite (.next h) (.ite (.next h.stackUe) (.next (.ite h.hostElem h.stackElem)))
    · exact .next h
  · exact .next h

theorem execPageIn {n e ue} (h : Steady F s u) : SteadyNext F s (execPageIn n e ue u) := by
  unfold Machine.execPageIn
  split
  · refine .ite (.next h) (.ite ?_ ?_)
    · split
      · refine .ite (.next h.hostFault) ?_
        split
        · exact .next h.stackUe
        · exact .next h.hostWrite.setUnit
      · exact .next h
    · split
      · exact .ite (.ite (.next h.hostFault) (.next h.devWrite.setUnit)) (.next h)
      · exact .next h
  · exact .next h

theorem loadRecord {c k i x} (h : Steady F s u) : Steady F s (u.loadRecord c k i x) := h.setUnit

theorem restoreUnits {c w only} (h : Steady F s u) : Steady F s (u.restoreUnits c w only) := by
  unfold State.restoreUnits
  split
  · exact h
  · exact h.forEach fun _ _ k => k.opt (·.loadRecord)

theorem pageElem {n cu x e} (h : Steady F s u) : Steady F s (u.pageElem n cu x e) := by
  unfold State.pageElem
  exact h.devWrite.setUnit

theorem backElem {n cu x e} (h : Steady F s u) : Steady F s (u.backElem n cu x e) := by
  unfold State.backElem
  exact h.hostWrite.setUnit

theorem wholeElem {n cu x e} (h : Steady F s u) : Steady F s (u.wholeElem n cu x e) :=
  .ite (h.pageElem.hostElem.opt (·.backElem.hostElem)) h.stackElem

theorem finishFault {n cu x e b} (h : Steady F s u) : Steady F s (u.finishFault n cu x e b) := .ite h.hostFault h.stackUe

theorem wholeCommit {n cu x err} (k : Nat) : ∀ {u : State}, Steady F s u → Steady F s (State.wholeCommit n cu x err k u).2 := by
  induction k with
  | zero => exact id
  | succ k ih =>
    intro u h
    unfold State.wholeCommit
    dsimp only
    split
    · exact h
    · split
      · exact h.finishFault
      · split
        · exact h.wholeElem
        · exact ih h.wholeElem

theorem finishUnit {c k err x} (h : Steady F s u) : Steady F s (u.finishUnit c k err x).2 := by
  have w := h.beginUnit (cu := c) (n := 2 * x.1.stack + x.1.unit) |>.wholeCommit (n := 2 * x.1.stack + x.1.unit) (cu := c) (x := x.1)
    (err := err) (c.commitSeq x.1).length
  unfold State.finishUnit
  dsimp only
  split
  · exact w.devWrite.setUnit
  · exact w

theorem finishUnits {c k err} (xs : List (UnitRec × Nat)) :
    ∀ {u : State}, Steady F s u → Steady F s (State.finishUnits c k err xs u).2 := by
  induction xs with
  | nil => exact id
  | cons x xs ih =>
    intro u h
    unfold State.finishUnits
    dsimp only
    split
    · exact ih h.finishUnit
    · exact h.finishUnit

theorem finishCommit {c err} (h : Steady F s u) : Steady F s (u.finishCommit c err).2 := by
  unfold State.finishCommit
  split
  · exact h
  · exact iteSnd (iteSnd (iteSnd (h.restoreUnits.finishUnits _) h).devWrite.devWrite.elsewhere (iteSnd (h.restoreUnits.finishUnits _) h)) h

theorem finishFails {n} (h : Steady F s u) : Steady F s (u.finishFails n) := by
  unfold State.finishFails
  split
  · exact .ite h h.endCmd
  · exact h

theorem execUpdateUnitReady {n} (h : Steady F s u) : SteadyNext F s (execUpdateUnitReady n u) := by
  unfold Machine.execUpdateUnitReady
  split
  · exact .ite (.next h) (.ite (.next h) (.ite (.next h) (.next h.devWrite.setUnit)))
  · exact .next h

end Sys2Proof.Machine.Steady
end

section
/-! SUPPORT. What is steady, continued: power, resets and the host interface (11, 13, 15). -/

namespace Sys2Proof.Machine.Steady

variable {F : Prop} {s u v : State}

/-! ## Power states (13) -/

theorem powerTags (h : Steady F s u) : Steady F s u.powerTags := h.advanceTags.elsewhere
theorem closeAll (h : Steady F s u) : Steady F s u.closeAll := (h.forEach fun _ _ k => k.traceRec).elsewhere

theorem dropPower (h : Steady F s u) : Steady F s u.dropPower := by
  unfold State.dropPower
  exact (((h.loseMemory.opt (·.setObj)).forEach fun _ _ k => k.setRpw).forEach fun _ _ k =>
    k.clearDataflow.modRegion).dropChart.elsewhere.closeAll.elsewhere.linksOff.elsewhere

theorem toStage {n} (h : Steady F s u) : Steady F s (u.toStage n) := h.elsewhere
theorem startPower (h : Steady F s u) : Steady F s u.startPower := h.elsewhere

theorem trip {c} (h : Steady F s u) : Steady F s (u.trip c) := by
  unfold State.trip
  exact h.dropPower.elsewhere.bump.event.setCause

theorem execVsbApplied {ok} (h : Steady F s u) (hF : F) : SteadyNext F s (execVsbApplied ok u) := by
  unfold Machine.execVsbApplied
  refine .ite (.next h) (.next ?_)
  cases u.pw.latch with
  | none => exact (((h.firmwareState hF).unpend hF).event.helmBoot hF).event.torusEffect.opt (·.startPower)
  | some c => exact (((h.firmwareState hF).unpend hF).event.helmBoot hF).event.event.torusEffect.opt (·.startPower)

theorem standbyGone {c} (h : Steady F s u) : Steady F s (u.standbyGone c) := by
  unfold State.standbyGone
  exact (h.opt (·.dropPower)).helm

theorem execVsbLoss (h : Steady F s u) : SteadyNext F s (execVsbLoss u) := .ite (.next h.standbyGone) (.next h)

theorem execVsbSag {b} (h : Steady F s u) : SteadyNext F s (execVsbSag b u) := .ite (.ite (.next h.trip) (.next h.standbyGone)) (.next h)

theorem powerAtOnce (h : Steady F s u) : Steady F s u.powerAtOnce := .ite h.startPower h
theorem recoveryOff (h : Steady F s u) : Steady F s u.recoveryOff := .ite h.dropPower.elsewhere h

theorem execPwrPermitAssert {n} (h : Steady F s u) : SteadyNext F s (execPwrPermitAssert n u) := by
  unfold Machine.execPwrPermitAssert
  refine .ite (.next h) ?_
  dsimp only
  split
  · exact .next (h.elsewhere.opt (·.elsewhere)).powerAtOnce
  · exact .ite (.next h.elsewhere) (.next h.elsewhere)
  · exact .next h.elsewhere
  · exact .next h.elsewhere

theorem stageDies {b} (h : Steady F s u) : Steady F s (u.stageDies b) := by
  unfold State.stageDies
  cases b with
  | none =>
    exact (h.forEach fun _ _ k => k.dieRepair).elsewhere.openDoors.forEach fun _ _ k => .ite k (k.optElse (·.traceRec)).setRpw
  | some found =>
    exact (h.event.bistBegin.bistEnd.forEach fun _ _ k => k.dieRepair).elsewhere.openDoors.forEach fun _ _ k =>
      .ite k (k.optElse (·.traceRec)).setRpw

theorem counterDump {i a} (h : Steady F s u) : Steady F s (u.counterDump i a) := .ite h.devSend h.elsewhere
theorem storedDumps (h : Steady F s u) : Steady F s u.storedDumps := h.elsewhere.forEach fun _ _ k => k.devSend

theorem clearPowerCounters (h : Steady F s u) : Steady F s u.clearPowerCounters :=
  (h.forEach fun _ _ k => k.setObj).forEach fun _ _ k => k.forEach fun _ _ k => k.setObj

/-- The journal's reservation is empty when the module becomes ready (11 R358). -/
theorem stageJournal (h : Steady F s u) : Steady F s u.stageJournal := by
  refine ⟨h.pending, h.variant, h.serial, h.firmware, fun w => ?_⟩
  obtain ⟨hm, -, hb⟩ := h.memories w
  exact ⟨hm, Memory.wf_empty, hb⟩

theorem gridCheck {d} (h : Steady F s u) : Steady F s (u.gridCheck d) := by
  unfold State.gridCheck
  exact h.opt (·.event.recordFault.outOfService)

theorem stageReady (h : Steady F s u) : Steady F s u.stageReady := by
  unfold State.stageReady
  dsimp only
  split
  · exact (h.opt (·.elsewhere.traceRec)).elsewhere.recordFault.outOfService
  · exact (h.opt (·.elsewhere.traceRec)).elsewhere.gridCheck

theorem execPowerupStageComplete {b} (h : Steady F s u) : SteadyNext F s (execPowerupStageComplete b u) := by
  unfold Machine.execPowerupStageComplete
  refine .ite ?_ (.next h)
  split
  · exact .ite (.next h.toStage) (.next h)
  · exact .next h.clearPowerCounters.toStage.elsewhere
  · exact .next h.toStage.elsewhere.linksOn
  · exact .next h.openDoors.toStage.elsewhere
  · exact .next h.stageDies.storedDumps.toStage
  · exact .next h.closeAllowed.toStage
  · exact .next h.stageJournal.stageReady
  · exact .next h

theorem execPowerupFailed {b} (h : Steady F s u) : SteadyNext F s (execPowerupFailed b u) := by
  unfold Machine.execPowerupFailed
  exact .ite (.next h.dropPower.event.elsewhere) (.next h)

theorem stopForShutdown (h : Steady F s u) : Steady F s u.stopForShutdown :=
  h.elsewhere.forEach fun _ _ k => .ite k.endCmd k.modCmd

theorem execPwrPermitDeassert {n} (h : Steady F s u) : SteadyNext F s (execPwrPermitDeassert n u) := by
  unfold Machine.execPwrPermitDeassert
  refine .ite ?_ (.next h)
  dsimp only
  refine .ite ?_ (.next h.elsewhere)
  split
  · exact .next h.elsewhere.dropPower.elsewhere
  · exact .next h.elsewhere.stopForShutdown.elsewhere
  · exact .next h.elsewhere

theorem execShutdownProgress {b} (h : Steady F s u) : SteadyNext F s (execShutdownProgress b u) := by
  unfold Machine.execShutdownProgress
  exact .ite (.ite (.next (h.opt (·.bistBegin.bistEnd)).elsewhere) (.ite (.next h.dropPower.elsewhere) (.next h))) (.next h)

theorem execShutdownTimeout (h : Steady F s u) : SteadyNext F s (execShutdownTimeout u) := by
  unfold Machine.execShutdownTimeout
  exact .ite (.next (h.closeDoors.issueResets.endRun.forEach fun _ _ k => k.forEach fun _ _ k =>
    k.endCmd).endOthers.forgetCopies.elsewhere) (.next h)

theorem execTripRestart (h : Steady F s u) : SteadyNext F s (execTripRestart u) := .ite (.next h.startPower) (.next h)

theorem execModuleTrip {c x} (h : Steady F s u) : SteadyNext F s (execModuleTrip c x u) := .ite (.next h.trip) (.next h)

theorem execPowerCycle (h : Steady F s u) : SteadyNext F s (execPowerCycle u) := by
  unfold Machine.execPowerCycle
  exact .ite (.next h.dropPower.powerTags.traceRec.elsewhere) (.next h)

theorem execCycleOffExpiry (h : Steady F s u) : SteadyNext F s (execCycleOffExpiry u) :=
  .ite (.ite (.next h.startPower) (.next h.elsewhere)) (.next h)

/-! ## Sensors and loops (13) -/

theorem alarmEdge {b code now} (h : Steady F s u) : Steady F s (u.alarmEdge b code now) := by
  unfold State.alarmEdge
  exact (h.opt (·.alarmEvent)).elsewhere

theorem execSensorSample {x} (h : Steady F s u) : SteadyNext F s (execSensorSample x u) := by
  unfold Machine.execSensorSample
  exact .ite (.next ((h.forEach fun _ _ k => k.setRpw).elsewhere.opt (·.elsewhere)).alarmEdge.alarmEdge) (.next h)

theorem sendSetPoints (h : Steady F s u) : Steady F s u.sendSetPoints := h.forEach fun _ _ k => k.setRpw

theorem execPowerLoop (h : Steady F s u) : SteadyNext F s (execPowerLoop u) := by
  unfold Machine.execPowerLoop
  exact .ite (.next h.elsewhere.sendSetPoints) (.next h)

theorem execThermalLoop (h : Steady F s u) : SteadyNext F s (execThermalLoop u) := by
  unfold Machine.execThermalLoop
  exact .ite (.next (h.forEach fun _ _ k => k.setRpw).sendSetPoints) (.next h)

theorem execCapFloorAlarm {c} (h : Steady F s u) : SteadyNext F s (execCapFloorAlarm c u) := by
  unfold Machine.execCapFloorAlarm
  refine .ite ?_ (.next h)
  cases c with
  | power =>
    cases u.pw.vpwrFloor with
    | none => exact .next h
    | some t => exact .ite (.next h.alarmEvent.elsewhere) (.next h)
  | thermal r =>
    dsimp only
    split
    · exact .ite (.next h.alarmEvent.setRpw) (.next h)
    · exact .next h

theorem regionTrips {r w} (h : Steady F s u) : Steady F s (u.regionTrips r w) := by
  unfold State.regionTrips
  dsimp only
  split
  · exact h.closeShutter.event.alarm.opt (·.regionFault)
  · exact h.closeShutter.event.alarm

theorem execRegulatorFault {r} (h : Steady F s u) : SteadyNext F s (execRegulatorFault r u) := .ite (.next h.regionTrips) (.next h)

theorem execRegionTrip {r} (h : Steady F s u) : SteadyNext F s (execRegionTrip r u) := .ite (.next h.regionTrips) (.next h)

theorem execShutterOpen {r} (h : Steady F s u) : SteadyNext F s (execShutterOpen r u) := .ite (.next h.openShutter) (.next h)

theorem execPcieLinkSettle {x w} (h : Steady F s u) : SteadyNext F s (execPcieLinkSettle x w u) := by
  unfold Machine.execPcieLinkSettle
  exact .ite (.next (h.setObj.setObj.elsewhere.opt (·.event))) (.next h)

/-! ## Resets (15) -/

theorem dropFrames {cu x} (h : Steady F s u) : Steady F s (u.dropFrames cu x) := h.setUnit

theorem clearTier {r} (h : Steady F s u) : Steady F s (u.clearTier r) := by
  unfold State.clearTier
  split
  · dsimp only
    split
    · split
      · exact (h.setRegion.forEach fun _ _ k => k.dropFrames).forEach fun _ _ k => k.setTstream
      · exact h.setRegion.forEach fun _ _ k => k.setTstream
    · split
      · exact h.setRegion.forEach fun _ _ k => k.dropFrames
      · exact h.setRegion
  · exact h

theorem clearLink {p} (h : Steady F s u) : Steady F s (u.clearLink p) := h.modPort.elsewhere
theorem clearUnit {n} (h : Steady F s u) : Steady F s (u.clearUnit n) := h.setUnit

theorem clearDomain {k i} (h : Steady F s u) : Steady F s (u.clearDomain k i) := by
  unfold State.clearDomain
  cases k with
  | dataflow =>
    dsimp only
    split
    · exact h.clearDataflow.elsewhere
    · exact h
  | tier => exact h.clearTier
  | link => exact h.clearLink
  | update => exact h.clearUnit
  | stack => exact h.elsewhere
  | die => exact h.dieRepair
  | module => exact h.elsewhere

theorem clearAll {k i} (h : Steady F s u) : Steady F s (u.clearAll k i) := h.forEach fun _ _ k => k.clearDomain

theorem issueCycle {c n} (h : Steady F s u) : Steady F s (u.issueCycle c n) := by
  unfold State.issueCycle
  exact .ite h h.traceRec.bump.event.enterWindow.elsewhere

theorem resetUnderRun {w} (h : Steady F s u) : Steady F s (u.resetUnderRun w) := by
  unfold State.resetUnderRun
  exact (h.elsewhere.optElse (·.haltForReplay)).closeDoors.issueResets

theorem runAfter {n} (h : Steady F s u) : Steady F s (u.runAfter n) := by
  unfold State.runAfter
  split
  · exact h.modCmd
  · exact h

theorem requestEngines {n} (h : Steady F s u) : Steady F s (u.requestEngines n) := by
  unfold State.requestEngines
  dsimp only
  split
  · exact h.runAfter.resetUnderRun
  · exact h.runAfter.closeDoors.issueResets.endRun.elsewhere

theorem requestModule {n} (h : Steady F s u) : Steady F s (u.requestModule n) := by
  unfold State.requestModule
  exact h.issueModule.runAfter.endRun.setCmds.forgetCopies.elsewhere

/-! ## Host interface (11) -/

theorem queueError {q e} (h : Steady F s u) : Steady F s (u.queueError q e) := h.setQueue.setCause.event

theorem execSqBaseWrite {q c w} (h : Steady F s u) : SteadyNext F s (execSqBaseWrite q c w u) :=
  .ite (.ite (.next h.queueError) (.next h.setQueue)) (.next h)

theorem execQCtrlWrite {q w} (h : Steady F s u) : SteadyNext F s (execQCtrlWrite q w u) := by
  unfold Machine.execQCtrlWrite
  exact .ite (.ite (.ite (.next h.setQueue) (.next h.setQueue)) (.next h.setQueue.setCmds)) (.next h)

theorem execSqTailDoorbell {q w} (h : Steady F s u) : SteadyNext F s (execSqTailDoorbell q w u) :=
  .ite (.ite (.next h.queueError) (.next h.setQueue)) (.next h)

theorem execCqHeadDoorbell {q w} (h : Steady F s u) : SteadyNext F s (execCqHeadDoorbell q w u) :=
  .ite (.ite (.next h.queueError) (.next h.setQueue)) (.next h)

theorem execWinBaseWrite {w} (h : Steady F s u) : SteadyNext F s (execWinBaseWrite w u) := .ite (.next h.elsewhere) (.next h)

theorem execIntCauseClear {w} (h : Steady F s u) : SteadyNext F s (execIntCauseClear w u) := .ite (.next h.elsewhere) (.next h)

theorem execWinStatusClear {w} (h : Steady F s u) : SteadyNext F s (execWinStatusClear w u) := .ite (.next h.elsewhere) (.next h)

theorem msixWrite {i bs} (h : Steady F s u) : Steady F s (u.msixWrite i bs) := by
  unfold State.msixWrite
  exact h.elsewhere.opt (·.elsewhere.raiseVector)

theorem afterWrite {o} (h : Steady F s u) (ho : SteadyNext F s o) : Steady F s (afterWrite o u) := by
  cases o with
  | next v => exact ho v rfl
  | fault r => exact h
  | refused r => exact h

theorem queueBlockWrite {q o w n} (h : Steady F s u) : Steady F s (u.queueBlockWrite q o w n) :=
  .ite (h.afterWrite h.execSqBaseWrite) (.ite (h.afterWrite h.execSqBaseWrite) (.ite (h.afterWrite h.execQCtrlWrite) h))

theorem doorbellWrite {q o w n} (h : Steady F s u) : Steady F s (u.doorbellWrite q o w n) := by
  have k : Steady F s (Machine.afterWrite (Machine.execSqTailDoorbell q (w.setWidth 32) u) u) := h.afterWrite h.execSqTailDoorbell
  exact .ite (k.opt fun k => k.afterWrite k.execCqHeadDoorbell) (h.afterWrite h.execCqHeadDoorbell)

theorem execBar0RegisterWrite {o w n} (h : Steady F s u) : SteadyNext F s (execBar0RegisterWrite o w n u) := by
  unfold Machine.execBar0RegisterWrite
  exact .ite (.ite (.next (h.afterWrite h.execIntCauseClear)) (.ite (.next h.elsewhere) (.ite (.next (h.afterWrite h.execWinBaseWrite))
    (.ite (.next (h.afterWrite h.execWinStatusClear)) (.ite (.next h.queueBlockWrite) (.ite (.next h.doorbellWrite)
    (.ite (.next h.msixWrite) (.next h)))))))) (.next h)

theorem winRefuse {c a} (h : Steady F s u) : Steady F s (u.winRefuse c a) := by
  unfold State.winRefuse
  exact (h.opt (·.elsewhere)).bump.setCause.event

theorem execBar2Read {o n ue} (h : Steady F s u) : SteadyNext F s (execBar2Read o n ue u) := by
  unfold Machine.execBar2Read
  exact .ite (.ite (.next h.winRefuse.setReply) (.ite (.next h.winRefuse.setReply) (.ite (.next h.hold)
    (.ite (.next h.elsewhere.stackUe.setReply) (.next h.setReply))))) (.next h)

theorem execBar2Write {o bs} (h : Steady F s u) : SteadyNext F s (execBar2Write o bs u) := by
  unfold Machine.execBar2Write
  exact .ite (.ite (.next h.winRefuse) (.ite (.next h.winRefuse) (.ite (.next h.winRefuse) (.next h.devSend)))) (.next h)

theorem execFunctionLevelReset (h : Steady F s u) : SteadyNext F s (execFunctionLevelReset u) := .ite (.next h.elsewhere) (.next h)

theorem accept {q} (h : Steady F s u) : Steady F s (u.accept q) := by
  unfold State.accept
  dsimp only
  split
  · exact h.setQueue.elsewhere.bump.journal.endCmd
  · exact h.setQueue.elsewhere.bump.journal.opt (·.journalCmd)

theorem execCommandAccept {q e ue} (h : Steady F s u) : SteadyNext F s (execCommandAccept q e ue u) := by
  unfold Machine.execCommandAccept
  exact .ite (.ite (.next h.stackUe) (.ite (.ite (.next h) (.next h.elsewhere.setCause.event))
    (.ite (.next h.queueError) (.next h.accept)))) (.next h)

theorem execCommandStart {q} (h : Steady F s u) : SteadyNext F s (execCommandStart q u) := by
  unfold Machine.execCommandStart
  split
  · exact .next h
  · exact .ite (.ite (.next h.journalCmd.endCmd) (.next h.journalCmd)) (.next h)

theorem post {c e} (h : Steady F s u) : Steady F s (u.post c e) := by
  unfold State.post
  exact .ite (.ite h.queueError (h.hostWrite.setQueue.opt (·.raiseVector))) h

theorem execCommandComplete {q e} (h : Steady F s u) : SteadyNext F s (execCommandComplete q e u) := by
  unfold Machine.execCommandComplete
  split
  · exact .next h
  · exact .ite (.next (h.journal.setCmds.opt (·.elsewhere)).post) (.next h)

theorem releaseTiles {c} (h : Steady F s u) : Steady F s (u.releaseTiles c) := (h.forEach fun _ _ k => k.putTile.progress).elsewhere
theorem idleTiles {c} (h : Steady F s u) : Steady F s (u.idleTiles c) := h.forEach fun _ _ k => k.modTile

end Sys2Proof.Machine.Steady
end

section
/-! SUPPORT. What is steady, continued: link ports, flits and taps (10). -/

namespace Sys2Proof.Machine.Steady

variable {F : Prop} {s u v : State}

/-! ## Training -/

theorem execRefclkLost (h : Steady F s u) : SteadyNext F s (execRefclkLost u) := by
  unfold Machine.execRefclkLost
  exact .ite (.next (h.elsewhere.event.forEach fun _ _ k => .ite k k.portDown.linkFault)) (.next h)

theorem execRefclkRestored (h : Steady F s u) : SteadyNext F s (execRefclkRestored u) := by
  unfold Machine.execRefclkRestored
  exact .ite (.next (h.elsewhere.event.forEach fun _ _ k => k.modPort)) (.next h)

theorem execPortTrainStart {p} (h : Steady F s u) : SteadyNext F s (execPortTrainStart p u) := by
  unfold Machine.execPortTrainStart
  exact .ite (.ite (.ite (.next h.torusEffect.portTo.modPort) (.next h.torusEffect.modPort)) (.next h.torusEffect)) (.next h)

theorem execDetect {p l r i} (h : Steady F s u) : SteadyNext F s (execDetect p l r i u) := .ite (.next h.portTo.modPort) (.next h)

theorem execEqualise {p c} (h : Steady F s u) : SteadyNext F s (execEqualise p c u) := .ite (.next h.portTo.modPort) (.next h)

theorem execAlign {p} (h : Steady F s u) : SteadyNext F s (execAlign p u) := .ite (.next h.portTo) (.next h)

theorem execFecLock {p} (h : Steady F s u) : SteadyNext F s (execFecLock p u) := .ite (.next h.portTo) (.next h)

theorem linkRelease (h : Steady F s u) : Steady F s u.linkRelease := .ite h.elsewhere h

theorem execIdentify {p a b} (h : Steady F s u) : SteadyNext F s (execIdentify p a b u) := by
  unfold Machine.execIdentify
  exact .ite (.ite (.next h.portTo.modPort.event.linkRelease) (.next h.trainFail)) (.next h)

theorem execTrainStateTimeout {p} (h : Steady F s u) : SteadyNext F s (execTrainStateTimeout p u) := by
  unfold Machine.execTrainStateTimeout
  split
  · exact .next h
  · exact .ite (.ite (.next h.elsewhere.trainFail) (.next h.trainFail)) (.next h)

theorem execGenerationExchange {p} (h : Steady F s u) : SteadyNext F s (execGenerationExchange p u) := .ite (.next h.modPort) (.next h)

theorem execGen {p f} (h : Steady F s u) : SteadyNext F s (execGen p f u) := by
  unfold Machine.execGen
  exact .ite (.ite (.next h.sendNak) (.ite (.ite (.next h.setPort) (.next h)) (.next h.setPort))) (.next h)

theorem degrade {p d a b} (h : Steady F s u) : Steady F s (u.degrade p d a b) := .ite h h.event.bump

theorem execRetrain {p c a b} (h : Steady F s u) : SteadyNext F s (execRetrain p c a b u) := by
  unfold Machine.execRetrain
  exact .ite (.ite (.next h.portTo.modPort) (.next h.portTo.modPort.degrade.degrade.modPort)) (.next h)

theorem execRetrainComplete {p} (h : Steady F s u) : SteadyNext F s (execRetrainComplete p u) :=
  .ite (.next h.portTo.modPort.linkRelease) (.next h)

theorem execLinkDown {p} (h : Steady F s u) : SteadyNext F s (execLinkDown p u) := .ite (.next h.portDown.linkFault) (.next h)

theorem execFlitTransmit {p} (h : Steady F s u) : SteadyNext F s (execFlitTransmit p u) := by
  unfold Machine.execFlitTransmit
  refine .ite (.next h) ?_
  split
  · exact .next h.transmit
  · exact .next h.transmit
  · exact .next h.emit
  · exact .next h.emit
  · exact .next h

/-! ## Flits and taps -/

theorem execIdle {p f} (h : Steady F s u) : SteadyNext F s (execIdle p f u) := by
  unfold Machine.execIdle
  exact .ite (.ite (.next h.rxHeader) (.next h.sendNak)) (.next h)

theorem execToken {p f} (h : Steady F s u) : SteadyNext F s (execToken p f u) := by
  refine .next (h.rxSequenced fun v k => ite ?_ k.modPort)
  split
  · exact k.tapReceive.countTap
  · exact k.modPort

theorem execKvtoken {p f} (h : Steady F s u) : SteadyNext F s (execKvtoken p f u) := by
  refine .next (h.rxSequenced fun v k => ?_)
  split
  · exact .ite k.tapReceive.countTap k.modPort.linkFault
  · exact k.modPort

theorem tapEmit {p vc r n f} (h : Steady F s u) : Steady F s (u.tapEmit p vc r n f) := by
  unfold State.tapEmit
  exact h.modTile.modPort.queueFlit.countTap

theorem execTapSend {p vc} (h : Steady F s u) : SteadyNext F s (execTapSend p vc u) := by
  unfold Machine.execTapSend
  split
  · exact .next h
  · refine .ite (.next h) (.ite ?_ (.next h.tapEmit))
    split
    · exact .next h.elsewhere.tapEmit
    · exact .next (h.tapEmit.opt (·.countTap))

theorem clearStarts (h : Steady F s u) : Steady F s u.clearStarts := h.forEach fun _ _ k => k.modPort

theorem checkStarts (h : Steady F s u) : Steady F s u.checkStarts := by
  unfold State.checkStarts
  split
  · exact h
  · refine .ite ?_ h
    split
    · exact h.event.clearStarts.endRun
    · refine .ite ?_ h
      split
      · exact h.elsewhere.clearStarts.releaseTiles
      · exact h

theorem execStart {p f} (h : Steady F s u) : SteadyNext F s (execStart p f u) := .next (h.rxSequenced fun _ k => k.modPort.checkStarts)

theorem execStartTimeout (h : Steady F s u) : SteadyNext F s (execStartTimeout u) := by
  unfold Machine.execStartTimeout
  split
  · refine .ite ?_ (.next h)
    split
    · exact .next h.event.clearStarts.endRun
    · exact .next h
  · exact .next h

theorem compareTap {p vc} (h : Steady F s u) : Steady F s (u.compareTap p vc) := by
  unfold State.compareTap
  dsimp only
  split
  · exact .ite (.ite h.modPort h.modPort.linkFault) h
  · exact h

theorem execTapcount {p f} (h : Steady F s u) : SteadyNext F s (execTapcount p f u) := by
  refine .next (h.rxSequenced fun v k => ?_)
  dsimp only
  split
  · exact k.modPort
  · exact k.modPort.modPort.compareTap

theorem execReplay {p f} (h : Steady F s u) : SteadyNext F s (execReplay p f u) := .next (h.rxSequenced fun _ k =>
  .ite (.ite k.modPort k.modPort.elsewhere.sendReplay) (.ite (k.modPort.linkFault.optElse (·.elsewhere.sendReplay)) k.modPort))

theorem execBulk {p f} (h : Steady F s u) : SteadyNext F s (execBulk p f u) := .next (h.rxSequenced fun _ k =>
  .ite k.modPort.devSend k.modPort.bump.event)

end Sys2Proof.Machine.Steady
end

section
/-! SUPPORT. What is steady, continued: barriers and reduction (08, 09). -/

namespace Sys2Proof.Machine.Steady

variable {F : Prop} {s u v : State}

/-! ## The machine barrier -/

theorem sendRed {p t vc bs} (h : Steady F s u) : Steady F s (u.sendRed p t vc bs) := h.queueFlit
theorem startRed {p t vc bs} (h : Steady F s u) : Steady F s (u.startRed p t vc bs) := h.modPort

theorem execGradientScan {g b ue} (h : Steady F s u) : SteadyNext F s (execGradientScan g b ue u) := by
  unfold Machine.execGradientScan
  split
  · exact .next h
  · refine .ite ?_ (.next h)
    split
    · exact .next h.stackUe
    · exact .next h.devWrite.setRedn

theorem hearBarrier {f} (h : Steady F s u) : Steady F s (u.hearBarrier f) := h.setRedn
theorem hearKept (h : Steady F s u) : Steady F s u.hearKept := h.setRedn.forEach fun _ _ k => k.hearBarrier
theorem sendBarrier {a} (h : Steady F s u) : Steady F s (u.sendBarrier a) := .ite h (h.forEach fun _ _ k => k.queueFlit)

theorem barrierOn (n : Nat) : ∀ {u : State}, Steady F s u → Steady F s (State.barrierOn n u) := by
  induction n with
  | zero => exact id
  | succ n ih =>
    intro u h
    unfold State.barrierOn
    exact .ite h (.ite (ih (h.setRedn.opt (·.sendBarrier))) h)

theorem report (h : Steady F s u) : Steady F s u.report := by
  unfold State.report
  exact .ite h ((h.setRedn.forEach fun _ _ k => k.queueFlit).forEach fun _ _ k => k.compareTap).sendBarrier

theorem execMachineBarrierComplete (h : Steady F s u) : SteadyNext F s (execMachineBarrierComplete u) := by
  have k : Steady F s (State.barrierOn 5 u.report) := h.report.barrierOn 5
  unfold Machine.execMachineBarrierComplete
  exact .ite (.next ((k.setRedn.opt (·.setObj.bump)).opt (·.writeAgreement))) (.next k)

theorem execBarrierTimeout {p} (h : Steady F s u) : SteadyNext F s (execBarrierTimeout p u) := .ite (.next h.event.linkFault) (.next h)

theorem execBarrier {p f} (h : Steady F s u) : SteadyNext F s (execBarrier p f u) := .next (h.rxSequenced fun _ k =>
  .ite (k.modPort.hearBarrier.optElse (·.queueFlit)) k.modPort)

/-! ## Agreement and chains -/

theorem sendVector {i g a} (h : Steady F s u) : Steady F s (u.sendVector i g a) := h.forEach fun _ _ k => k.startRed

theorem agreeOn {i g} (n : Nat) : ∀ {u : State}, Steady F s u → Steady F s (State.agreeOn i g n u) := by
  induction n with
  | zero => exact id
  | succ n ih =>
    intro u h
    unfold State.agreeOn
    split
    · exact h
    · split
      · exact h
      · refine .ite h ?_
        dsimp only
        split
        · exact h.setRedn
        · exact ih (h.setRedn.opt (·.sendVector))

theorem keepSum {i b x c n a ws} (h : Steady F s u) : Steady F s (u.keepSum i b x c n a ws) := h.setRedn
theorem markChain {i b x c a} (h : Steady F s u) : Steady F s (u.markChain i b x c a) := h.setRedn
theorem residueFault {p i b c x} (h : Steady F s u) : Steady F s (u.residueFault p i b c x) := h.bump.event.linkFault
theorem phase1 (h : Steady F s u) : Steady F s u.phase1 := .ite h h.setRedn.bump

theorem completeAxis {i g n a b x c ws} (h : Steady F s u) : Steady F s (u.completeAxis i g n a b x c ws) := by
  unfold State.completeAxis
  exact h.keepSum.opt (·.startRed)

theorem actRed {p f} (h : Steady F s u) (hv : u.actRed p f = some v) : Steady F s v := by
  unfold State.actRed at hv
  dsimp only at hv
  split at hv
  · cases hv
    exact h
  · split at hv
    · split at hv
      · cases hv
      · split at hv
        · cases hv
        · cases hv
          exact (h.devWrite.setRedn.opt (·.sendRed)).agreeOn 4
    · split at hv
      · cases hv
        exact h
      · split at hv
        · cases hv
          exact h.keepSum.opt (·.sendRed)
        · split at hv
          · cases hv
          · split at hv
            · cases hv
              exact h.residueFault
            · split at hv
              · cases hv
                exact h.phase1.completeAxis
              · cases hv
                exact h.phase1.sendRed.opt (·.markChain)

theorem drainPort {p vc} (n : Nat) : ∀ {u : State}, Steady F s u → Steady F s (State.drainPort p vc n u) := by
  induction n with
  | zero => exact id
  | succ n ih =>
    intro u h
    unfold State.drainPort
    dsimp only
    split
    · exact h
    · next f v e =>
      obtain ⟨f', -, hf⟩ := List.exists_of_findSome?_eq_some e
      obtain ⟨w, hw, e'⟩ := Option.map_eq_some_iff.1 hf
      cases e'
      exact ih (h.actRed hw).modPort

theorem drainRounds (n : Nat) : ∀ {u : State}, Steady F s u → Steady F s (State.drainRounds n u) := by
  induction n with
  | zero => exact id
  | succ n ih =>
    intro u h
    have k := h.forEach (xs := u.ports) (f := fun s p =>
      Machine.forEach [3, 4, 5, 6] s (fun s vc => State.drainPort p vc (tget [] (s.port p).rxbuf vc).length s))
      fun _ _ k => k.forEach fun _ _ k => k.drainPort _
    exact .ite k (ih k)

theorem drainRed (h : Steady F s u) : Steady F s u.drainRed := .ite (h.drainRounds _) h

theorem execExponentAgreement {g ue} (h : Steady F s u) : SteadyNext F s (execExponentAgreement g ue u) := by
  unfold Machine.execExponentAgreement
  split
  · exact .next h
  · refine .ite ?_ (.next h)
    split
    · exact .next h.stackUe
    · exact .next ((h.devWrite.setRedn.opt (·.sendVector)).agreeOn 4).drainRed

theorem execChainStart {g b x c ue} (h : Steady F s u) : SteadyNext F s (execChainStart g b x c ue u) := by
  unfold Machine.execChainStart
  split
  · exact .next h
  · refine .ite (.next h) ?_
    dsimp only
    split
    · exact .next h
    · split
      · exact .next h
      · split
        · exact .next h.stackUe
        · exact .ite (.next h.phase1.completeAxis.drainRed) (.ite (.next (h.phase1.startRed.setRedn.opt (·.markChain))) (.next h))

theorem badResidue {p f} (h : Steady F s u) : Steady F s (u.badResidue p f) := by
  unfold State.badResidue
  exact .ite h.residueFault h.bump.sendNak.modPort

theorem takeRed {p f ue reads} (h : Steady F s u) : Steady F s (u.takeRed p f ue reads) := by
  unfold State.takeRed
  dsimp only
  split
  · exact h.modPort.stackUe
  · exact h.modPort.drainRed

theorem execReduce {p f ue} (h : Steady F s u) : SteadyNext F s (execReduce p f ue u) := by
  unfold Machine.execReduce
  exact .ite (.next h.badResidue) (.next (h.rxSequenced fun _ k => k.takeRed))

theorem countFec {p e} (h : Steady F s u) : Steady F s (u.countFec p e) := by
  unfold State.countFec
  split
  · exact h.opt (·.bump)
  · exact h.opt (·.bump)
  · exact h

theorem execFlitReceiveError {p e f} (h : Steady F s u) : SteadyNext F s (execFlitReceiveError p e f u) := by
  have k : Steady F s (u.countFec p e) := h.countFec
  unfold Machine.execFlitReceiveError
  dsimp only
  refine .ite ?_ (.next k)
  cases e with
  | fec n => exact .next k.sendNak
  | corrected n => exact .next k
  | crc r => exact .ite (.next k) (.next k.sendNak)
  | badType => exact .next k.sendNak
  | residue => exact .next k.badResidue
  | seqLate => exact .ite (.next k.sendNak) (.next k)
  | seqDup => exact .next k

theorem execAgree {p f ue} (h : Steady F s u) : SteadyNext F s (execAgree p f ue u) := .next (h.rxSequenced fun _ k => k.takeRed)

theorem execGatherStart {g b ue} (h : Steady F s u) : SteadyNext F s (execGatherStart g b ue u) := by
  unfold Machine.execGatherStart
  split
  · exact .next h
  · refine .ite ?_ (.next h)
    split
    · exact .next h.stackUe
    · exact .next (h.setRedn.forEach fun _ _ k => k.forEach fun _ _ k => k.startRed)

theorem execWeight {p f} (h : Steady F s u) : SteadyNext F s (execWeight p f u) := by
  refine .next (h.rxSequenced fun v k => ?_)
  dsimp only
  split
  · exact k.modPort
  · exact k.modPort.devWrite.setRedn.opt (·.sendRed)

end Sys2Proof.Machine.Steady
end

section
/-! SUPPORT. What is steady, continued: waypoints, the restore and the chart (05, 07, 11, 15). -/

namespace Sys2Proof.Machine.Steady

variable {F : Prop} {s u v : State}

/-! ## Waypoints -/

theorem addSets {c b t m} (h : Steady F s u) : Steady F s (u.addSets c b t m) := by
  unfold State.addSets
  exact (h.forEach fun _ _ k => .ite k k.devWrite).modTile

theorem saveLives {c r w} (h : Steady F s u) : Steady F s (u.saveLives c r w) := by
  unfold State.saveLives
  split
  · exact h
  · refine h.forEach fun v l k => ?_
    split
    · exact k.devWrite
    · exact k

theorem saveStreams {c r w b} (h : Steady F s u) : Steady F s (u.saveStreams c r w b) := by
  unfold State.saveStreams
  split
  · exact h
  · exact h.forEach fun _ _ k => k.devWrite.setTstream

theorem cleanAll {r} (h : Steady F s u) : Steady F s (u.cleanAll r) := h.forEach fun _ _ k => k.cleanLine

theorem execRegionReady {r t e ev he ue} (h : Steady F s u) : SteadyNext F s (execRegionReady r t e ev he ue u) := by
  unfold Machine.execRegionReady
  split
  · exact .next h
  · refine .ite (.ite (.next h.faultAt) ?_) (.next h)
    split
    · exact .next h.stackUe
    · refine .ite (.next (h.opt (·.corrected)).rsEvent) ?_
      split
      · exact .next (h.opt (·.corrected)).rsEvent.hostFault
      · exact .next ((((h.opt (·.corrected)).rsEvent.forEach fun _ _ k => k.addSets).elsewhere.saveLives.saveStreams.cleanAll).forEach
          fun _ _ k => k.opt (·.devWrite)).modRegion

theorem pushHist {a n} (h : Steady F s u) : Steady F s (u.pushHist a n) := by
  unfold State.pushHist
  exact h.devWrite.devWrite

theorem ownTallies {c} (h : Steady F s u) : Steady F s (u.ownTallies c) := h.forEach fun _ _ k => (k.opt (·.pushHist)).devWrite

theorem endCommit {c b} (h : Steady F s u) : Steady F s (u.endCommit c b) := by
  unfold State.endCommit
  exact .ite (h.devWrite.opt (·.event)) h.devWrite.devWrite

theorem endStep {c} (h : Steady F s u) : Steady F s (u.endStep c) := by
  unfold State.endStep
  dsimp only
  split
  · exact h.ownTallies.endCommit
  · exact h.ownTallies

theorem dropRewritten {c} (h : Steady F s u) : Steady F s (u.dropRewritten c) := .ite h (h.forEach fun _ _ k => k.modRegion)

theorem nextInterval {w b} (h : Steady F s u) : Steady F s (u.nextInterval w b) := by
  unfold State.nextInterval
  extract_lets s₁ s₂
  have k₁ : Steady F s s₁ := h.forEach fun _ _ k => k.modRegion
  have k₂ : Steady F s s₂ := by
    unfold s₂
    split
    · exact k₁.opt (·.dropRewritten)
    · exact k₁
  exact (k₂.elsewhere.elsewhere.opt (·.elsewhere)).setRedn

theorem recordWaypoint {c} (h : Steady F s u) : Steady F s (u.recordWaypoint c) := by
  unfold State.recordWaypoint
  dsimp only
  split
  · exact (h.opt (·.endStep)).elsewhere.traceRec.nextInterval.journalCmd
  · exact (h.opt (·.endStep)).elsewhere.traceRec.nextInterval

theorem afterWaypoint {c b err} (h : Steady F s u) : Steady F s (u.afterWaypoint c b err) := by
  unfold State.afterWaypoint
  split
  · exact h
  · refine .ite h.endRun.releaseTiles.idleTiles ?_
    split
    · exact .ite (.ite (h.finishCommit.endRun.opt (·.releaseTiles.idleTiles)) h.finishCommit.elsewhere) h.releaseTiles
    · exact h.releaseTiles

theorem execWaypointComplete {err ue} (h : Steady F s u) : SteadyNext F s (execWaypointComplete err ue u) := by
  unfold Machine.execWaypointComplete
  split
  · refine .ite ?_ (.next h)
    split
    · exact .next h.stackUe
    · exact .next (h.recordWaypoint.opt (·.elsewhere.event)).afterWaypoint
  · exact .next h

/-! ## The restore -/

theorem restoreTile {c i t m w} (h : Steady F s u) : Steady F s (u.restoreTile c i t m w) := h.putTile

theorem restoreStreams {c r w} (h : Steady F s u) : Steady F s (u.restoreStreams c r w) := by
  unfold State.restoreStreams
  split
  · exact h
  · exact h.forEach fun _ _ k => k.setTstream

theorem restoreRegion {c r w} (h : Steady F s u) : Steady F s (u.restoreRegion c r w) :=
  (h.forEach fun _ _ k => k.opt (·.restoreTile)).modRegion.restoreStreams

theorem rebaseTaps (h : Steady F s u) : Steady F s u.rebaseTaps := h.elsewhere

theorem restoreRedn (h : Steady F s u) : Steady F s u.restoreRedn := by
  unfold State.restoreRedn
  dsimp only
  split
  · exact .ite h.elsewhere.setRedn h.elsewhere.setRedn
  · exact h.elsewhere.setRedn

theorem setPasses {c} (h : Steady F s u) : Steady F s (u.setPasses c) := h.forEach fun _ _ k => k.modTile

theorem applyShifts (h : Steady F s u) : Steady F s u.applyShifts.1 := by
  unfold State.applyShifts
  exact (h.forEach fun _ _ k => k.applyShift.forEach fun _ _ k => (k.opt (·.closeDoors)).clearDataflow).elsewhere

/-! ## Chart commands -/

theorem emptyFabric (h : Steady F s u) : Steady F s u.emptyFabric := by
  unfold State.emptyFabric
  exact (h.forEach fun _ _ k => (k.forEach fun _ _ k => k.setTile).modRegion).elsewhere

theorem restartValid {c} (h : Steady F s u) : Steady F s (u.restartValid c) := h.forEach fun _ _ k => k.devPut

theorem loadChart {c} (h : Steady F s u) : Steady F s (u.loadChart c) := by
  unfold State.loadChart
  exact ((h.dropChart.elsewhere.openRequired.closeAllowed.emptyFabric.restartValid.forEach fun _ _ k => k.restoreTile).forEach
    fun _ _ k => k.setObj).restoreUnits.hearKept.setObj

theorem execChartLoad {q ue} (h : Steady F s u) : SteadyNext F s (execChartLoad q ue u) := by
  unfold Machine.execChartLoad
  split
  · exact .next h
  · split
    · exact .next h.endCmd
    · refine .ite (.next h) ?_
      split
      · exact .next h.endUe
      · split
        · exact .next h.endCmd
        · refine .ite (.next h) ?_
          split
          · exact .next h.endUe
          · exact .next h.loadChart.extend.modCmd.endCmd

theorem retrainDegraded (h : Steady F s u) : Steady F s u.retrainDegraded := h.forEach fun _ _ k => k.opt (·.trainAfresh)

theorem unloadChart {c} (h : Steady F s u) : Steady F s (u.unloadChart c) := by
  unfold State.unloadChart
  exact (((h.forEach fun _ _ k => k.cleanAll).forEach fun _ _ k => k.modRegion).forEach fun _ _ k =>
    k.modTile).openDoors.dropChart.elsewhere.elsewhere.closeAllowed.torusEffect.retrainDegraded

theorem execChartUnload {q err} (h : Steady F s u) : SteadyNext F s (execChartUnload q err u) := by
  unfold Machine.execChartUnload
  split
  · exact .next h
  · split
    · exact .next h.endCmd
    · exact .ite (.next h.endCmd) (.ite (.next h) (.next (.ite h.finishCommit.unloadChart.endCmd h.finishCommit.finishFails)))

theorem setSeed {c i} (h : Steady F s u) : Steady F s (u.setSeed c i) := by
  unfold State.setSeed
  split
  · exact h.opt (·.devWrite)
  · exact h

theorem execBind {q} (h : Steady F s u) : SteadyNext F s (execBind q u) := by
  unfold Machine.execBind
  split
  · exact .next h
  · split
    · exact .next h.endCmd
    · refine .ite (.next h.endCmd) ?_
      split
      · exact .next h.endCmd
      · exact .ite (.ite (.next h.endCmd) (.ite (.next h.endCmd) (.ite (.next h) (.next h.elsewhere.setSeed.endCmd))))
          (.next h.elsewhere.endCmd)

end Sys2Proof.Machine.Steady
end

section
/-! SUPPORT. What is steady, continued: the object dictionary, where the firmware may change (12, 14). -/

namespace Sys2Proof.Machine

/-- An object whose write may change the firmware: FW_UPDATE, or FW_STAGE (14 R420, R421). -/
def FirmwareObject (i : Nat) : Prop := i = 0x8002 ∨ i = 0x8003

namespace Steady

variable {F : Prop} {s u v : State}

/-! ## What a write does -/

theorem restoreDefaults (h : Steady F s u) : Steady F s u.restoreDefaults := by
  unfold State.restoreDefaults
  exact h.elsewhere.event

theorem tierClear (h : Steady F s u) : Steady F s u.tierClear := h.elsewhere
theorem stallClear (h : Steady F s u) : Steady F s u.stallClear := h.elsewhere

theorem returnToService (h : Steady F s u) : Steady F s u.returnToService := by
  unfold State.returnToService
  exact h.opt (·.setObj.setObj.event.elsewhere.opt (·.openRequired.closeAllowed))

theorem resetRequest {n q} (h : Steady F s u) : Steady F s (u.resetRequest n q) :=
  .ite h.requestEngines (.ite h.requestModule (h.opt (·.issueCycle)))

theorem eraseBank (h : Steady F s u) (hF : F) : Steady F s u.eraseBank := by
  unfold State.eraseBank
  exact ((setBank hF h fun _ => Memory.wf_lost _).firmwareState hF).setObj

theorem stageData {bs} (h : Steady F s u) (hF : F) : Steady F s (u.stageData bs) := by
  unfold State.stageData
  exact (setBank hF (h.firmwareState hF) fun w => Memory.wf_writeN _ _ _ (bank_wf _ ((h.firmwareState hF).memories w))).setObj

theorem acceptUpdate {bs} (h : Steady F s u) (hF : F) : Steady F s (u.acceptUpdate bs) := by
  unfold State.acceptUpdate
  exact (h.protect hF).elsewhere.event

theorem activate (h : Steady F s u) (hF : F) : Steady F s u.activate := by
  unfold State.activate
  exact ((h.firmwareState hF).helmReboot hF).powerAtOnce

theorem fwFallback {ok} (h : Steady F s u) (hF : F) : Steady F s (u.fwFallback ok) := by
  unfold State.fwFallback
  exact (((h.firmwareState hF).unpend hF).helmReboot hF).event.recoveryOff.powerAtOnce

theorem attest {bs} (h : Steady F s u) : Steady F s (u.attest bs) := h.helm

theorem setOpkey {i bs} (h : Steady F s u) : Steady F s (u.setOpkey i bs) := by
  unfold State.setOpkey
  exact (h.elsewhere.opt (·.event)).optElse (·.measureKeys)

theorem applyWrite {w r bs} (h : Steady F s u) (hF : FirmwareObject r.idx → F) : Steady F s (u.applyWrite w r bs) := by
  unfold State.applyWrite
  dsimp only
  split
  · exact h.opt (·.restoreDefaults)
  · exact h.setObj.opt (·.openRequired)
  · exact h.setObj
  · exact h.counterDump
  · exact h.opt (·.tierClear)
  · exact h.linkRetrain
  · exact h.setObj.opt (·.returnToService)
  · exact h.resetRequest
  · exact h.elsewhere
  · exact h.opt (·.bistBegin)
  · exact h.devSend
  · exact h.devSend
  · exact h.setObj.opt (·.logClear)
  · exact h.acceptUpdate (hF (.inl ‹_›))
  · exact .ite (h.eraseBank (hF (.inr ‹_›))) (h.stageData (hF (.inr ‹_›)))
  · exact h.setOpkey
  · exact h.setOpkey
  · exact h.setOpkey
  · exact h.setOpkey
  · exact h.attest
  · exact h.counterDump
  · exact h.opt (·.stallClear)
  · exact h.optElse (·.setObj)

/-! ## Ordinary and signed writes -/

theorem noteLength {r n} (h : Steady F s u) : Steady F s (u.noteLength r n) := h.opt (·.elsewhere)

theorem ordWrite {w i j bs x st} (h : Steady F s u) (hF : FirmwareObject i → F) : Steady F s (u.ordWrite w i j bs x st).2 := by
  unfold State.ordWrite
  dsimp only
  split
  · exact h
  · next r hr =>
    obtain ⟨-, hi, -⟩ := objRow_spec hr
    exact iteSnd h (iteSnd h (h.applyWrite (hi ▸ hF)).noteLength)

theorem refuseSigned {r bs n} (h : Steady F s u) : Steady F s (u.refuseSigned r bs n) := by
  unfold State.refuseSigned
  dsimp only
  split
  · exact h.bump.event.event
  · exact h.bump.event

theorem commitSigned {w r bs st} (h : Steady F s u) (hF : FirmwareObject r.idx → F) : Steady F s (u.commitSigned w r bs st).2 := by
  unfold State.commitSigned
  split
  · exact h
  · refine iteSnd h.elsewhere.event ?_
    dsimp only
    split
    · exact (h.elsewhere.applyWrite hF).noteLength.event.extend.activate (hF (.inl ‹_›))
    · exact (h.elsewhere.applyWrite hF).noteLength.event.extend.opt (·.attest)

theorem signedWrite {w bs st} (h : Steady F s u) (hF : FirmwareObject (swIndex bs) → F) : Steady F s (u.signedWrite w bs st).2 := by
  unfold State.signedWrite
  split
  · exact h
  · split
    · exact h
    · next r hr =>
      obtain ⟨-, hi, -⟩ := objRow_spec hr
      exact iteSnd h (iteSnd h.refuseSigned (h.commitSigned (hi ▸ hF)))

theorem writeObject {i j bs x st} (h : Steady F s u) (hF : FirmwareObject i → F) : Steady F s (u.writeObject i j bs x st) := by
  unfold State.writeObject
  exact h.opt (·.ordWrite hF |>.elsewhere)

theorem writeNumber {i j n k st} (h : Steady F s u) (hF : FirmwareObject i → F) : Steady F s (u.writeNumber i j n k st) := h.writeObject hF

theorem writeSigned {i bs st} (h : Steady F s u) (hF : FirmwareObject i → F) : Steady F s (u.writeSigned i bs st) := by
  unfold State.writeSigned
  split
  · next hc => exact (h.signedWrite (hc.2.1 ▸ hF)).elsewhere
  · exact h

/-! ## DICT_GET and DICT_SET (11, 12) -/

theorem execDictGet {q e} (h : Steady F s u) : SteadyNext F s (execDictGet q e u) := by
  unfold Machine.execDictGet
  split
  · exact .next h
  · split
    · exact .next h.endCmd
    · exact .ite (.next h.elsewhere.endCmd) (.ite (.next h.elsewhere.endCmd) (.ite (.next h.elsewhere.endCmd)
        (.next h.elsewhere.hostWrite.endCmd)))

theorem dictSetEnd {q} {x : Nat × State} (h : Steady F s x.2) : Steady F s (dictSetEnd q x) := by
  unfold Machine.dictSetEnd
  refine .ite h.endCmd ?_
  split
  · exact h.optElse (·.endCmd)
  · exact h.endCmd

theorem execDictSet {q e st} (h : Steady F s u) (hF : F) : SteadyNext F s (execDictSet q e st u) := by
  unfold Machine.execDictSet
  split
  · exact .next h
  · refine .ite (.next h) (.ite (.ite (.next h.endCmd) ?signed) ?ordinary)
    case signed =>
      split
      · exact .next h.endCmd
      · exact .ite (.next h) (.next (h.signedWrite fun _ => hF).dictSetEnd)
    case ordinary =>
      split
      · exact .next h.endCmd
      · exact .ite
          (.ite (.next h.endCmd) (.ite (.next h.endCmd) (.ite (.next h.endCmd) (.ite (.next h)
            (.next (h.ordWrite fun _ => hF).dictSetEnd)))))
          (.ite (.next h.endCmd) (.ite (.next h.endCmd) (.next (h.ordWrite fun _ => hF).dictSetEnd)))

/-! ## MCTP (12 R373-R376) -/

theorem answer {b n o d} (h : Steady F s u) : Steady F s (u.answer b n o d) := h.elsewhere

theorem mctpSetEnd {src b} {x : Nat × State} (h : Steady F s x.2) : Steady F s (mctpSetEnd v src b x) := .ite h.elsewhere h.answer

theorem mctpRead {b} (h : Steady F s u) : Steady F s (u.mctpRead b) := by
  unfold State.mctpRead
  dsimp only
  split
  · exact h.elsewhere.answer
  · exact .ite h.elsewhere.answer h.elsewhere.answer

theorem mctpWrite {src b st} (h : Steady F s u) (hF : F) : Steady F s (u.mctpWrite src b st) := by
  unfold State.mctpWrite
  exact .ite h.answer (h.ordWrite fun _ => hF).mctpSetEnd

theorem mctpSigned {src b st} (h : Steady F s u) (hF : F) : Steady F s (u.mctpSigned src b st) :=
  .ite h.answer (h.signedWrite fun _ => hF).mctpSetEnd

theorem mctpServe {src b st} (h : Steady F s u) (hF : mOp b = 2 ∨ mOp b = 3 → F) : Steady F s (u.mctpServe src b st) := by
  unfold State.mctpServe
  split
  · exact h.mctpWrite (hF (.inl ‹_›))
  · exact h.mctpSigned (hF (.inr ‹_›))
  · exact h.mctpRead

theorem mctpArrive {vdm src b st} (h : Steady F s u) (hF : mOp b = 2 ∨ mOp b = 3 → F) : Steady F s (u.mctpArrive vdm src b st) := by
  unfold State.mctpArrive
  refine .ite ?_ h
  split
  · exact h.elsewhere.mctpServe hF
  · exact .ite h h.elsewhere

theorem execMctpGet {vdm src b} (h : Steady F s u) : SteadyNext F s (execMctpGet vdm src b u) := by
  unfold Machine.execMctpGet
  split
  · next hop => exact .next (h.mctpArrive fun e => absurd e (not_or.2 hop))
  · exact .next h

theorem mctpDrain (hF : F) (xs : List (Nat × List Byte × Store)) : ∀ {u : State}, Steady F s u → Steady F s (mctpDrain xs u) := by
  induction xs with
  | nil => exact id
  | cons x xs ih =>
    intro u h
    unfold Machine.mctpDrain
    exact .ite h.elsewhere (ih (h.elsewhere.mctpServe fun _ => hF))

theorem control {c n bs} (h : Steady F s u) : Steady F s (u.control c n bs) := h.elsewhere

theorem execSetEndpointId {vdm e} (h : Steady F s u) : SteadyNext F s (execSetEndpointId vdm e u) := by
  unfold Machine.execSetEndpointId
  exact .ite (.ite (.next h.elsewhere.control) (.next h.control)) (.next h)

/-! ## The Helm (14) -/

theorem execFwSelfTestComplete (h : Steady F s u) (hF : F) : SteadyNext F s (execFwSelfTestComplete u) := by
  unfold Machine.execFwSelfTestComplete
  exact .ite (.next (((h.protect hF).firmwareState hF).unpend hF).event) (.next h)

theorem execAttestIssued (h : Steady F s u) : SteadyNext F s (execAttestIssued u) := by
  unfold Machine.execAttestIssued
  exact .ite (.next h.helm.event) (.next h)

theorem execHelmRestart {c ok} (h : Steady F s u) (hF : F) : SteadyNext F s (execHelmRestart c ok u) := by
  unfold Machine.execHelmRestart
  exact .ite (.ite (.next (h.fwFallback hF)) (.next (h.helmReboot hF).recoveryOff.powerAtOnce)) (.next h)

theorem execFlashRingErased (h : Steady F s u) (hF : F) : SteadyNext F s (execFlashRingErased u) := by
  unfold Machine.execFlashRingErased
  split
  · exact .next h
  · refine .ite ?_ (.next h)
    dsimp only
    split
    · exact .next (mctpDrain hF _ h.logErased.endCmd.elsewhere.answer)
    · exact .next h.logErased.endCmd

end Steady

end Sys2Proof.Machine
end

section
/-! SUPPORT. What is steady, continued: RUN, COPY, ABORT and the recovery (11, 15). -/

namespace Sys2Proof.Machine.Steady

variable {F : Prop} {s u v : State}

/-! ## RUN, COPY, FENCE, ABORT (11) -/

theorem emptyStores {c} (h : Steady F s u) : Steady F s (u.emptyStores c) :=
  (h.forEach fun _ _ k => k.modRegion).forEach fun _ _ k => k.setTstream

theorem restoreClosed {c} (h : Steady F s u) : Steady F s (u.restoreClosed c) := by
  unfold State.restoreClosed
  exact (((h.forEach fun _ _ k => .ite k.restoreRegion (.ite k.restoreStreams k)).restoreUnits).optElse
    (·.restoreRedn)).rebaseTaps.elsewhere.openDoors

theorem sendStart {c n r} (h : Steady F s u) : Steady F s (u.sendStart c n r) := h.queueFlit

theorem beginRun {c k} (h : Steady F s u) : Steady F s (u.beginRun c k) := by
  unfold State.beginRun
  exact h.elsewhere.restoreClosed.emptyStores.setPasses.either (·.releaseTiles) fun k =>
    (k.elsewhere.forEach fun _ _ k => k.sendStart).checkStarts

theorem execRun {q ue} (h : Steady F s u) : SteadyNext F s (execRun q ue u) := by
  unfold Machine.execRun
  split
  · exact .next h
  · split
    · exact .next h.endCmd
    · split
      · exact .ite (.next h) (.next h.endCmd)
      · split
        · exact .next h.endCmd
        · refine .ite (.next h) ?_
          split
          · exact .next h.endUe
          · exact .next h.beginRun

theorem execCopy {q e ue} (h : Steady F s u) : SteadyNext F s (execCopy q e ue u) := by
  unfold Machine.execCopy
  split
  · exact .next h
  · refine .ite (.next h) ?_
    dsimp only
    refine .ite (.next h.endCmd) (.ite ?partner (.ite (.next h.endCmd) ?memory))
    case partner =>
      refine .ite (.next h) (.ite (.next h.endCmd) (.ite (.next h.endCmd) ?_))
      split
      · exact .next h.endUe
      · exact .next (h.forEach fun _ _ k => k.queueFlit).modPort
    case memory =>
      have write : ∀ {c : Prop} [Decidable c] {a b x y},
          Steady F s (if c then u.devWrite a x else { u with hostMem := u.hostMem.writeN b y }) := .ite h.devWrite h.hostWrite
      split
      · exact .next h.endCmd
      · split
        · exact .next write.elsewhere.endUe
        · exact .ite (.next write.elsewhere.endCmd) (.next write.endCmd)

theorem execFence {q} (h : Steady F s u) : SteadyNext F s (execFence q u) := by
  unfold Machine.execFence
  split
  · exact .next h
  · exact .ite (.next h) (.next h.endCmd)

theorem execJournalMark {q} (h : Steady F s u) : SteadyNext F s (execJournalMark q u) := by
  unfold Machine.execJournalMark
  split
  · exact .next h
  · exact .next h.endCmd

theorem abortAt {c w n} (h : Steady F s u) : Steady F s (u.abortAt c w n) := .ite h.elsewhere h.modCmd

theorem abortNow {n} (h : Steady F s u) : Steady F s (u.abortNow n) := by
  unfold State.abortNow
  exact h.closeDoors.issueResets.endRun.elsewhere

theorem endAbort {q n err} (h : Steady F s u) : Steady F s (u.endAbort q n err) := by
  unfold State.endAbort
  refine .ite ?_ h.endCmd
  split
  · exact .ite h.modCmd (.ite h.finishCommit.modCmd.endCmd h.finishCommit.modCmd.finishFails)
  · exact h.endCmd

theorem stopNamed {c n o} (h : Steady F s u) : Steady F s (u.stopNamed c n o) := by
  cases o with
  | some w => exact h.abortAt
  | none => exact h.abortNow.endCmd

theorem abort {q m err stop} (h : Steady F s u) : Steady F s (u.abort q m err stop) := by
  unfold State.abort
  split
  · exact h
  · exact .ite h (.ite h.endAbort ((h.forEach fun _ _ k => k.endCmd).forEach fun _ _ k => k.stopNamed).endAbort)

/-! ## Watchdog, resets, replay (15) -/

theorem execStepWatchdog {r b} (h : Steady F s u) : SteadyNext F s (execStepWatchdog r b u) := by
  unfold Machine.execStepWatchdog
  split
  · exact .ite (.next h.event.closeDoors.elsewhere) (.next h)
  · exact .next h

theorem execRegionQueryResult {r b} (h : Steady F s u) : SteadyNext F s (execRegionQueryResult r b u) := by
  unfold Machine.execRegionQueryResult
  split
  · exact .ite (.next h.elsewhere.regionDoors.raiseAs) (.next h)
  · exact .next h

theorem openAfter {k i} (h : Steady F s u) : Steady F s (u.openAfter k i) := by
  unfold State.openAfter
  exact .ite h.openDoors (.ite h h.elsewhere.openDoors)

theorem resetsDone (h : Steady F s u) : Steady F s u.resetsDone := by
  unfold State.resetsDone
  exact .ite h (h.opt fun k => (k.applyShifts.forEach fun _ _ k => k.mapShift).elsewhere).openDoors

theorem moduleDone (h : Steady F s u) : Steady F s u.moduleDone := by
  unfold State.moduleDone
  dsimp only
  split
  · exact h.elsewhere.recordFault.outOfService
  · exact h.elsewhere.gridCheck

theorem execResetComplete {k i} (h : Steady F s u) : SteadyNext F s (execResetComplete k i u) := by
  unfold Machine.execResetComplete
  split
  · exact .next h
  · exact .ite (.next (h.advanceTags.clearAll.traceRec.elsewhere.openAfter.either (·.moduleDone)
      (·.opt (·.gridCheck))).resetsDone) (.next h)

theorem execResetOverrun {k i} (h : Steady F s u) : SteadyNext F s (execResetOverrun k i u) := by
  unfold Machine.execResetOverrun
  split
  · exact .next h
  · refine .ite ?_ (.next h)
    dsimp only
    split
    · exact .next h.recordFault.elsewhere.issueCycle
    · exact .next h.recordFault.elsewhere.elsewhere.issueModule
    · exact .next h.recordFault.elsewhere.elsewhere.issueResets

theorem catchUp {c} (h : Steady F s u) : Steady F s (u.catchUp c) := by
  unfold State.catchUp
  exact .ite h (h.opt (·.elsewhere.writeAgreement)).recordWaypoint

theorem restoreAll {c} (h : Steady F s u) : Steady F s (u.restoreAll c) := by
  unfold State.restoreAll
  exact (h.forEach fun _ _ k => k.restoreRegion).restoreUnits.restoreRedn.rebaseTaps.setPasses

theorem resume {c r} (h : Steady F s u) : Steady F s (u.resume c r) := by
  unfold State.resume
  exact (((h.applyShifts.traceStep.catchUp.restoreAll.traceStep.forEach fun _ _ k =>
    k.journalCmd).journalCmd.traceStep.openDoors.traceStep.elsewhere.bump.event).either (·.afterWaypoint) (·.releaseTiles)).forEach
    fun _ _ k => k.mapShift

theorem execReplayResume {ue} (h : Steady F s u) : SteadyNext F s (execReplayResume ue u) := by
  unfold Machine.execReplayResume
  split
  · refine .ite ?_ (.next h)
    split
    · exact .next h.stackUe
    · exact .next h.resume
  · exact .next h

theorem execLinkWaitTimeout (h : Steady F s u) : SteadyNext F s (execLinkWaitTimeout u) := by
  unfold Machine.execLinkWaitTimeout
  exact .ite (.next h.elsewhere.stopRun) (.next h)

end Sys2Proof.Machine.Steady
end

section
/-! SUPPORT. Every command is steady, and the firmware changes by the named commands alone (00 R25, 14 R419). -/

namespace Sys2Proof.Machine

/-- The commands that may change the firmware: a start of the Helm, the end of a self-test, the writes of FW_STAGE and FW_UPDATE, what
carries a write of either, and the end of a clearing of the log, behind which such requests wait (12 R376; 14 R419 to R422). -/
def MayChangeFirmware : Instr → Prop
  | .vsbApplied _ | .dictSet .. | .mctpSet .. | .mctpSetSigned .. | .fwStageOffset _ | .fwStageData _ | .fwUpdate .. => True
  | .fwSelfTestComplete | .fwSelfTestTimeout _ | .helmRestart .. | .flashRingErased => True
  | .dictWrite i _ _ _ => FirmwareObject i
  | _ => False

theorem noFirmware {F : Prop} {i : Nat} (h : ¬ FirmwareObject i) (k : FirmwareObject i) : F := absurd k h

/-- Every command is steady, and changes the firmware only if it is one of those that may. -/
theorem exec_steady (c : Instr) (s : State) : SteadyNext (MayChangeFirmware c) s (exec c s) := by
  have h : Steady (MayChangeFirmware c) s s := .refl s
  cases c with
  | vsbApplied _ => exact h.execVsbApplied trivial
  | vsbLoss => exact h.execVsbLoss
  | vsbSag _ => exact h.execVsbSag
  | pwrPermitAssert _ => exact h.execPwrPermitAssert
  | powerupStageComplete _ => exact h.execPowerupStageComplete
  | powerupFailed _ => exact h.execPowerupFailed
  | pwrPermitDeassert _ => exact h.execPwrPermitDeassert
  | shutdownProgress _ => exact h.execShutdownProgress
  | shutdownTimeout => exact h.execShutdownTimeout
  | tripRestart => exact h.execTripRestart
  | moduleTrip _ _ => exact h.execModuleTrip
  | powerCycle => exact h.execPowerCycle
  | cycleOffExpiry => exact h.execCycleOffExpiry
  | sensorSample _ => exact h.execSensorSample
  | powerLoop => exact h.execPowerLoop
  | thermalLoop => exact h.execThermalLoop
  | capFloorAlarm _ => exact h.execCapFloorAlarm
  | regulatorFault _ => exact h.execRegulatorFault
  | regionTrip _ => exact h.execRegionTrip
  | shutterOpen _ => exact h.execShutterOpen
  | ptAlarmClear _ | shutterEmpty _ _ => exact .next (h.writeNumber (noFirmware (by simp [FirmwareObject])))
  | refclkLost => exact h.execRefclkLost
  | refclkRestored => exact h.execRefclkRestored
  | sqBaseWrite _ _ _ => exact h.execSqBaseWrite
  | qCtrlWrite _ _ => exact h.execQCtrlWrite
  | sqTailDoorbell _ _ => exact h.execSqTailDoorbell
  | cqHeadDoorbell _ _ => exact h.execCqHeadDoorbell
  | winBaseWrite _ => exact h.execWinBaseWrite
  | intCauseClear _ => exact h.execIntCauseClear
  | winStatusClear _ => exact h.execWinStatusClear
  | bar0RegisterWrite _ _ _ => exact h.execBar0RegisterWrite
  | bar2Read _ _ _ => exact h.execBar2Read
  | bar2Write _ _ => exact h.execBar2Write
  | functionLevelReset => exact h.execFunctionLevelReset
  | commandAccept _ _ _ => exact h.execCommandAccept
  | commandStart _ => exact h.execCommandStart
  | commandComplete _ _ => exact h.execCommandComplete
  | chartLoad _ _ => exact h.execChartLoad
  | chartUnload _ _ => exact h.execChartUnload
  | bind _ => exact h.execBind
  | run _ _ => exact h.execRun
  | copy _ _ _ => exact h.execCopy
  | fence _ => exact h.execFence
  | dictGet _ _ => exact h.execDictGet
  | dictSet _ _ _ => exact h.execDictSet trivial
  | journalMark _ => exact h.execJournalMark
  | abortAtWaypoint _ _ | abortImmediate _ _ => exact .next h.abort
  | mctpGet _ _ _ => exact h.execMctpGet
  | mctpSet _ _ _ _ | mctpSetSigned _ _ _ _ => exact .ite (.next (h.mctpArrive fun _ => trivial)) (.next h)
  | setEndpointId _ _ => exact h.execSetEndpointId
  | getEndpointId _ | getMctpVersionSupport _ | getMessageTypeSupport _ | getVendorDefinedMsgSupport _ =>
    exact .ite (.next h.control) (.next h)
  | dictWrite _ _ _ _ => exact .next (h.writeObject id)
  | opkey _ _ _ => exact .next (h.writeObject (noFirmware (by simp [FirmwareObject]; omega)))
  | restoreDefaults _ | stallDump _ | stallClear _ | tierDump _ | tierClear _ | sextantEnable _ _ =>
    exact .next (h.writeNumber (noFirmware (by simp [FirmwareObject])))
  | torusLen pos _ _ _ => cases pos <;> exact .next (h.writeNumber (noFirmware (by simp [FirmwareObject])))
  | linkRetrain _ => exact .next (h.writeNumber (noFirmware (by simp [FirmwareObject])))
  | returnToService _ _ | repairOverride _ _ => exact .next (h.writeSigned (noFirmware (by simp [FirmwareObject])))
  | bistStart _ => exact .next (h.writeNumber (noFirmware (by simp [FirmwareObject])))
  | bistDone _ => exact .ite (.next h.bistEnd) (.next h)
  | engineResetRequest | moduleResetRequest | powerCycleRequest | logDump _ | logFlashDump _ =>
    exact .next (h.writeNumber (noFirmware (by simp [FirmwareObject])))
  | logClear _ _ => exact .next (h.writeSigned (noFirmware (by simp [FirmwareObject])))
  | fwStageOffset _ => exact .next (h.writeNumber fun _ => trivial)
  | fwStageData _ => exact .next (h.writeObject fun _ => trivial)
  | fwUpdate _ _ => exact .next (h.writeSigned fun _ => trivial)
  | fwSelfTestComplete => exact h.execFwSelfTestComplete trivial
  | fwSelfTestTimeout _ => exact .ite (.next (h.fwFallback trivial)) (.next h)
  | attestNonce _ => exact .next (h.writeObject (noFirmware (by simp [FirmwareObject])))
  | attestIssued => exact h.execAttestIssued
  | helmRestart cause _ => exact h.execHelmRestart (c := cause) trivial
  | logRecordAppend _ => exact .ite (.next h.logTake) (.next h)
  | logSpill => exact .ite (.next h.logSpillOne) (.next h)
  | passStart _ => exact h.execPassStart
  | firingComplete _ => exact .next h.completeFiring
  | null _ => exact h.execNull
  | mac _ _ | macz _ _ | drainR _ _ | drainC _ _ | zero _ | gemvMac _ _ | gemvMacz _ _ | store _ | ldx _ _ | ld _ _ | st _
  | recv _ | send _ | senda _ | add _ | sub _ | mul _ | fma _ | max _ | min _ | amax _ | sel _ | bcast _ | cmpge _
  | exp2 _ | log2 _ | rcp _ | rsqrt _ | tanh _ | rsum _ | rmax _ | ramax _ | cnt _ | rdA _ _ _ | rdB _ _ _ | rdSA _ _ _
  | rdSB _ _ _ | rdSD _ _ _ | rdOut _ _ _ | wrIn _ _ | rdT _ _ _ => exact .next h.runUnit
  | win _ _ => exact h.execWin
  | route _ => exact .next h.runUnit
  | branch _ _ | merge _ _ | filter _ _ | loop _ _ => exact h.runSteer
  | steerDataIntake _ _ => exact h.execSteerDataIntake
  | steerBearingIntake _ _ => exact h.execSteerBearingIntake
  | meshTransfer _ _ _ => exact h.execMeshTransfer
  | portAccess _ _ _ _ => exact h.execPortAccess
  | lineFetch _ _ => exact h.execLineFetch
  | lineFill _ _ _ _ _ => exact h.execLineFill
  | portOutChunkTake _ _ => exact h.execPortOutChunkTake
  | writeBack _ _ _ _ _ => exact h.execWriteBack
  | regionReady _ _ _ _ _ _ => exact h.execRegionReady
  | waypointComplete _ _ => exact h.execWaypointComplete
  | stagingBucketReceive _ _ _ => exact h.execStagingBucketReceive
  | commitStart _ => exact h.execCommitStart
  | commitElement _ _ => exact h.execCommitElement
  | pageIn _ _ _ => exact h.execPageIn
  | updateUnitReady _ => exact h.execUpdateUnitReady
  | gradientScan _ _ _ => exact h.execGradientScan
  | machineBarrierComplete => exact h.execMachineBarrierComplete
  | barrierTimeout _ => exact h.execBarrierTimeout
  | exponentAgreement _ _ => exact h.execExponentAgreement
  | chainStart _ _ _ _ _ => exact h.execChainStart
  | gatherStart _ _ _ => exact h.execGatherStart
  | portTrainStart _ => exact h.execPortTrainStart
  | detect _ _ _ _ => exact h.execDetect
  | equalise _ _ => exact h.execEqualise
  | align _ => exact h.execAlign
  | fecLock _ => exact h.execFecLock
  | identify _ _ _ => exact h.execIdentify
  | trainStateTimeout _ => exact h.execTrainStateTimeout
  | generationExchange _ => exact h.execGenerationExchange
  | retrain _ _ _ _ => exact h.execRetrain
  | retrainComplete _ => exact h.execRetrainComplete
  | linkDown _ => exact h.execLinkDown
  | flitTransmit _ => exact h.execFlitTransmit
  | flitReceiveError _ _ _ => exact h.execFlitReceiveError
  | idle _ _ => exact h.execIdle
  | token _ _ => exact h.execToken
  | kvtoken _ _ => exact h.execKvtoken
  | reduce _ _ _ => exact h.execReduce
  | agree _ _ _ => exact h.execAgree
  | weight _ _ => exact h.execWeight
  | barrier _ _ => exact h.execBarrier
  | start _ _ => exact h.execStart
  | startTimeout => exact h.execStartTimeout
  | tapcount _ _ => exact h.execTapcount
  | replay _ _ => exact h.execReplay
  | bulk _ _ => exact h.execBulk
  | gen _ _ => exact h.execGen
  | tapSend _ _ => exact h.execTapSend
  | stepWatchdog _ _ => exact h.execStepWatchdog
  | regionQueryResult _ _ => exact h.execRegionQueryResult
  | resetComplete _ _ => exact h.execResetComplete
  | resetOverrun _ _ => exact h.execResetOverrun
  | replayResume _ => exact h.execReplayResume
  | linkWaitTimeout => exact h.execLinkWaitTimeout
  | pcieLinkSettle _ _ => exact h.execPcieLinkSettle
  | flashRingErased => exact h.execFlashRingErased trivial

/-- Device time passes without touching anything that is kept. -/
theorem idleStep_steady (s : State) : Steady False s (idleStep s) := .ite (Steady.refl s).elsewhere (.refl s)

/-- A step taken keeps the memories canonical: the queue of waiting commands is no part of them. -/
theorem step_keeps_memories (s u : State) (w : MemoriesWf s) (h : step s = .next u) : MemoriesWf u := by
  unfold step at h
  split at h
  · cases h
    exact (idleStep_steady s).memories w
  · next c rest _ => exact (exec_steady c { s with pending := rest } u h).memories w

end Sys2Proof.Machine
end

section
/-! The statements of 01: memory read after write, and what every step keeps of the memories. -/

namespace Sys2Proof.Proofs

open Sys2Proof.Machine

/-- Settles O4, by induction on the bytes written: a byte reads back at its own address, and no other address is touched. -/
theorem memoryReadAfterWrite : Obligations.MemoryReadAfterWrite :=
  ⟨fun m a bs => ⟨m.readN_writeN a bs, fun _ => Memory.read_writeN_outside bs m a, Memory.wf_writeN bs m a⟩,
    fun s a bs => ⟨devRead_devWrite s a bs, fun _ => devByte_devWrite_outside bs s a, devWrite_restore s a bs⟩⟩

/-- Settles O5: every command writes memories by their own operations, which keep them canonical, and so does the passage of time. -/
theorem stepKeepsMemoriesCanonical : Obligations.StepKeepsMemoriesCanonical := step_keeps_memories

end Sys2Proof.Proofs
end

section
/-! SUPPORT. Rounding to FP32 and decoding of FP32 patterns (03 R78, R79, R95): a value counts by its size alone, and a value that FP32
has is read back as it was rounded. -/

namespace Sys2Proof.Machine

/-! ## Rounding sees the value only, not its scale -/

theorem roundRat_mul_right (rnd : Rnd) (N D : Nat) {c : Nat} (hc : 0 < c) : roundRat rnd (N * c) (D * c) = roundRat rnd N D := by
  cases rnd with
  | nearest =>
    simp only [roundRat, Nat.mul_div_mul_right _ _ hc, Nat.mul_mod_mul_right, ← Nat.mul_assoc, Nat.mul_lt_mul_right hc]
  | stoch r =>
    simp only [roundRat, Nat.mul_mod_mul_right, Nat.mul_right_comm _ c, Nat.mul_div_mul_right _ _ hc]

theorem roundRat_nearest_one (N : Nat) : roundRat .nearest N 1 = N := by simp [roundRat, Nat.mod_one]

theorem log2Rat_one {m : Nat} (hm : m ≠ 0) : log2Rat m 1 = Nat.log2 m := by
  have h1 : Nat.log2 1 = 0 := rfl
  simp [log2Rat, h1, Nat.log2_self_le hm]

theorem log2_mul_two_pow {m : Nat} (hm : m ≠ 0) (k : Nat) : Nat.log2 (m * 2 ^ k) = Nat.log2 m + k := by
  induction k with
  | zero => simp
  | succ k ih =>
    rw [Nat.pow_succ, ← Nat.mul_assoc, Nat.mul_comm _ 2, Nat.log2_two_mul (by positivity), ih]
    omega

/-- A factor of two moved between the mantissa and the exponent scales both sides of the quotient to be rounded alike. -/
theorem inUnits_shift (m k : Nat) (e q : Int) : ∃ c, 0 < c ∧
    inUnits (m * 2 ^ k) e 1 q = ((inUnits m (e + k) 1 q).1 * c, (inUnits m (e + k) 1 q).2 * c) := by
  by_cases hq : q ≤ e
  · refine ⟨1, Nat.one_pos, ?_⟩
    have hk : (e + k - q).toNat = k + (e - q).toNat := by omega
    simp [inUnits, hq, show q ≤ e + k by omega, hk, Nat.pow_add, Nat.mul_assoc]
  · by_cases hk : q ≤ e + k
    · refine ⟨2 ^ (q - e).toNat, Nat.two_pow_pos _, ?_⟩
      have h : k = (e + k - q).toNat + (q - e).toNat := by omega
      simp only [inUnits, hq, hk, if_true, if_false, Nat.mul_assoc, ← Nat.pow_add, ← h]
    · refine ⟨2 ^ k, Nat.two_pow_pos _, ?_⟩
      have h : (q - e).toNat = (q - (e + k)).toNat + k := by omega
      simp only [inUnits, hq, hk, if_false, Nat.mul_assoc, ← Nat.pow_add, ← h]

theorem roundMag_shift (f : Fmt) (rnd : Rnd) {m : Nat} (hm : m ≠ 0) (k : Nat) (e : Int) :
    roundMag f rnd (m * 2 ^ k) e 1 = roundMag f rnd m (e + k) 1 := by
  have hl : log2Rat (m * 2 ^ k) 1 + e = log2Rat m 1 + (e + k) := by
    rw [log2Rat_one (by positivity), log2Rat_one hm, log2_mul_two_pow hm]
    push_cast
    ring
  obtain ⟨c, hc, hu⟩ := inUnits_shift m k e (max (log2Rat m 1 + (e + k)) (fmtEmin f) - f.mbits)
  simp only [roundMag, hl, hu, roundRat_mul_right _ _ _ hc]

/-- A conversion rounds m × 2^k × 2^e as m × 2^(e + k). -/
theorem toF32_shift (s : Bool) (m k : Nat) (e : Int) : toF32 (.fin s (m * 2 ^ k) e) = toF32 (.fin s m (e + k)) := by
  by_cases hm : m = 0
  · simp [toF32, convF, hm]
  · simp [toF32, convF, hm, roundMag_shift _ _ hm]

/-! ## Decoding an FP32 pattern -/

/-- The magnitude code of an FP32 pattern: all its bits but the sign. -/
def magCode (x : W32) : Nat := x.toNat % 2 ^ 31

theorem ofF32_eq (x : W32) : ofF32 x =
    if magCode x ≤ 0x7F7FFFFF then .fin (x.getLsbD 31) (magVal fp32 (magCode x)).1 (magVal fp32 (magCode x)).2
    else if magCode x = 0x7F800000 then .inf (x.getLsbD 31) else .nan := by
  have hw : x.toNat % 2 ^ fmtBits fp32 = x.toNat := Nat.mod_eq_of_lt x.isLt
  have hi : (fp32.spec = .ieee ∧ magCode x % 2 ^ 23 = 0) ↔ magCode x % 2 ^ 23 = 0 := and_iff_right rfl
  have hc : magCode x < 2 ^ 31 := Nat.mod_lt _ (by decide)
  simp only [ofF32, decodeF, hw]
  change (if magCode x ≤ 0x7F7FFFFF then _ else if fp32.spec = .ieee ∧ magCode x % 2 ^ 23 = 0 then _ else _) = _
  split
  · rfl
  · refine if_congr (hi.trans ?_) rfl rfl
    clear hw
    omega

/-- A decoded finite value or infinity has the sign of its pattern. -/
theorem sign_of_ofF32_fin {x : W32} {s : Bool} {m : Nat} {e : Int} (h : ofF32 x = .fin s m e) : s = x.getLsbD 31 := by
  rw [ofF32_eq] at h
  split at h
  · cases h; rfl
  · split at h <;> cases h

theorem sign_of_ofF32_inf {x : W32} {s : Bool} (h : ofF32 x = .inf s) : s = x.getLsbD 31 := by
  rw [ofF32_eq] at h
  split at h
  · cases h
  · split at h <;> cases h
    rfl

theorem magVal_of_ofF32_fin {x : W32} {s : Bool} {m : Nat} {e : Int} (h : ofF32 x = .fin s m e) : magVal fp32 (magCode x) = (m, e) := by
  rw [ofF32_eq] at h
  split at h
  · cases h; rfl
  · split at h <;> cases h

theorem magVal_subnormal {c : Nat} (h : c < 2 ^ 23) : magVal fp32 c = (c, -149) := by
  have hE : c / 2 ^ 23 = 0 := Nat.div_eq_of_lt h
  simp only [magVal, fp32, hE, if_true, Nat.mod_eq_of_lt h]
  rfl

theorem magVal_normal {c : Nat} (h : 2 ^ 23 ≤ c) : magVal fp32 c = (2 ^ 23 + c % 2 ^ 23, ((c / 2 ^ 23 : Nat) : Int) - 150) := by
  have hE : c / 2 ^ 23 ≠ 0 := by omega
  simp only [magVal, fp32, hE, if_false]
  congr 1
  omega

/-- Two patterns alone decode to zero. -/
theorem eq_zero_of_isZero {x : W32} (h : isZero (ofF32 x) = true) : x = 0 ∨ x = 0x80000000 := by
  obtain ⟨s, e, hx⟩ : ∃ s e, ofF32 x = .fin s 0 e := by
    unfold isZero at h
    split at h
    · exact ⟨_, _, ‹_›⟩
    · cases h
  have hv := magVal_of_ofF32_fin hx
  have hc : magCode x = 0 := by
    by_cases hs : magCode x < 2 ^ 23
    · rw [magVal_subnormal hs] at hv
      exact (Prod.mk.inj hv).1
    · rw [magVal_normal (by omega)] at hv
      have := (Prod.mk.inj hv).1
      omega
  unfold magCode at hc
  bv_omega

/-! ## The pattern of a value that FP32 has -/

/-- The FP32 pattern of a sign and a magnitude code. -/
def signed32 (s : Bool) (c : Nat) : W32 := BitVec.ofNat 32 (withSign fp32 s c)

theorem magCode_signed32 (s : Bool) {c : Nat} (hc : c < 2 ^ 31) : magCode (signed32 s c) = c := by
  cases s <;> simp [magCode, signed32, withSign, fp32] <;> omega

theorem getLsbD_signed32 (s : Bool) {c : Nat} (hc : c < 2 ^ 31) : (signed32 s c).getLsbD 31 = s := by
  cases s <;> simp [signed32, withSign, fp32, BitVec.getLsbD, Nat.testBit] <;> omega

/-- The grid FP32 has at m × 2^e: the exponent of the unit in the last place (03 R95). -/
def gridExp (m : Nat) (e : Int) : Int := max (Nat.log2 m + e) (-126) - 23

/-- A number of grid units within one binade is the code's own mantissa and exponent. -/
theorem magVal_codeOf {r : Nat} {q : Int} (hr : r < 2 ^ 24) (hq : -149 ≤ q) (hs : r < 2 ^ 23 → q = -149) :
    magVal fp32 (codeOf fp32 r q) = (r, q) := by
  by_cases h : r < 2 ^ 23
  · have hc : codeOf fp32 r q = r := if_pos h
    rw [hc, magVal_subnormal h, hs h]
  · have hc : codeOf fp32 r q = (q + 149).toNat * 2 ^ 23 + r := if_neg h
    rw [hc, magVal_normal (by omega)]
    refine Prod.ext ?_ ?_ <;> simp only <;> omega

theorem codeOf_le_max {r : Nat} {q : Int} (hr : r < 2 ^ 24) (hq : q ≤ 104) : codeOf fp32 r q ≤ 0x7F7FFFFF := by
  by_cases h : r < 2 ^ 23
  · have hc : codeOf fp32 r q = r := if_pos h
    omega
  · have hc : codeOf fp32 r q = (q + 149).toNat * 2 ^ 23 + r := if_neg h
    omega

/-- A value that FP32 has, given as a mantissa of 24 bits at an exponent within the format's reach. -/
structure InF32 (m : Nat) (e : Int) : Prop where
  mant : m < 2 ^ 24
  low  : -149 ≤ e
  high : Nat.log2 m + e ≤ 127

/-- The grid units of a value that FP32 has: exact, and within one binade. -/
theorem gridUnits {m : Nat} {e : Int} (hm : m ≠ 0) (h : InF32 m e) : ∃ k : Nat, gridExp m e = e - k ∧ -149 ≤ e - k ∧ e - k ≤ 104 ∧
    m * 2 ^ k < 2 ^ 24 ∧ (m * 2 ^ k < 2 ^ 23 → e - k = -149) := by
  obtain ⟨hlt, hlo, hhi⟩ := h
  have hl : Nat.log2 m < 24 := (Nat.log2_lt hm).2 hlt
  refine ⟨(e - gridExp m e).toNat, ?_⟩
  have hk : m * 2 ^ (e - gridExp m e).toNat ≠ 0 := by positivity
  rw [← Nat.log2_lt hk, ← Nat.log2_lt hk, log2_mul_two_pow hm]
  unfold gridExp
  omega

theorem roundMag_exact {m : Nat} (hm : m ≠ 0) {e : Int} {k : Nat} (hg : gridExp m e = e - k) :
    roundMag fp32 .nearest m e 1 = codeOf fp32 (m * 2 ^ k) (e - k) := by
  have hq : max (log2Rat m 1 + e) (fmtEmin fp32) - fp32.mbits = e - k := by rw [log2Rat_one hm, ← hg]; rfl
  have hk : (e - (e - k)).toNat = k := by omega
  simp only [roundMag, hq, inUnits, hk, show e - (k : Int) ≤ e by omega, if_true, roundRat_nearest_one]

/-- Rounding a value that FP32 has to its pattern loses nothing. -/
theorem toF32_code (s : Bool) {m : Nat} {e : Int} (h : InF32 m e) : ∃ (c k : Nat), -149 ≤ e - k ∧ c ≤ 0x7F7FFFFF ∧
    toF32 (.fin s m e) = signed32 s c ∧ magVal fp32 c = (m * 2 ^ k, e - k) := by
  by_cases hm : m = 0
  · subst hm
    refine ⟨0, (e + 149).toNat, ?_, Nat.zero_le _, rfl, ?_⟩
    · have := h.low
      omega
    · rw [magVal_subnormal (by decide)]
      have := h.low
      exact Prod.ext (Nat.zero_mul _).symm (by simp only; omega)
  · obtain ⟨k, hg, hlo, hhi, hr, hs⟩ := gridUnits hm h
    have hc : codeOf fp32 (m * 2 ^ k) (e - k) ≤ 0x7F7FFFFF := codeOf_le_max hr hhi
    refine ⟨_, k, hlo, hc, ?_, magVal_codeOf hr hlo hs⟩
    have hmax : codeOf fp32 (m * 2 ^ k) (e - k) ≤ fmtMax fp32 := hc
    simp only [toF32, convF, hm, if_false, roundMag_exact hm hg, hmax, if_true, signed32]

/-- A value that FP32 has reads back from its pattern, written with a finer unit. -/
theorem ofF32_toF32 (s : Bool) {m : Nat} {e : Int} (h : InF32 m e) :
    ∃ k : Nat, -149 ≤ e - k ∧ ofF32 (toF32 (.fin s m e)) = .fin s (m * 2 ^ k) (e - k) := by
  obtain ⟨c, k, hk, hc, hx, hv⟩ := toF32_code s h
  refine ⟨k, hk, ?_⟩
  have hb : c < 2 ^ 31 := by omega
  rw [hx, ofF32_eq, magCode_signed32 s hb, getLsbD_signed32 s hb, if_pos hc, hv]

/-- Negation of a value that FP32 has is exact. -/
theorem f32Neg_toF32 (s : Bool) {m : Nat} {e : Int} (h : InF32 m e) : f32Neg (toF32 (.fin s m e)) = toF32 (.fin (!s) m e) := by
  obtain ⟨k, -, hv⟩ := ofF32_toF32 s h
  rw [f32Neg, hv, negV, toF32_shift, Int.sub_add_cancel]

end Sys2Proof.Machine
end

section
/-! SUPPORT. The exact cases of the transcendental operations (03 R93, Table FMT-4): powers of two and integers. -/

namespace Sys2Proof.Machine

theorem inF32_one {n : Int} (h1 : -149 ≤ n) (h2 : n ≤ 127) : InF32 1 n := ⟨by decide, h1, by simpa [show Nat.log2 1 = 0 from rfl] using h2⟩

theorem inF32_natAbs {n : Int} (h : n.natAbs < 2 ^ 24) : InF32 n.natAbs 0 := by
  refine ⟨h, by decide, ?_⟩
  by_cases h0 : n.natAbs = 0
  · simp [h0]
  · have hl := (Nat.log2_lt h0).2 h
    omega

/-! ## Powers of two -/

theorem isPow2_two_pow (k : Nat) : isPow2 (2 ^ k) = true := by simp [isPow2]

theorem rcpOf_two_pow (s : Bool) (k : Nat) (e : Int) : rcpOf s (2 ^ k) e = .fin s (2 ^ 160) (-(e + k) - 160) := by
  have hd : 2 ^ (k + 160) / 2 ^ k = 2 ^ 160 := by
    rw [Nat.pow_add, Nat.mul_div_cancel_left _ (Nat.two_pow_pos k)]
  simp only [rcpOf, Nat.log2_two_pow, hd]
  congr 1
  push_cast
  ring

theorem f32Rcp_two_pow (s : Bool) {n : Int} (h1 : -149 ≤ n) (h2 : n ≤ 127) : f32Rcp (toF32 (.fin s 1 n)) = toF32 (.fin s 1 (-n)) := by
  obtain ⟨k, -, hv⟩ := ofF32_toF32 s (inF32_one h1 h2)
  rw [Nat.one_mul] at hv
  have hp : 2 ^ k ≠ 0 := (Nat.two_pow_pos k).ne'
  simp only [f32Rcp, hv, hp, if_false, isPow2_two_pow, if_true, rcpOf_two_pow, Int.sub_add_cancel]
  rw [← Nat.one_mul (2 ^ 160), toF32_shift]
  congr 2
  omega

theorem f32Log2_two_pow {n : Int} (h1 : -149 ≤ n) (h2 : n ≤ 127) : f32Log2 (f32Pow2 n) = f32OfInt n := by
  obtain ⟨k, -, hv⟩ := ofF32_toF32 false (inF32_one h1 h2)
  rw [Nat.one_mul] at hv
  simp [f32Pow2, f32Log2, hv, isPow2_two_pow, Nat.log2_two_pow]

/-! ## EXP2 of an integer -/

/-- The integer of a sign and a magnitude. -/
def ofSign (s : Bool) (a : Nat) : Int := if s then -a else a

theorem ofSign_neg_natAbs (n : Int) : ofSign (decide (n < 0)) n.natAbs = n := by
  simp only [ofSign, decide_eq_true_eq]
  omega

/-- Integers compare as themselves, however fine the unit one of them is written in. -/
theorem ltV_ofSign (s t : Bool) (a b k : Nat) :
    ltV (.fin s (a * 2 ^ k) (-k)) (.fin t b 0) = decide (ofSign s a < ofSign t b) := by
  have hlo : min (-(k : Int)) 0 = -k := by omega
  have ha : atExp s (a * 2 ^ k) (-k) (-k) = ofSign s a * 2 ^ k := by cases s <;> simp [atExp, ofSign]
  have hb : atExp t b 0 (-k) = ofSign t b * 2 ^ k := by cases t <;> simp [atExp, ofSign]
  simp only [ltV, hlo, ha, hb, decide_eq_decide]
  exact Int.mul_lt_mul_right (by positivity)

/-- The fraction zero takes no root of two. -/
theorem exp2Frac_zero (n root acc : Nat) : exp2Frac n 0 root acc = acc := by
  induction n generalizing root with
  | zero => rfl
  | succ n ih =>
    have h : ¬ fxOne ≤ 2 * 0 := by simp [fxOne]
    simp only [exp2Frac, h, if_false, ih]

/-- An integer has no fraction in fixed point, so 2 to its power is the one of fixed point at that exponent. -/
theorem exp2Of_int (s : Bool) (a : Nat) {k : Nat} (hk : k ≤ fxBits) :
    exp2Of s (a * 2 ^ k) (-k) = .fin false fxOne (ofSign s a - fxBits) := by
  have hq : -(fxBits : Int) ≤ -k := by omega
  have hN : a * 2 ^ k * 2 ^ (-(k : Int) - -fxBits).toNat = a * fxOne := by
    have : k + (-(k : Int) - -fxBits).toNat = fxBits := by omega
    rw [Nat.mul_assoc, ← Nat.pow_add, this, fxOne]
  have hv : (if s then -((a * fxOne : Nat) : Int) else ((a * fxOne : Nat) : Int)) = ofSign s a * fxOne := by
    cases s <;> simp [ofSign]
  have h0 : (fxOne : Int) ≠ 0 := by simp [fxOne]
  simp only [exp2Of, inUnits, hq, if_true, hN, Nat.div_one, hv, Int.mul_ediv_cancel _ h0, Int.mul_emod_left, Int.toNat_zero, exp2Frac_zero]

theorem f32Exp2_int {n : Int} (h1 : -149 ≤ n) (h2 : n ≤ 127) : f32Exp2 (f32OfInt n) = f32Pow2 n := by
  obtain ⟨k, hk, hv⟩ := ofF32_toF32 (decide (n < 0)) (inF32_natAbs (n := n) (by omega))
  rw [Int.zero_sub] at hv
  have hover : (!decide (n < 0) && !ltV (.fin (decide (n < 0)) (n.natAbs * 2 ^ k) (-k)) (.fin false 128 0)) = false := by
    rw [ltV_ofSign, ofSign_neg_natAbs]
    simp [ofSign, show n < 128 by omega]
  have hunder : ltV (.fin (decide (n < 0)) (n.natAbs * 2 ^ k) (-k)) (.fin true 1024 0) = false := by
    rw [ltV_ofSign, ofSign_neg_natAbs]
    simp [ofSign, show -1024 ≤ n by omega]
  have hint : 0 ≤ -(k : Int) ∨ n.natAbs * 2 ^ k % 2 ^ (- -(k : Int)).toNat = 0 := .inr (by simp)
  have hv2 : exp2Of (decide (n < 0)) (n.natAbs * 2 ^ k) (-k) = .fin false (1 * 2 ^ fxBits) (n - fxBits) := by
    rw [exp2Of_int _ _ (by unfold fxBits; omega), ofSign_neg_natAbs, Nat.one_mul, fxOne]
  simp only [f32OfInt, f32Exp2, hv, hover, hunder, hint, hv2, toF32_shift, Int.sub_add_cancel, if_true, Bool.false_eq_true, if_false, f32Pow2]

/-! ## Special values -/

/-- A NaN has no value for any of the five operations, whatever its payload (R79). -/
theorem transc_nan {x : W32} (h : isNan (ofF32 x) = true) :
    f32Exp2 x = f32Nan ∧ f32Log2 x = f32Nan ∧ f32Rcp x = f32Nan ∧ f32Rsqrt x = f32Nan ∧ f32Tanh x = f32Nan := by
  have hx : ofF32 x = .nan := by
    cases hv : ofF32 x with
    | nan => rfl
    | inf s => simp [hv, isNan] at h
    | fin s m e => simp [hv, isNan] at h
  simp [f32Exp2, f32Log2, f32Rcp, f32Rsqrt, f32Tanh, hx]

theorem transc_zero {x : W32} (h : isZero (ofF32 x) = true) :
    f32Rcp x = (if x.getLsbD 31 then 0xFF800000 else 0x7F800000) ∧ f32Rsqrt x = (if x.getLsbD 31 then 0xFF800000 else 0x7F800000) ∧
      f32Log2 x = 0xFF800000 ∧ f32Tanh x = x := by
  rcases eq_zero_of_isZero h with rfl | rfl <;> decide

theorem transc_negative {x : W32} (hn : isNan (ofF32 x) = false) (hz : isZero (ofF32 x) = false) (hs : x.getLsbD 31 = true) :
    f32Rsqrt x = f32Nan ∧ f32Log2 x = f32Nan := by
  cases hv : ofF32 x with
  | nan => simp [hv, isNan] at hn
  | inf s =>
    have : s = true := (sign_of_ofF32_inf hv).trans hs
    simp [f32Rsqrt, f32Log2, hv, this]
  | fin s m e =>
    have : s = true := (sign_of_ofF32_fin hv).trans hs
    have hm : m ≠ 0 := by
      rintro rfl
      simp [hv, isZero] at hz
    simp [f32Rsqrt, f32Log2, hv, this, hm]

/-- A positive number whose pattern is that of 128 or above is 128 or more. -/
theorem ltV_128_of_le {x : W32} {m : Nat} {e : Int} (hx : ofF32 x = .fin false m e) (h : 0x43000000 ≤ x.toNat) :
    ltV (.fin false m e) (.fin false 128 0) = false := by
  have hc : 0x43000000 ≤ magCode x := by
    have hs : x.msb = false := (sign_of_ofF32_fin hx).symm
    have hlt : 2 * x.toNat < 2 ^ 32 := BitVec.msb_eq_false_iff_two_mul_lt.1 hs
    unfold magCode
    omega
  have hv := magVal_of_ofF32_fin hx
  rw [magVal_normal (by omega)] at hv
  obtain ⟨hm, he⟩ := Prod.mk.inj hv
  have hle : 128 * 2 ^ (-min e 0).toNat ≤ m * 2 ^ (e - min e 0).toNat :=
    calc 128 * 2 ^ (-min e 0).toNat ≤ 128 * 2 ^ 16 := Nat.mul_le_mul_left _ (Nat.pow_le_pow_right (by decide) (by omega))
      _ ≤ m := by omega
      _ ≤ m * 2 ^ (e - min e 0).toNat := Nat.le_mul_of_pos_right _ (Nat.two_pow_pos _)
  simpa [ltV, atExp] using mod_cast hle

theorem f32Exp2_overflow {x : W32} (hn : isNan (ofF32 x) = false) (hs : x.getLsbD 31 = false) (h : 0x43000000 ≤ x.toNat) :
    f32Exp2 x = 0x7F800000 := by
  have hinf : toF32 (.inf false) = 0x7F800000 := by decide
  cases hv : ofF32 x with
  | nan => simp [hv, isNan] at hn
  | inf s =>
    have : s = false := (sign_of_ofF32_inf hv).trans hs
    simp [f32Exp2, hv, this, hinf]
  | fin s m e =>
    obtain rfl : s = false := (sign_of_ofF32_fin hv).trans hs
    simp [f32Exp2, hv, ltV_128_of_le hv h, hinf]

end Sys2Proof.Machine
end

section
/-! The statements of 03: the number formats and the operations on them. -/

namespace Sys2Proof.Proofs

open Sys2Proof.Machine

/-- Settles O11. A special value is a case of the operation's definition; a power of two and an integer decode to themselves in a finer unit,
which every exact operation and the rounding at its end see through. -/
theorem transcendentalSpecialValues : Obligations.TranscendentalSpecialValues := by
  refine ⟨fun x => ⟨transc_nan, transc_zero, ?_, ?_, transc_negative, f32Exp2_overflow⟩, fun n => ⟨fun h1 h2 => ⟨?_, ?_⟩, fun h1 h2 => ?_⟩⟩
  · rintro rfl
    decide
  · rintro rfl
    decide
  · exact f32Rcp_two_pow false (by omega) h2
  · rw [f32Pow2, f32Neg_toF32 _ (inF32_one (by omega) h2), f32Pow2, f32Neg_toF32 _ (inF32_one (by omega) (by omega))]
    exact f32Rcp_two_pow true (by omega) h2
  · exact ⟨f32Log2_two_pow h1 h2, f32Exp2_int h1 h2⟩

end Sys2Proof.Proofs
end

section
/-! SUPPORT. Queues and steering units of a tile, the neighbour of a tile, what one delivery over a mesh link does (01 R19, R20; 04 R119,
R127; 13 R393). -/

namespace Sys2Proof.Machine

/-! ## A queue or a steering unit that is set reads back -/

@[simp] theorem Tile.inQ_setIn_same (x : Tile) (d : Dir) (q : List Token) : (x.setIn d q).inQ d = q := tget_tset_same _ _ _ _
@[simp] theorem Tile.outQ_setOut_same (x : Tile) (d : Dir) (q : List Token) : (x.setOut d q).outQ d = q := tget_tset_same _ _ _ _
@[simp] theorem Tile.unitOf_setUnitOf_same (x : Tile) (n : Nat) (v : Steer) : (x.setUnitOf n v).unitOf n = v := tget_tset_same _ _ _ _
theorem Tile.unitOf_setUnitOf_other (x : Tile) {n j : Nat} (v : Steer) (h : j ≠ n) : (x.setUnitOf n v).unitOf j = x.unitOf j :=
  tget_tset_other _ _ _ h
@[simp] theorem Tile.inQ_setUnitOf (x : Tile) (n : Nat) (v : Steer) (d : Dir) : (x.setUnitOf n v).inQ d = x.inQ d := rfl
@[simp] theorem Tile.unitOf_setIn (x : Tile) (d : Dir) (q : List Token) (n : Nat) : (x.setIn d q).unitOf n = x.unitOf n := rfl

@[simp] theorem State.tile_modTile_same (s : State) (t : Nat) (f : Tile → Tile) : (s.modTile t f).tile t = f (s.tile t) :=
  s.tile_setTile_same t _
theorem State.tile_modTile_other (s : State) {t j : Nat} (f : Tile → Tile) (h : j ≠ t) : (s.modTile t f).tile j = s.tile j :=
  s.tile_setTile_other _ h
@[simp] theorem State.tile_setCrossing (s : State) (c : Nat) (d : Dir) (q : List Token) (t : Nat) :
    (s.setCrossing c d q).tile t = s.tile t := rfl
@[simp] theorem State.crossing_setCrossing_same (s : State) (t : Nat) (d : Dir) (q : List Token) : (s.setCrossing t d q).crossing t d = q :=
  tget_tset_same _ _ _ _
theorem State.crossing_setCrossing_other (s : State) {t c : Nat} {d e : Dir} (q : List Token) (h : 4 * c + dirIx e ≠ 4 * t + dirIx d) :
    (s.setCrossing t d q).crossing c e = s.crossing c e := tget_tset_other _ _ _ h

/-! ## A tile put back -/

theorem State.onlyTile_putTile (s : State) (t : Nat) (x : Tile) : OnlyTile t s (s.putTile t x) :=
  ⟨rfl, fun _ h => s.tile_setTile_other _ h⟩

/-- Only the stamp of a firing's start and, off the S8, the Sextants differ from the tile that is put back. -/
theorem State.tileKept_putTile (s : State) (t : Nat) (x : Tile) : TileKept x ((s.putTile t x).tile t) := by
  rw [State.putTile, State.tile_setTile_same]
  split <;> split <;> rfl

section
variable {x y : Tile}

theorem TileKept.inQ (h : TileKept x y) (d : Dir) : y.inQ d = x.inQ d := by rw [h]; rfl
theorem TileKept.unitOf (h : TileKept x y) (n : Nat) : y.unitOf n = x.unitOf n := by rw [h]; rfl

/-- A tile kept after an input queue and a steering unit were set is kept but for its input queues and its steering units. -/
theorem TileKept.of_setIn_setUnitOf {d : Dir} {q : List Token} {n : Nat} {w : Steer} (h : TileKept ((x.setIn d q).setUnitOf n w) y) :
    TileKept { x with inq := y.inq, steer := y.steer } y := by
  unfold TileKept at h ⊢
  rw [h]
  rfl

end

/-! ## The neighbour of a tile is another tile -/

/-- Regions are four rows high, so that a tile's global row modulo 4 is its row within its region. -/
theorem row_mod_of_tileAt {v gr gc t : Nat} (h : tileAt v gr gc = t) : gr % 4 = globalRow v t % 4 := by
  unfold tileAt at h
  unfold globalRow tileRow
  omega

/-- Regions are eight columns wide. -/
theorem col_mod_of_tileAt {v gr gc t : Nat} (h : tileAt v gr gc = t) : gc % 8 = globalCol v t % 8 := by
  unfold tileAt at h
  unfold globalCol tileCol
  omega

/-- A step north or south changes the row within the region, a step east or west the column. -/
theorem neighbour_ne {v t n : Nat} {d : Dir} (h : neighbour v t d = some n) : n ≠ t := by
  rintro rfl
  cases d <;> simp only [neighbour, Option.ite_none_left_eq_some, Option.ite_none_right_eq_some, Option.some.injEq] at h
  case north =>
    have := row_mod_of_tileAt h.2
    omega
  case south =>
    have := row_mod_of_tileAt h.2
    omega
  case east =>
    have := col_mod_of_tileAt h.2
    omega
  case west =>
    have := col_mod_of_tileAt h.2
    omega

/-! ## Mesh transfers -/

@[simp] theorem State.isPlaced_modTile (s : State) (t : Nat) (f : Tile → Tile) (r : Nat) : (s.modTile t f).isPlaced r = s.isPlaced r := rfl
@[simp] theorem State.crossing_modTile (s : State) (t : Nat) (f : Tile → Tile) (c : Nat) (d : Dir) :
    (s.modTile t f).crossing c d = s.crossing c d := rfl

theorem State.meshUp_modTile_other (s : State) {t n : Nat} (f : Tile → Tile) (h : n ≠ t) : (s.modTile t f).meshUp n = s.meshUp n := by
  rw [State.meshUp, s.tile_modTile_other f h]
  rfl

section
variable {s u : State} {t n : Nat} {d : Dir} {k : Token} {rest : List Token}

theorem State.deliver_of_placed (hn : neighbour s.variant t d = some n) (hp : s.isPlaced (tileRegion n) = true) (hup : s.meshUp n = true)
    (hroom : ((s.tile n).inQ (dirOpp d)).length < 16) :
    s.deliver t d k false = some (s.modTile n (fun x => x.setIn (dirOpp d) ((s.tile n).inQ (dirOpp d) ++ [k]))) := by
  simp [State.deliver, hn, hp, hup, hroom]

theorem State.deliver_of_empty (hn : neighbour s.variant t d = some n) (hp : s.isPlaced (tileRegion n) = false)
    (hroom : (s.crossing n d).length < 16) : s.deliver t d k false = some (s.setCrossing n d (s.crossing n d ++ [k])) := by
  simp [State.deliver, hn, hp, hroom]

/-- MESH_TRANSFER of an output queue without a tap: the queue loses its oldest token and the link delivers it. -/
theorem execMeshTransfer_of_deliver (hp : s.isPlaced (tileRegion t) = true) (hup : s.meshUp t = true) (htap : s.tapAt t d = none)
    (hq : (s.tile t).outQ d = k :: rest) (hu : (s.modTile t (fun x => x.setOut d rest)).deliver t d k false = some u) :
    execMeshTransfer t d false s = .next u := by
  simp [execMeshTransfer, hp, hup, htap, hq, hu]

end

/-! ## Intakes of a steering unit -/

section
variable {s : State} {t n : Nat} {m : TileImg} {i : Dir} {k : Token} {rest : List Token}

theorem execSteerDataIntake_of_room (hm : s.steering t = some m) (hmode : stMode (m.steerOf n) ≠ 0) (hq : (s.tile t).inQ i = k :: rest)
    (hdin : dirCode (stDin (m.steerOf n)) = some i) (hroom : ((s.tile t).unitOf n).dataq.length < 4) :
    execSteerDataIntake t n s = .next (s.putTile t (((s.tile t).setIn i rest).setUnitOf n
      { (s.tile t).unitOf n with dataq := ((s.tile t).unitOf n).dataq ++ [k] })) := by
  simp [execSteerDataIntake, hm, hdin, hq, hroom]

theorem execSteerBearingIntake_of_room (hm : s.steering t = some m) (hmode : stMode (m.steerOf n) ≠ 0) (hq : (s.tile t).inQ i = k :: rest)
    (hsrc : dirCode (stBsrc (m.steerOf n)) = some i) (hroom : ((s.tile t).unitOf n).bearq.length + stBpt (m.steerOf n) ≤ 16) :
    execSteerBearingIntake t n s = .next (s.putTile t (((s.tile t).setIn i rest).setUnitOf n
      { (s.tile t).unitOf n with bearq := ((s.tile t).unitOf n).bearq ++ bearingsOf k (stBpt (m.steerOf n)) })) := by
  simp [execSteerBearingIntake, hm, hsrc, hq, hroom]

end

/-- What an intake changes: the input queue's head is gone and the unit is `w`; every other unit and the rest of the tile stay. -/
theorem State.putTile_setIn_setUnitOf (s : State) (t n : Nat) (i : Dir) (rest : List Token) (w : Steer) :
    let u := s.putTile t (((s.tile t).setIn i rest).setUnitOf n w)
    OnlyTile t s u ∧ (u.tile t).inQ i = rest ∧ (u.tile t).unitOf n = w ∧ (∀ j, j ≠ n → (u.tile t).unitOf j = (s.tile t).unitOf j) ∧
      TileKept { s.tile t with inq := (u.tile t).inq, steer := (u.tile t).steer } (u.tile t) := by
  intro u
  have hkept : TileKept (((s.tile t).setIn i rest).setUnitOf n w) (u.tile t) := s.tileKept_putTile t _
  refine ⟨s.onlyTile_putTile t _, ?_, ?_, fun j hj => ?_, hkept.of_setIn_setUnitOf⟩
  · simp [hkept.inQ]
  · simp [hkept.unitOf]
  · simp [hkept.unitOf, Tile.unitOf_setUnitOf_other _ _ hj]

end Sys2Proof.Machine
end

section
/-! The statements of 04: intakes of a steering unit and transfers over the mesh. -/

namespace Sys2Proof.Proofs

open Sys2Proof.Machine

/-- Settles O21: each intake puts back a tile with one input queue and one steering unit set. -/
theorem steeringIntakes : Obligations.SteeringIntakes := by
  intro s t n m i k rest hm hmode hq
  exact ⟨fun hdin hroom => ⟨_, execSteerDataIntake_of_room hm hmode hq hdin hroom, s.putTile_setIn_setUnitOf t n i rest _⟩,
    fun hsrc hroom => ⟨_, execSteerBearingIntake_of_room hm hmode hq hsrc hroom, s.putTile_setIn_setUnitOf t n i rest _⟩⟩

/-- Settles O23: the neighbour is another tile, so that what the sender loses and what the receiver or the crossing gains are apart. -/
theorem meshTransfers : Obligations.MeshTransfers := by
  intro s t n d k rest hp hup htap hq hn
  have hne : n ≠ t := neighbour_ne hn
  refine ⟨fun hpn hupn hroom => ?placed, fun hpn hroom => ?empty⟩
  case placed =>
    have hgive := State.deliver_of_placed (s := s.modTile t (fun x => x.setOut d rest)) (k := k) hn hpn
      ((s.meshUp_modTile_other _ hne).trans hupn) (by rwa [s.tile_modTile_other _ hne])
    refine ⟨_, execMeshTransfer_of_deliver hp hup htap hq hgive, rfl, ?_, ?_, fun t' ht hn' => ?_⟩
    · simp [State.tile_modTile_other, hne.symm]
    · simp [State.tile_modTile_other, hne]
    · simp [State.tile_modTile_other, ht, hn']
  case empty =>
    have hgive := State.deliver_of_empty (s := s.modTile t (fun x => x.setOut d rest)) (k := k) hn hpn hroom
    refine ⟨_, execMeshTransfer_of_deliver hp hup htap hq hgive, rfl, ?_, ?_, fun t' ht => ?_, fun c d' hc => ?_⟩
    · simp
    · simp
    · simp [State.tile_modTile_other, ht]
    · simp [State.crossing_setCrossing_other, hc]

end Sys2Proof.Proofs
end

section
/-! SUPPORT. What a fault of class S does: its record, the commands that it leaves and the update units (15 R433, R435, R445), and what a
command that meets STACK_UE ends with. -/

namespace Sys2Proof.Machine

/-! ## The fabric: shutters, doors' tiles, traces -/

/-- Nothing differs between two states but tiles, regions, shutters and the traces of them. -/
def OnlyFabric (s u : State) : Prop :=
  { u with freeCount := s.freeCount, pw := s.pw, tiles := s.tiles, regions := s.regions,
           rcv := { u.rcv with traceq := s.rcv.traceq, shed := s.rcv.shed } } = s

namespace OnlyFabric

theorem refl (s : State) : OnlyFabric s s := rfl

theorem trans {s u v : State} (h : OnlyFabric s u) (k : OnlyFabric u v) : OnlyFabric s v := by
  unfold OnlyFabric at h k ⊢
  exact (congrArg (fun x : State => { x with
    freeCount := s.freeCount, pw := s.pw, tiles := s.tiles, regions := s.regions,
    rcv := { x.rcv with traceq := s.rcv.traceq, shed := s.rcv.shed } }) k).trans h

theorem free {s u : State} (h : OnlyFabric s u) (n : Nat) : OnlyFabric s { u with freeCount := n } := h

/-- What a function reads outside the fabric is the same. -/
theorem congr {s u : State} (h : OnlyFabric s u) {α : Type} (f : State → α) :
    f { u with freeCount := s.freeCount, pw := s.pw, tiles := s.tiles, regions := s.regions,
               rcv := { u.rcv with traceq := s.rcv.traceq, shed := s.rcv.shed } } = f s := congrArg f h

theorem forEach {α : Type} {f : State → α → State} (xs : List α) (h : ∀ s x, OnlyFabric s (f s x)) (s : State) :
    OnlyFabric s (Machine.forEach xs s f) :=
  forEach_keeps (OnlyFabric s) f xs (fun u x _ k => k.trans (h u x)) s (refl s)

end OnlyFabric

section
variable (s : State)

theorem onlyFabric_ite {c : Prop} {_ : Decidable c} {u : State} (h : OnlyFabric s u) : OnlyFabric s (if c then u else s) := by
  split
  · exact h
  · exact .refl s

theorem onlyFabric_setTile (t : Nat) (x : Tile) : OnlyFabric s (s.setTile t x) := rfl
theorem onlyFabric_setRegion (r : Nat) (x : Region) : OnlyFabric s (s.setRegion r x) := rfl
theorem onlyFabric_modRegion (r : Nat) (f : Region → Region) : OnlyFabric s (s.modRegion r f) := rfl

theorem onlyFabric_setRpw (pr : Nat) (x : RegionPw) : OnlyFabric s (s.setRpw pr x) := rfl

theorem onlyFabric_traceRec (src kind : Nat) (data : List Byte) : OnlyFabric s (s.traceRec src kind data) := by
  obtain ⟨t, n, e⟩ := traceRec_eq s src kind data
  rw [e]
  rfl

theorem onlyFabric_stopTiles (d : DomKind × Nat) : OnlyFabric s (s.stopTiles d) := by
  unfold State.stopTiles
  split
  · split
    · rename_i r _
      exact (OnlyFabric.forEach (regionTiles r) (fun u t => onlyFabric_setTile u t _) s).free _
    · exact .refl s
  · exact .refl s

theorem onlyFabric_lendsLost (r n : Nat) : OnlyFabric s (s.lendsLost r n) :=
  .forEach _ (fun s _ => onlyFabric_setRegion s _ _) s

theorem onlyFabric_clearDataflow (r : Nat) : OnlyFabric s (s.clearDataflow r) := by
  have h := OnlyFabric.forEach (f := fun s t => s.setTile t ((s.tile t).cleared s.freeCount)) (regionTiles r) (fun s t => onlyFabric_setTile s t _) s
  unfold State.clearDataflow
  generalize forEach (regionTiles r) s (fun s t => s.setTile t ((s.tile t).cleared s.freeCount)) = u at h ⊢
  dsimp only
  exact (h.trans ((onlyFabric_setRegion u r _).trans (onlyFabric_lendsLost _ r _))).free _

theorem onlyFabric_keepCounts (u : State) (r : Nat) : OnlyFabric u (u.keepCounts s r) :=
  (onlyFabric_modRegion u r _).trans (OnlyFabric.forEach _ (fun v t => onlyFabric_setTile v t _) _)

theorem onlyFabric_closeShutter (pr : Nat) (w : Shutter) : OnlyFabric s (s.closeShutter pr w) := by
  unfold State.closeShutter
  dsimp only
  generalize hu : (s.setRpw pr { s.rpw pr with vset := 0, shutter := w, floorAt := none }).traceRec (srcDie (pr / 28)) trShutter (leBytes 1 pr) = u
  have h : OnlyFabric s u := hu ▸ (onlyFabric_setRpw s pr _).trans (onlyFabric_traceRec _ _ _ _)
  split
  · exact (h.trans (onlyFabric_clearDataflow _ _)).trans (onlyFabric_keepCounts _ _ _)
  · exact h

theorem onlyFabric_closeAllowed : OnlyFabric s s.closeAllowed :=
  OnlyFabric.forEach _ (fun u pr => onlyFabric_ite u (onlyFabric_closeShutter u pr _)) s

theorem onlyFabric_openRequired : OnlyFabric s s.openRequired :=
  openRequired_eq s ▸ OnlyFabric.forEach _ (fun u pr => by
    obtain ⟨e, -⟩ | ⟨x, t, n, -, e⟩ := openIfRequired_cases u pr <;> rw [e]
    · exact .refl u
    · rfl) s

end

/-! ## Doors that close and resets that are issued -/

@[simp] theorem cmds_raiseVector (s : State) (v : Nat) : (s.raiseVector v).hi.cmds = s.hi.cmds := by
  unfold State.raiseVector
  split <;> rfl

@[simp] theorem cmds_setCause (s : State) (v : Nat) : (s.setCause v).hi.cmds = s.hi.cmds := by
  unfold State.setCause
  dsimp only
  split
  · rfl
  · split
    · exact cmds_raiseVector _ v
    · rfl

/-- What doors that close and resets that are issued leave alone: the fault records and their number, the commands, the RUN and the update
units. -/
structure KeepsReports (s u : State) : Prop where
  faults : u.rcv.faults = s.rcv.faults
  number : u.obj 0x6010 0 = s.obj 0x6010 0
  cmds   : u.hi.cmds = s.hi.cmds
  run    : u.run = s.run
  upd    : u.upd = s.upd

namespace KeepsReports

theorem refl (s : State) : KeepsReports s s := ⟨rfl, rfl, rfl, rfl, rfl⟩

theorem trans {s u v : State} (h : KeepsReports s u) (k : KeepsReports u v) : KeepsReports s v :=
  ⟨k.faults.trans h.faults, k.number.trans h.number, k.cmds.trans h.cmds, k.run.trans h.run, k.upd.trans h.upd⟩

theorem forEach {α : Type} {f : State → α → State} (xs : List α) (h : ∀ s x, KeepsReports s (f s x)) (s : State) :
    KeepsReports s (Machine.forEach xs s f) :=
  forEach_keeps (KeepsReports s) f xs (fun u x _ k => k.trans (h u x)) s (refl s)

theorem of_onlyFabric {s u : State} (h : OnlyFabric s u) : KeepsReports s u :=
  ⟨h.congr (·.rcv.faults), h.congr (·.obj 0x6010 0), h.congr (·.hi.cmds), h.congr State.run, h.congr State.upd⟩

theorem rcv {s u : State} (h : KeepsReports s u) (r : Recovery) (hr : r.faults = u.rcv.faults) : KeepsReports s { u with rcv := r } :=
  ⟨hr.trans h.faults, h.number, h.cmds, h.run, h.upd⟩

end KeepsReports

section
variable (s : State)

theorem keepsReports_event (src code : Nat) (data : List Byte) : KeepsReports s (s.event src code data) := by
  obtain ⟨l, e⟩ := event_eq s src code data
  rw [e]
  exact ⟨rfl, rfl, rfl, rfl, rfl⟩

theorem keepsReports_traceRec (src kind : Nat) (data : List Byte) : KeepsReports s (s.traceRec src kind data) :=
  .of_onlyFabric (onlyFabric_traceRec s src kind data)

theorem keepsReports_setCause (v : Nat) : KeepsReports s (s.setCause v) := by
  have hc := cmds_setCause s v
  obtain ⟨h, e⟩ := setCause_eq s v
  rw [e] at hc ⊢
  exact ⟨rfl, rfl, hc, rfl, rfl⟩

theorem keepsReports_abandon (d : DomKind × Nat) : KeepsReports s (s.abandon d) := ⟨rfl, rfl, rfl, rfl, rfl⟩

theorem keepsReports_closeDoors (ds : List (DomKind × Nat)) : KeepsReports s (s.closeDoors ds) := by
  refine .forEach ds (fun s d => ?_) s
  split
  · exact .refl s
  · have hstop : KeepsReports s ((s.stopTiles d).abandon d) :=
      (KeepsReports.of_onlyFabric (onlyFabric_stopTiles s d)).trans (keepsReports_abandon _ d)
    refine KeepsReports.trans ?_ (keepsReports_traceRec _ _ _ _)
    exact hstop.rcv _ rfl

/-- RESETS of a domain level is not the number of the newest fault record. -/
theorem keepsReports_bump_resets (k : DomKind) : KeepsReports s (s.bump 0x6401 (domLevel k) 32 1) :=
  ⟨rfl, obj_bump_other s 32 1 (by cases k <;> decide), rfl, rfl, rfl⟩

theorem keepsReports_issueResets (ds : List (DomKind × Nat)) : KeepsReports s (s.issueResets ds) := by
  refine .forEach ds (fun s d => ?_) s
  split
  · exact .refl s
  · dsimp only
    generalize hu : ((s.traceRec srcHelm trReset (leBytes 2 (domKey d.1 d.2))).bump 0x6401 (domLevel d.1) 32 1).event srcHelm
      (0x6A03 + domLevel d.1) [] = u
    have hs : KeepsReports s u := hu ▸ ((keepsReports_traceRec s _ _ _).trans (keepsReports_bump_resets _ _)).trans
      (keepsReports_event _ _ _ _)
    exact (hs.trans (keepsReports_closeDoors u _)).rcv _ rfl

end

/-! ## The record -/

/-- A fault has been recorded under the next number, and the commands, the RUN and the update units stand. -/
structure RecordedOnly (s u : State) (cause : Nat) : Prop where
  records : Records s u cause
  number  : u.obj 0x6010 0 = satAdd 32 (s.obj 0x6010 0) 1
  cmds    : u.hi.cmds = s.hi.cmds
  run     : u.run = s.run
  upd     : u.upd = s.upd

theorem RecordedOnly.keeps {s u v : State} {cause : Nat} (h : RecordedOnly s u cause) (k : KeepsReports u v) : RecordedOnly s v cause :=
  ⟨by rw [Records, k.faults]; exact h.records, k.number.trans h.number, k.cmds.trans h.cmds, k.run.trans h.run, k.upd.trans h.upd⟩

/-- A record lost of the 256 kept is counted, which is not the number of the newest. -/
theorem keepsReports_lost (s : State) (c : Prop) [Decidable c] : KeepsReports s (if c then s.bump 0x6404 0 32 1 else s) := by
  split
  · exact ⟨rfl, obj_bump_other s 32 1 (by decide), rfl, rfl, rfl⟩
  · exact .refl s

/-- Of the records the newest is kept, whatever their number. -/
theorem newest_mem_drop {α : Type} (l : List α) (x : α) : x ∈ (l ++ [x]).drop ((l ++ [x]).length - 256) := by
  rw [List.drop_append_of_le_length (by simp)]
  exact List.mem_append_right _ List.mem_cons_self

/-- The newest record stands among those kept. -/
theorem recordedOnly_newest (s : State) {cause : Nat} (r : FaultRec) (hn : r.number = satAdd 32 (s.obj 0x6010 0) 1) (hc : r.cause = cause)
    (ht : s.now ≤ r.time + 1000 ∧ r.time ≤ s.now + 1000) {v : State} (hv : KeepsReports s v) (l : List FaultRec) (n : Nat) :
    RecordedOnly s (({ v with rcv := { v.rcv with faults := (l ++ [r]).drop ((l ++ [r]).length - 256), incident := n } } : State).setObj
      0x6010 0 (satAdd 32 (s.obj 0x6010 0) 1)) cause := by
  have hmem := newest_mem_drop l r
  generalize (l ++ [r]).drop ((l ++ [r]).length - 256) = kept at hmem
  exact ⟨⟨r, hmem, hn, hc, ht⟩, State.obj_setObj_same _ _ _ _, hv.cmds, hv.run, hv.upd⟩

theorem recordedOnly_recordFault (s : State) (f : FaultIn) (cls outcome domain more : Nat) :
    RecordedOnly s (s.recordFault f cls outcome domain more) f.cause := by
  unfold State.recordFault
  dsimp only
  refine RecordedOnly.keeps ?_ ((keepsReports_setCause _ 16).trans (keepsReports_event _ _ _ _))
  exact recordedOnly_newest s _ rfl rfl (stampAt_bounds s _) (keepsReports_lost s _) _ _

/-! ## A fault of class S -/

theorem keepsReports_phase (s : State) (p : RecPhase) (n : Nat) (b : Bool) :
    KeepsReports s { s with rcv := { s.rcv with phase := p, incident := n, linkHold := b } } := ⟨rfl, rfl, rfl, rfl, rfl⟩

/-- A command ends; every other stands. -/
theorem cmd_endCmd_other (s : State) {seq n : Nat} (code detail result : Nat) (h : n ≠ seq) :
    (s.endCmd seq code detail result).cmd n = s.cmd n :=
  modCmd_cmd_other s _ (fun c => by by_cases hc : c.ended = true <;> simp [hc]) h

/-- The RUN ends; a command that is not the RUN stands. -/
theorem cmd_endRun (s : State) {seq : Nat} (code detail : Nat) (h : ∀ r, s.run = some r → r.seq ≠ seq) :
    (s.endRun code detail).cmd seq = s.cmd seq := by
  unfold State.endRun
  split
  · exact cmd_endCmd_other s code detail _ (h _ ‹_›).symm
  · rfl

/-- What a fault of class S leaves: its record under the next number, every command but the RUN, and the update units. -/
structure RaisedS (s u : State) (cause : Nat) : Prop where
  records : Records s u cause
  number  : u.obj 0x6010 0 = satAdd 32 (s.obj 0x6010 0) 1
  cmd     : ∀ seq, (∀ r, s.run = some r → r.seq ≠ seq) → u.cmd seq = s.cmd seq
  upd     : u.upd = s.upd

theorem RecordedOnly.raisedS {s u : State} {cause : Nat} (h : RecordedOnly s u cause) : RaisedS s u cause :=
  ⟨h.records, h.number, fun _ _ => by rw [State.cmd, h.cmds]; rfl, h.upd⟩

/-- The RUN that a recorded fault ends (15 R445). -/
theorem RecordedOnly.stopRun {s u : State} {cause : Nat} (h : RecordedOnly s u cause) (code detail : Nat) :
    RaisedS s (u.stopRun code detail) cause := by
  have k : RecordedOnly s ((u.closeDoors u.replayDomains).issueResets u.replayDomains) cause :=
    h.keeps ((keepsReports_closeDoors u _).trans (keepsReports_issueResets _ _))
  unfold State.stopRun
  dsimp only
  generalize (u.closeDoors u.replayDomains).issueResets u.replayDomains = v at k ⊢
  have hv : ∀ seq, (∀ r, s.run = some r → r.seq ≠ seq) → (v.endRun code detail).cmd seq = s.cmd seq := fun seq hr =>
    (cmd_endRun v code detail (by rwa [k.run])).trans (k.raisedS.cmd seq hr)
  obtain ⟨hi, e⟩ := endRun_eq v code detail
  rw [e] at hv ⊢
  exact ⟨k.records, k.number, hv, k.upd⟩

/-- A fault of class S of a unit outside the regions (15 R433, R445, R446): its one record, and the end of the RUN if there is one. -/
theorem raisedS_raiseFault (s : State) {f : FaultIn} (hc : f.cls = clsS) (hr : f.region = none) : RaisedS s (s.raiseFault f) f.cause := by
  have hcls : s.effClass f = clsS := (effClass_noRegion s f hr).trans hc
  have hstamp : s.stampR { f with cls := clsS } = s := by simp [State.stampR, hr]
  unfold State.raiseFault State.raiseAs
  rw [hcls, hstamp]
  dsimp only
  split
  · unfold State.joinIncident
    dsimp only
    rw [if_pos rfl]
    generalize (if clsS = clsS ∧ s.running then 1 else 0) = d
    have h := recordedOnly_recordFault s f clsS 6 d 0
    split
    · exact h.stopRun _ _
    · exact h.raisedS
  · split
    · unfold State.openInRun
      dsimp only
      rw [if_pos rfl]
      exact (recordedOnly_recordFault s f clsS 2 1 0).stopRun _ _
    · unfold State.openIdle
      rw [if_neg (by decide)]
      dsimp only
      exact (((recordedOnly_recordFault s f clsS 3 1 0).keeps (keepsReports_issueResets _ _)).keeps
        (keepsReports_phase _ _ _ _)).raisedS

/-- STACK_UE is of class S (15 Table RCV-2). -/
theorem raisedS_stackUe (s : State) (a : Nat) : RaisedS s (s.stackUe a) 0x31 := raisedS_raiseFault s rfl rfl

/-- A command that is not the RUN and meets STACK_UE: the record, device memory as it was, and the command's end that names the record. -/
theorem endUe_spec {s : State} {seq op : Nat} {k : Cmd} (h : s.started seq op = some k) (a n : Nat) :
    Records s (s.endUe seq a n) 0x31 ∧ (s.endUe seq a n).mem = s.mem ∧
      ((∀ r, s.run = some r → r.seq ≠ seq) → Ended (s.endUe seq a n) seq 0x0D (satAdd 32 (s.obj 0x6010 0) 1) n) := by
  have hue := raisedS_stackUe s a
  obtain ⟨hcmd, hopen⟩ := started_spec h
  refine ⟨hue.records, ((kept_stackUe s a).devMem id).1, fun hr => ?_⟩
  rw [← hue.number]
  exact endCmd_ended _ seq _ _ n k ((hue.cmd seq hr).trans hcmd) hopen

end Sys2Proof.Machine
end

section
/-! SUPPORT. What CHART_LOAD makes of the module: fabric, scale records, tiles, counters, barrier (05 R152, R160; 09 R308). -/

namespace Sys2Proof.Machine

/-- What one operation of a list brings about, and every operation of it keeps, the list brings about. -/
theorem forEach_reaches {α : Type} (P : State → Prop) {f : State → α → State} {xs : List α} {x : α} (hx : x ∈ xs) (hset : ∀ s, P (f s x))
    (hkeep : ∀ s, ∀ y ∈ xs, P s → P (f s y)) : ∀ s, P (forEach xs s f) := by
  induction xs with
  | nil => cases hx
  | cons y ys ih =>
    have hrest : ∀ s, ∀ z ∈ ys, P s → P (f s z) := fun s z hz => hkeep s z (List.mem_cons_of_mem _ hz)
    intro s
    rw [forEach_cons]
    obtain rfl | hm := List.mem_cons.1 hx
    · exact forEach_keeps P f ys hrest _ (hset s)
    · exact ih hm hrest _

/-! ## Ready for a chart -/

/-- Tiles, regions and taps emptied: the fabric, the crossings and the ports alone differ, and no crossing holds a token. -/
theorem emptyFabric_eq (s : State) : ∃ u n l, OnlyFabric s u ∧ s.emptyFabric = { u with freeCount := n, transom := [], link := l } :=
  ⟨_, _, _, OnlyFabric.forEach _ (fun u r =>
    (OnlyFabric.forEach (regionTiles r) (fun v t => onlyFabric_setTile v t _) u).trans (onlyFabric_modRegion _ r _)) s, rfl⟩

/-- The module with the chart in place of what was there, its shutters set and its fabric empty. -/
def State.readied (s : State) (c : Chart) : State :=
  (({ s.dropChart with chart := some c, wp := {} } : State).openRequired.closeAllowed).emptyFabric

/-- What a module that has been made ready for a chart has of it, and what it has kept. -/
structure Ready (s : State) (c : Chart) (r : State) : Prop where
  frame   : { r with
    freeCount := s.freeCount, pw := s.pw, chart := s.chart, wp := s.wp, tiles := s.tiles, transom := s.transom, regions := s.regions,
    streams := s.streams, upd := s.upd, redn := s.redn, link := s.link, rcv := s.rcv } = s
  chart   : r.chart = some c
  wp      : r.wp = {}
  transom : r.transom = []
  redn    : r.redn = { barrier := { kept := s.redn.barrier.kept } }

theorem ready_readied (s : State) (c : Chart) : Ready s c (s.readied c) := by
  obtain ⟨u, n, l, h, e⟩ := emptyFabric_eq ({ s.dropChart with chart := some c, wp := {} } : State).openRequired.closeAllowed
  have hu := ((onlyFabric_openRequired _).trans (onlyFabric_closeAllowed _)).trans h
  rw [State.readied, e]
  exact ⟨hu.congr (fun x => { x with
      freeCount := s.freeCount, pw := s.pw, chart := s.chart, wp := s.wp, tiles := s.tiles, transom := s.transom, regions := s.regions,
      streams := s.streams, upd := s.upd, redn := s.redn, link := s.link, rcv := s.rcv }),
    hu.congr State.chart, hu.congr State.wp, rfl, hu.congr State.redn⟩

/-! ## VALID of the scale records -/

/-- Device memory after VALID of every scaled tensor is set to 0 (03 Table FMT-7). -/
theorem restartValid_eq (s : State) (c : Chart) : ∃ m j, s.restartValid c = { s with mem := m, jmem := j } :=
  forEach_keeps (fun u => ∃ m j, u = { s with mem := m, jmem := j }) _ _ (fun u t _ ⟨m, j, e⟩ => by
    obtain ⟨m', j', e'⟩ := devPut_eq u (t.scale + 0xB) 0
    exact ⟨m', j', by rw [e', e]⟩) s ⟨_, _, rfl⟩

theorem devByte_restartValid_other (s : State) (c : Chart) {b : Nat} (h : ∀ t ∈ c.tensors, t.scaled = true → b ≠ t.scale + 0xB) :
    (s.restartValid c).devByte b = s.devByte b :=
  forEach_keeps (fun u => u.devByte b = s.devByte b) _ _ (fun u t ht hu => by
    obtain ⟨hm, hs⟩ := List.mem_filter.1 ht
    exact (devByte_devPut_other u 0 (h t hm hs)).trans hu) s rfl

/-- A zero put at one place leaves the zeros of every other. -/
theorem devByte_devPut_zero {s : State} {b : Nat} (h : s.devByte b = 0) (a : Nat) : (s.devPut a 0).devByte b = 0 := by
  by_cases hb : b = a
  · rw [hb, devByte_devPut_same]
  · rw [devByte_devPut_other s 0 hb, h]

theorem devByte_restartValid_same (s : State) {c : Chart} {t : Tensor} (h : t ∈ c.tensors) (hs : t.scaled = true) :
    (s.restartValid c).devByte (t.scale + 0xB) = 0 :=
  forEach_reaches (fun u => u.devByte (t.scale + 0xB) = 0) (List.mem_filter.2 ⟨h, hs⟩) (fun u => devByte_devPut_same u _ _)
    (fun _ _ _ hu => devByte_devPut_zero hu _) s

/-! ## Tiles -/

/-- A tile as CHART_LOAD leaves it: IDLE, its generator loaded for waypoint 0 (03 R99; 05 R152). -/
def Tile.loaded (x : Tile) (m : TileImg) : Prop := x.st = .idle ∧ x.rng = rngLoad m.seed 0

theorem restoreTile_loaded (s : State) (c : Chart) (i t : Nat) (m : TileImg) : ((s.restoreTile c i t m 0).tile t).loaded m := by
  unfold State.restoreTile State.putTile Tile.loaded
  by_cases hv : s.variant = 8 <;> simp [hv]

theorem tile_restoreTile_other (s : State) (c : Chart) (i : Nat) {t j : Nat} (m : TileImg) (w : Nat) (h : j ≠ t) :
    (s.restoreTile c i t m w).tile j = s.tile j := State.tile_setTile_other _ _ h

/-- The tile images written, in chart tile index order. -/
def State.loadTiles (s : State) (c : Chart) : State :=
  forEach (c.tileList.zip c.tiles).zipIdx s (fun s x => s.restoreTile c x.2 x.1.1 x.1.2 0)

theorem loadTiles_eq (s : State) (c : Chart) : ∃ ts, s.loadTiles c = { s with tiles := ts } :=
  forEach_keeps (fun u => ∃ ts, u = { s with tiles := ts }) _ _ (fun u x _ ⟨ts, e⟩ => by rw [e]; exact ⟨_, rfl⟩) s ⟨_, rfl⟩

/-- Every chart tile stands in the list with its image. -/
theorem tileList_zip (c : Chart) : c.tileList.zip c.tiles = c.tiles.map (fun m => (c.tileOf m, m)) := List.map_prod_right_eq_zip.symm

/-- No two images are of one tile, so that each stays as it was written. -/
theorem loadTiles_loaded (s : State) {c : Chart} (hd : c.tileList.Nodup) {m : TileImg} (hm : m ∈ c.tiles) :
    ((s.loadTiles c).tile (c.tileOf m)).loaded m := by
  have hpair : (c.tileOf m, m) ∈ (c.tileList.zip c.tiles).zipIdx.map Prod.fst := by
    rw [List.zipIdx_map_fst, tileList_zip]
    exact List.mem_map_of_mem hm
  obtain ⟨⟨-, i⟩, hx, rfl⟩ := List.mem_map.1 hpair
  have hnodup : ((c.tileList.zip c.tiles).zipIdx.map (fun x => x.1.1)).Nodup := by
    have : (c.tileList.zip c.tiles).zipIdx.map (fun x => x.1.1) = c.tileList := by
      rw [← Function.comp_def Prod.fst Prod.fst, ← List.map_map, List.zipIdx_map_fst, tileList_zip, List.map_map]
      rfl
    rwa [this]
  refine forEach_reaches (fun u => (u.tile (c.tileOf m)).loaded m) hx (fun u => restoreTile_loaded u c i _ m) (fun u y hy hu => ?_) s
  by_cases he : c.tileOf m = y.1.1
  · rw [← List.inj_on_of_nodup_map hnodup hx hy he]
    exact restoreTile_loaded u c i _ m
  · rwa [tile_restoreTile_other u c _ _ _ he]

/-! ## Counters, update units, the barrier -/

/-- The counters that count from CHART_LOAD, set to 0. -/
def State.zeroCounters (s : State) : State := forEach loadCounters s (fun s k => s.setObj k.1 k.2 0)

theorem zeroCounters_eq (s : State) : ∃ d, s.zeroCounters = { s with dict := d } :=
  forEach_keeps (fun u => ∃ d, u = { s with dict := d }) _ _ (fun u x _ ⟨d, e⟩ => by rw [e]; exact ⟨_, rfl⟩) s ⟨_, rfl⟩

theorem obj_setObj_zero {s : State} {i j : Nat} (h : s.obj i j = 0) (a b : Nat) : (s.setObj a b 0).obj i j = 0 := by
  by_cases hk : okey i j = okey a b
  · unfold State.obj State.setObj
    rw [hk]
    exact tget_tset_same _ _ _ _
  · rw [State.obj_setObj_other s 0 hk, h]

theorem obj_zeroCounters (s : State) {x : Nat × Nat} (h : x ∈ loadCounters) : s.zeroCounters.obj x.1 x.2 = 0 :=
  forEach_reaches (fun u => u.obj x.1 x.2 = 0) h (fun _ => State.obj_setObj_same _ _ _ _) (fun _ _ _ hu => obj_setObj_zero hu _ _) s

theorem restoreUnits_eq (s : State) (c : Chart) (w : Nat) (only : Nat → Bool) : ∃ p, s.restoreUnits c w only = { s with upd := p } := by
  unfold State.restoreUnits
  split
  · exact ⟨_, rfl⟩
  · refine forEach_keeps (fun u => ∃ p, u = { s with upd := p }) _ _ (fun u x _ ⟨p, e⟩ => ?_) s ⟨_, rfl⟩
    rw [e]
    split
    · exact ⟨_, rfl⟩
    · exact ⟨_, rfl⟩

/-- What is for the loaded chart is heard and not kept. -/
theorem hearBarrier_eq {s : State} {f : Nat × Nat × Nat × Bool} (h : s.hears f.1 f.2.1 = true) :
    s.hearBarrier f = s.setRedn { s.redn with barrier := s.redn.barrier.hear s.nextWpt f } := by
  simp [State.hearBarrier, h]

theorem kept_hear (b : Barrier) (next : Nat) (f : Nat × Nat × Nat × Bool) : (b.hear next f).kept = b.kept := by
  unfold Barrier.hear
  dsimp only
  split <;> rfl

/-- Nothing is kept once a chart has been loaded: what is for it has been heard. -/
theorem hearKept_spec (s : State) : ∃ r, s.hearKept = { s with redn := r } ∧ r.barrier.kept = [] ∧ (s.redn.barrier.kept = [] → r = s.redn) := by
  have hall : ∃ r, s.hearKept = { s with redn := r } ∧ r.barrier.kept = [] := by
    refine forEach_keeps (fun u => ∃ r, u = { s with redn := r } ∧ r.barrier.kept = []) _ _ (fun u f hf ⟨r, e, hr⟩ => ?_) _ ⟨_, rfl, rfl⟩
    have hears : u.hears f.1 f.2.1 = true := by
      rw [e]
      exact (List.mem_filter.1 hf).2
    rw [hearBarrier_eq hears, e]
    exact ⟨_, rfl, (kept_hear _ _ _).trans hr⟩
  obtain ⟨r, e, hr⟩ := hall
  refine ⟨r, e, hr, fun hk => ?_⟩
  have hnone : s.hearKept.redn = s.redn := by
    unfold State.hearKept
    rw [hk]
    exact congrArg (fun k => { s.redn with barrier := { s.redn.barrier with kept := k } }) hk.symm
  rw [← hnone, e]

/-! ## The whole -/

/-- CHART_LOAD's work in its order. -/
theorem loadChart_eq (s : State) (c : Chart) : ∃ n, s.loadChart c =
    (((((s.readied c).restartValid c).loadTiles c).zeroCounters.restoreUnits c 0 (fun _ => true)).hearKept).setObj 0x3200 1 n := ⟨_, rfl⟩

/-- What the chart's image fills of a module that has been made ready for it. -/
structure Fills (r : State) (c : Chart) (u : State) : Prop where
  frame    : { u with dict := r.dict, tiles := r.tiles, upd := r.upd, redn := r.redn, mem := r.mem, jmem := r.jmem } = r
  kept     : u.redn.barrier.kept = []
  redn     : r.redn.barrier.kept = [] → u.redn = r.redn
  other    : ∀ b, (∀ t ∈ c.tensors, t.scaled = true → b ≠ t.scale + 0xB) → u.devByte b = r.devByte b
  valid    : ∀ t ∈ c.tensors, t.scaled = true → u.devByte (t.scale + 0xB) = 0
  counters : ∀ x ∈ loadCounters, u.obj x.1 x.2 = 0
  tiles    : c.tileList.Nodup → ∀ m ∈ c.tiles, (u.tile (c.tileOf m)).loaded m

/-- POOL_FREE_MIN, which a load sets after the counters (0x3200), is none of them. -/
theorem poolFreeMin_not_counter : ∀ x ∈ loadCounters, okey x.1 x.2 ≠ okey 0x3200 1 := by decide

theorem fills_loadChart (s : State) (c : Chart) : Fills (s.readied c) c (s.loadChart c) := by
  obtain ⟨n, e⟩ := loadChart_eq s c
  rw [e]
  generalize s.readied c = r
  have hother := @devByte_restartValid_other r c
  have hvalid := @devByte_restartValid_same r c
  obtain ⟨m, j, ea⟩ := restartValid_eq r c
  generalize r.restartValid c = a at hother hvalid ea ⊢
  have htiles := @loadTiles_loaded a c
  obtain ⟨ts, eb⟩ := loadTiles_eq a c
  generalize a.loadTiles c = b at htiles eb ⊢
  have hcount := @obj_zeroCounters b
  obtain ⟨d, ez⟩ := zeroCounters_eq b
  generalize b.zeroCounters = z at hcount ez ⊢
  obtain ⟨p, ew⟩ := restoreUnits_eq z c 0 (fun _ => true)
  obtain ⟨rd, ek, hkept, hredn⟩ := hearKept_spec (z.restoreUnits c 0 (fun _ => true))
  rw [ek]
  rw [ew] at hredn ⊢
  subst ea eb ez
  exact ⟨rfl, hkept, hredn, fun _ => hother, fun _ => hvalid,
    fun x hx => (State.obj_setObj_other _ n (poolFreeMin_not_counter x hx)).trans (hcount hx), fun hd _ => htiles hd⟩

/-- What CHART_LOAD's work leaves and what it makes of the module. -/
structure Loads (s : State) (c : Chart) (u : State) : Prop where
  frame    : { u with
    freeCount := s.freeCount, pw := s.pw, dict := s.dict, chart := s.chart, wp := s.wp, tiles := s.tiles, transom := s.transom,
    regions := s.regions, streams := s.streams, upd := s.upd, redn := s.redn, link := s.link, rcv := s.rcv, mem := s.mem, jmem := s.jmem } = s
  chart    : u.chart = some c
  wp       : u.wp = {}
  transom  : u.transom = []
  kept     : u.redn.barrier.kept = []
  redn     : s.redn.barrier.kept = [] → u.redn = {}
  other    : ∀ b, (∀ t ∈ c.tensors, t.scaled = true → b ≠ t.scale + 0xB) → u.devByte b = s.devByte b
  valid    : ∀ t ∈ c.tensors, t.scaled = true → u.devByte (t.scale + 0xB) = 0
  counters : ∀ x ∈ loadCounters, u.obj x.1 x.2 = 0
  tiles    : c.tileList.Nodup → ∀ m ∈ c.tiles, (u.tile (c.tileOf m)).loaded m

/-- What a function reads outside CHART_LOAD's work is the same. -/
theorem Loads.congr {s u : State} {c : Chart} (h : Loads s c u) {α : Type} (f : State → α) :
    f { u with
      freeCount := s.freeCount, pw := s.pw, dict := s.dict, chart := s.chart, wp := s.wp, tiles := s.tiles, transom := s.transom,
      regions := s.regions, streams := s.streams, upd := s.upd, redn := s.redn, link := s.link, rcv := s.rcv, mem := s.mem,
      jmem := s.jmem } = f s := congrArg f h.frame

theorem loads_loadChart (s : State) (c : Chart) : Loads s c (s.loadChart c) := by
  have hr := ready_readied s c
  have hf := fills_loadChart s c
  generalize s.readied c = r at hr hf
  generalize s.loadChart c = u at hf ⊢
  have keeps : ∀ {α : Type} (f : State → α),
      f { u with dict := r.dict, tiles := r.tiles, upd := r.upd, redn := r.redn, mem := r.mem, jmem := r.jmem } = f r :=
    fun f => congrArg f hf.frame
  exact {
    frame := (keeps (fun x => { x with
      freeCount := s.freeCount, pw := s.pw, dict := s.dict, chart := s.chart, wp := s.wp, tiles := s.tiles, transom := s.transom,
      regions := s.regions, streams := s.streams, upd := s.upd, redn := s.redn, link := s.link, rcv := s.rcv, mem := s.mem,
      jmem := s.jmem })).trans (congrArg (fun x : State => { x with dict := s.dict, mem := s.mem, jmem := s.jmem }) hr.frame)
    chart := (keeps State.chart).trans hr.chart
    wp := (keeps State.wp).trans hr.wp
    transom := (keeps State.transom).trans hr.transom
    kept := hf.kept
    redn := fun h => (hf.redn (by rw [hr.redn, h])).trans (by rw [hr.redn, h])
    other := fun b hb => (hf.other b hb).trans (congrArg (·.devByte b) hr.frame)
    valid := hf.valid
    counters := hf.counters
    tiles := hf.tiles }

end Sys2Proof.Machine
end

section
/-! SUPPORT. What the finish of a commit and CHART_UNLOAD leave and what they make of the module (05 R148; 07 R234; 10 R313, R334; 15 R431). -/

namespace Sys2Proof.Machine

/-! ## Commands, ports and waypoints that stand -/

/-- The commands in hand, the links and the waypoint register are the same. -/
structure CommandsStand (s u : State) : Prop where
  cmds : u.hi.cmds = s.hi.cmds
  link : u.link = s.link
  wp   : u.wp = s.wp

namespace CommandsStand

theorem refl (s : State) : CommandsStand s s := ⟨rfl, rfl, rfl⟩

theorem trans {s u v : State} (h : CommandsStand s u) (k : CommandsStand u v) : CommandsStand s v :=
  ⟨k.cmds.trans h.cmds, k.link.trans h.link, k.wp.trans h.wp⟩

theorem forEach {α : Type} {f : State → α → State} (xs : List α) (h : ∀ s x, CommandsStand s (f s x)) (s : State) :
    CommandsStand s (Machine.forEach xs s f) :=
  forEach_keeps (CommandsStand s) f xs (fun u x _ k => k.trans (h u x)) s (refl s)

theorem opt {c : Prop} {_ : Decidable c} {s u : State} (h : CommandsStand s u) : CommandsStand s (if c then u else s) := by
  split
  · exact h
  · exact refl s

theorem devWrite {s u : State} (h : CommandsStand s u) (a : Nat) (bs : List Byte) : CommandsStand s (u.devWrite a bs) := by
  obtain ⟨m, j, e⟩ := devWrite_eq bs u a
  rw [e]
  exact ⟨h.cmds, h.link, h.wp⟩

theorem event {s u : State} (h : CommandsStand s u) (src code : Nat) (data : List Byte) : CommandsStand s (u.event src code data) := by
  obtain ⟨l, e⟩ := event_eq u src code data
  rw [e]
  exact ⟨h.cmds, h.link, h.wp⟩

theorem setUnit {s u : State} (h : CommandsStand s u) (n : Nat) (x : UpdUnit) : CommandsStand s (u.setUnit n x) := ⟨h.cmds, h.link, h.wp⟩
theorem bump {s u : State} (h : CommandsStand s u) (i j b k : Nat) : CommandsStand s (u.bump i j b k) := ⟨h.cmds, h.link, h.wp⟩
theorem hostMem {s u : State} (h : CommandsStand s u) (m : Memory) : CommandsStand s { u with hostMem := m } := ⟨h.cmds, h.link, h.wp⟩
theorem upd {s u : State} (h : CommandsStand s u) (p : Update) : CommandsStand s { u with upd := p } := ⟨h.cmds, h.link, h.wp⟩
theorem modRegion {s u : State} (h : CommandsStand s u) (r : Nat) (f : Region → Region) : CommandsStand s (u.modRegion r f) :=
  ⟨h.cmds, h.link, h.wp⟩
theorem modTile {s u : State} (h : CommandsStand s u) (t : Nat) (f : Tile → Tile) : CommandsStand s (u.modTile t f) := ⟨h.cmds, h.link, h.wp⟩

end CommandsStand

/-! ## The elements of a commit -/

section
variable (s : State) (u : Nat) (cu : Upd) (x : UnitRec) (e : CElem)

theorem commandsStand_countBlock (b : NewBlock) : CommandsStand s (s.countBlock u e b) := by
  have hb : CommandsStand s ((s.bump 0x9041 3 64 b.bad.length).bump 0x9041 4 64 b.sats) := ((CommandsStand.refl s).bump _ _ _ _).bump _ _ _ _
  unfold State.countBlock
  dsimp only
  split
  · exact hb
  · split
    · exact hb
    · exact (hb.upd _).event _ _ _

theorem commandsStand_weightImage (bs : List Byte) : CommandsStand s (s.weightImage e bs) :=
  ((CommandsStand.refl s).devWrite _ _).opt

theorem commandsStand_poolPush (l : Nat) : CommandsStand s (s.poolPush u x l) := ((CommandsStand.refl s).devWrite _ _).setUnit _ _

theorem commandsStand_nextElem : CommandsStand s (s.nextElem u) := (CommandsStand.refl s).setUnit _ _

/-- A unit's fault is of class S where its cause is, and leaves the unit where it stood. -/
theorem unit_unitFault (d : List Byte) : (s.unitFault u 0x30 d).unit u = s.unit u := by
  rw [State.unit, State.unitFault, (raisedS_raiseFault s rfl rfl).upd]
  rfl

/-- An element of a group in the stack that is done leaves the commands; one that finds the pool at odds with the map is not done. -/
theorem commandsStand_stackElem (h : ((s.stackElem u cu x e).unit u).pos ≠ (s.unit u).pos) : CommandsStand s (s.stackElem u cu x e) := by
  unfold State.stackElem at h ⊢
  dsimp only at h ⊢
  split at h
  · split at h
    · exact absurd (congrArg UpdUnit.pos (unit_unitFault s u _)) h
    · rw [if_pos ‹_›, if_neg ‹_›]
      exact ((((commandsStand_poolPush s u x _).trans (commandsStand_weightImage _ e _)).bump _ _ _ _).trans (commandsStand_nextElem _ u))
  · rw [if_neg ‹_›]
    exact (((((((commandsStand_countBlock s u e _).devWrite _ _).devWrite _ _).trans (commandsStand_poolPush _ u x _)).trans
      (commandsStand_weightImage _ e _)).bump _ _ _ _).trans (commandsStand_nextElem _ u))

theorem commandsStand_chargePage : CommandsStand s (s.chargePage u) := by
  unfold State.chargePage
  dsimp only
  split
  · exact .refl s
  · exact ((((CommandsStand.refl s).modRegion _ _).bump _ _ _ _).setUnit _ _)

theorem commandsStand_hostElem : CommandsStand s (s.hostElem u cu x e) := by
  unfold State.hostElem
  dsimp only
  split
  · exact commandsStand_chargePage s u
  · split
    · exact ((commandsStand_weightImage s e _).bump _ _ _ _).trans (commandsStand_nextElem _ u)
    · split
      · exact ((commandsStand_countBlock s u e _).devWrite _ _).setUnit _ _
      · split
        · exact ((((CommandsStand.refl s).devWrite _ _).trans (commandsStand_weightImage _ e _)).bump _ _ _ _).trans (commandsStand_nextElem _ u)
        · exact .refl s

theorem commandsStand_pageElem : CommandsStand s (s.pageElem u cu x e) := ((CommandsStand.refl s).devWrite _ _).setUnit _ _

theorem commandsStand_backElem : CommandsStand s (s.backElem u cu x e) := ((CommandsStand.refl s).hostMem _).setUnit _ _

theorem commandsStand_wholeElem (h : ((s.wholeElem u cu x e).unit u).pos ≠ (s.unit u).pos) : CommandsStand s (s.wholeElem u cu x e) := by
  unfold State.wholeElem at h ⊢
  split at h
  · rw [if_pos ‹_›]
    exact ((commandsStand_pageElem s u cu x e).trans (commandsStand_hostElem _ u cu x e)).trans
      ((commandsStand_backElem _ u cu x e).trans (commandsStand_hostElem _ u cu x e)).opt
  · rw [if_neg ‹_›]
    exact commandsStand_stackElem s u cu x e h

end

/-! ## The finish of a commit -/

/-- Elements that are all done leave the commands: what a fault would do is not among them. -/
theorem commandsStand_wholeCommit (u : Nat) (cu : Upd) (x : UnitRec) (err : Option FinishErr) (n : Nat) : ∀ s : State,
    (State.wholeCommit u cu x err n s).1 = true → CommandsStand s (State.wholeCommit u cu x err n s).2 := by
  induction n with
  | zero => exact fun s _ => .refl s
  | succ n ih =>
    intro s
    unfold State.wholeCommit
    dsimp only
    split
    · exact fun _ => .refl s
    · split
      · exact fun h => absurd h Bool.false_ne_true
      · split
        · exact fun h => absurd h Bool.false_ne_true
        · exact fun h => (commandsStand_wholeElem s u cu x _ ‹_›).trans (ih _ h)

theorem commandsStand_finishUnit (s : State) (cu : Upd) (copy : Nat) (err : Option FinishErr) (x : UnitRec × Nat)
    (h : (s.finishUnit cu copy err x).1 = true) : CommandsStand s (s.finishUnit cu copy err x).2 := by
  unfold State.finishUnit at h ⊢
  dsimp only at h ⊢
  split at h
  · have hw := commandsStand_wholeCommit _ cu x.1 err _ _ ‹_›
    rw [if_pos ‹_›]
    exact ((((CommandsStand.refl s).setUnit _ _).trans hw).devWrite _ _).setUnit _ _
  · exact absurd h ‹_›

theorem commandsStand_finishUnits (cu : Upd) (copy : Nat) (err : Option FinishErr) (xs : List (UnitRec × Nat)) : ∀ s : State,
    (State.finishUnits cu copy err xs s).1 = true → CommandsStand s (State.finishUnits cu copy err xs s).2 := by
  induction xs with
  | nil => exact fun s _ => .refl s
  | cons x xs ih =>
    intro s
    unfold State.finishUnits
    dsimp only
    split
    · exact fun h => (commandsStand_finishUnit s cu copy err x ‹_›).trans (ih _ h)
    · exact fun h => absurd h ‹_›

theorem commandsStand_restoreUnits (s : State) (c : Chart) (w : Nat) (only : Nat → Bool) : CommandsStand s (s.restoreUnits c w only) := by
  obtain ⟨p, e⟩ := restoreUnits_eq s c w only
  rw [e]
  exact (CommandsStand.refl s).upd p

/-- A commit that is finished, or that there was none to finish, leaves the commands (R234). -/
theorem commandsStand_finishCommit (s : State) (c : Chart) (err : Option FinishErr) (h : (s.finishCommit c err).1 = true) :
    CommandsStand s (s.finishCommit c err).2 := by
  unfold State.finishCommit at h ⊢
  split
  · exact .refl s
  · rename_i cu hcu
    rw [hcu] at h
    dsimp only at h ⊢
    split
    · rw [if_pos ‹_›] at h
      have hunits : ∀ r, (if s.devNat cu.commit 1 = 1 then State.finishUnits cu (c.stepEndOf s.wp.count % 2) err cu.units.zipIdx
          (s.restoreUnits c s.wp.count (fun _ => true)) else (true, s)) = r → r.1 = true → CommandsStand s r.2 := by
        rintro r rfl
        split
        · exact fun hr => (commandsStand_restoreUnits s c _ _).trans (commandsStand_finishUnits cu _ err _ _ hr)
        · exact fun _ => .refl s
      generalize hr : (if s.devNat cu.commit 1 = 1 then State.finishUnits cu (c.stepEndOf s.wp.count % 2) err cu.units.zipIdx
          (s.restoreUnits c s.wp.count (fun _ => true)) else (true, s)) = r at h ⊢
      split at h
      · rw [if_pos ‹_›]
        exact (((hunits r hr ‹_›).devWrite _ _).devWrite _ _).upd _
      · exact absurd h ‹_›
    · exact .refl s

/-! ## The fabric of an unloaded chart -/

theorem commandsStand_cleanLine (s : State) (r key : Nat) (l : Line) : CommandsStand s (s.cleanLine r key l) := by
  have hwrite : ∀ (u : State) (space a : Nat) (bs : List Byte), CommandsStand u (u.tierWrite space a bs) := by
    intro u space a bs
    unfold State.tierWrite
    split
    · exact (CommandsStand.refl u).devWrite _ _
    · split
      · exact (CommandsStand.refl u).hostMem _
      · exact .refl u
  unfold State.cleanLine
  dsimp only
  exact ((hwrite s _ _ _).opt.trans (hwrite _ _ _ _).opt).modRegion _ _

theorem commandsStand_cleanAll (s : State) (r : Nat) : CommandsStand s (s.cleanAll r) := by
  unfold State.cleanAll
  exact .forEach (f := fun s (l : Nat × Line) => s.cleanLine r l.1 l.2) _ (fun u l => commandsStand_cleanLine u r l.1 l.2) s

/-- The requests that waited are served: device memory and the host interface's requests and answer alone may change. -/
theorem serveHeld_eq (s : State) : ∃ held reply m j, s.serveHeld = { s with hi := { s.hi with held := held, reply := reply }, mem := m, jmem := j } := by
  unfold State.serveHeld
  split
  · exact ⟨_, _, _, _, rfl⟩
  · dsimp only
    refine forEach_keeps (fun u => ∃ held reply m j, u = { s with hi := { s.hi with held := held, reply := reply }, mem := m, jmem := j }) _ _
      (fun u x _ ⟨held, reply, m, j, e⟩ => ?_) _ ⟨_, _, _, _, rfl⟩
    rw [e]
    split
    · rename_i d _
      obtain ⟨m', j', e'⟩ := devWrite_eq d ({ s with hi := { s.hi with held := held, reply := reply }, mem := m, jmem := j } : State) x.addr
      exact ⟨held, reply, m', j', e'⟩
    · exact ⟨_, _, _, _, rfl⟩

/-- One door opens, before what waits is served. -/
def State.unclose (s : State) (d : DomKind × Nat) : State :=
  ({ s with rcv := { s.rcv with closed := s.rcv.closed.filter (fun x => decide (x ≠ d)) } } : State).traceRec
    (domSrc d.1 d.2) trDoor (leBytes 2 (domKey d.1 d.2) ++ [1])

theorem unclose_eq (s : State) (d : DomKind × Nat) : ∃ t n, s.unclose d =
    { s with rcv := { s.rcv with closed := s.rcv.closed.filter (fun x => decide (x ≠ d)), traceq := t, shed := n } } := by
  obtain ⟨t, n, e⟩ := traceRec_eq _ _ _ _
  exact ⟨t, n, e⟩

/-- With every door that stands closed named, none is closed afterwards. -/
theorem forEach_unclose (ds : List (DomKind × Nat)) : ∀ s : State, (∀ d ∈ s.rcv.closed, d ∈ ds) → ∃ t n, forEach ds s State.unclose =
    { s with rcv := { s.rcv with closed := [], traceq := t, shed := n } } := by
  induction ds with
  | nil =>
    intro s h
    have hnone : s.rcv.closed = [] := List.eq_nil_iff_forall_not_mem.2 (fun d hd => List.not_mem_nil (h d hd))
    exact ⟨_, _, congrArg (fun ds => { s with rcv := { s.rcv with closed := ds } }) hnone⟩
  | cons d ds ih =>
    intro s h
    obtain ⟨t, n, e⟩ := unclose_eq s d
    have hrest : ∀ x ∈ (s.unclose d).rcv.closed, x ∈ ds := fun x hx => by
      rw [e] at hx
      obtain ⟨hm, hne⟩ := List.mem_filter.1 hx
      exact (List.mem_cons.1 (h x hm)).resolve_left (of_decide_eq_true hne)
    obtain ⟨t', n', e'⟩ := ih _ hrest
    refine ⟨t', n', ?_⟩
    rw [forEach_cons, e', e]

/-- Every closed door opens (15 R431): no door is closed, and the doors, the requests that waited and what they wrote are all that differs. -/
theorem openDoors_all (s : State) : ∃ t n held reply m j, s.openDoors s.rcv.closed =
    { s with rcv := { s.rcv with closed := [], traceq := t, shed := n }, hi := { s.hi with held := held, reply := reply }, mem := m, jmem := j } := by
  have hall : s.rcv.closed.filter (fun d => s.rcv.closed.contains d) = s.rcv.closed :=
    List.filter_eq_self.2 (fun d hd => by simpa using hd)
  obtain ⟨t, n, e⟩ := forEach_unclose s.rcv.closed s (fun _ => id)
  obtain ⟨held, reply, m, j, e'⟩ := serveHeld_eq (forEach s.rcv.closed s State.unclose)
  refine ⟨t, n, held, reply, m, j, ?_⟩
  rw [State.openDoors, hall]
  exact e'.trans (by rw [e])

/-! ## IDLE tiles -/

/-- A tile is IDLE. -/
def TileIdle (t : Nat) (s : State) : Prop := (s.tile t).st = .idle

theorem TileIdle.setTile {s : State} {t j : Nat} {x : Tile} (h : TileIdle t s) (hx : j = t → x.st = .idle) : TileIdle t (s.setTile j x) := by
  unfold TileIdle
  by_cases hj : t = j
  · rw [hj, State.tile_setTile_same]
    exact hx hj.symm
  · rwa [State.tile_setTile_other s x hj]

/-- What borrowers lose is no tile's. -/
theorem tiles_lendsLost (s : State) (r n : Nat) : (s.lendsLost r n).tiles = s.tiles := by
  refine forEach_keeps (fun u => u.tiles = s.tiles) _ _ (fun u b _ hu => ?_) s rfl
  exact hu

theorem TileIdle.clearDataflow {s : State} {t : Nat} (h : TileIdle t s) (r : Nat) : TileIdle t (s.clearDataflow r) := by
  have htiles := forEach_keeps (TileIdle t) (fun s i => s.setTile i ((s.tile i).cleared s.freeCount)) (regionTiles r)
    (fun v i _ hv => hv.setTile (fun _ => rfl)) s h
  unfold State.clearDataflow
  generalize forEach (regionTiles r) s (fun s i => s.setTile i ((s.tile i).cleared s.freeCount)) = v at htiles ⊢
  dsimp only
  unfold TileIdle State.tile
  rw [tiles_lendsLost]
  exact htiles

theorem TileIdle.keepCounts {u : State} {t : Nat} (h : TileIdle t u) (s : State) (r : Nat) : TileIdle t (u.keepCounts s r) :=
  forEach_keeps (TileIdle t) _ _ (fun v i _ hv => hv.setTile (fun e => by rw [e]; exact hv)) _ h

/-- A shutter that closes leaves its tiles IDLE, as a reset of their region does, and every other tile as it was. -/
theorem TileIdle.closeShutter {s : State} {t : Nat} (h : TileIdle t s) (pr : Nat) (w : Shutter) : TileIdle t (s.closeShutter pr w) := by
  unfold State.closeShutter
  dsimp only
  generalize hu : (s.setRpw pr { s.rpw pr with vset := 0, shutter := w, floorAt := none }).traceRec (srcDie (pr / 28)) trShutter (leBytes 1 pr) = u
  have hidle : TileIdle t u := by
    obtain ⟨q, n, e⟩ := traceRec_eq (s.setRpw pr { s.rpw pr with vset := 0, shutter := w, floorAt := none }) (srcDie (pr / 28)) trShutter
      (leBytes 1 pr)
    rw [← hu, e]
    exact h
  split
  · exact (hidle.clearDataflow _).keepCounts _ _
  · exact hidle

theorem TileIdle.closeAllowed {s : State} {t : Nat} (h : TileIdle t s) : TileIdle t s.closeAllowed :=
  forEach_keeps (TileIdle t) _ _ (fun u pr _ hu => by
    split
    · exact hu.closeShutter pr _
    · exact hu) s h

/-! ## Links that come into effect and ports that train afresh -/

/-- What a command that no port copies for sees of the links' work: itself, and that no port copies for it. -/
structure LinkWork (seq : Nat) (s u : State) : Prop where
  frame  : { u with hi := s.hi, link := s.link, dict := s.dict, log := s.log } = s
  cmd    : u.cmd seq = s.cmd seq
  copies : NoCopyOf u seq

theorem LinkWork.refl {seq : Nat} {s : State} (h : NoCopyOf s seq) : LinkWork seq s s := ⟨rfl, rfl, h⟩

theorem LinkWork.trans {seq : Nat} {s u v : State} (h : LinkWork seq s u) (k : LinkWork seq u v) : LinkWork seq s v :=
  ⟨(congrArg (fun x : State => { x with hi := s.hi, link := s.link, dict := s.dict, log := s.log }) k.frame).trans h.frame,
    k.cmd.trans h.cmd, k.copies⟩

theorem LinkWork.forEach {seq : Nat} {α : Type} {f : State → α → State} (xs : List α) (hf : ∀ s x, NoCopyOf s seq → LinkWork seq s (f s x))
    {s : State} (h : NoCopyOf s seq) : LinkWork seq s (Machine.forEach xs s f) :=
  forEach_keeps (LinkWork seq s) f xs (fun u x _ k => k.trans (hf u x k.copies)) s (.refl h)

section
variable {s : State} {seq : Nat} (h : NoCopyOf s seq) (p : Nat)
include h

/-- A port whose copies stand or go, where nothing else of the ports differs. -/
theorem NoCopyOf.onlyPort {u : State} (hu : OnlyPortAndHost p s u) (hc : ∀ x ∈ (u.port p).copies, x.1 ≠ seq) : NoCopyOf u seq := by
  intro q
  by_cases hq : q = p
  · rwa [hq]
  · rw [hu.2 q hq]
    exact h q

/-- Work on one port that leaves the command and copies nothing for it. -/
theorem OnlyPortAndHost.linkWork {u : State} (hu : OnlyPortAndHost p s u) (hcmd : u.cmd seq = s.cmd seq)
    (hc : ∀ x ∈ (u.port p).copies, x.1 ≠ seq) : LinkWork seq s u :=
  ⟨congrArg (fun x : State => { x with link := s.link, dict := s.dict, log := s.log }) hu.1, hcmd, h.onlyPort p hu hc⟩

theorem cmd_dropCopies : (s.dropCopies p).cmd seq = s.cmd seq :=
  forEach_keeps (fun u => u.cmd seq = s.cmd seq) _ _ (fun u x hx hu => (cmd_endCmd_other u _ _ _ (h p x hx).symm).trans hu) s rfl

theorem linkWork_dropCopies : LinkWork seq s (s.dropCopies p) := by
  obtain ⟨hp, hc⟩ := dropCopies_spec s p
  exact hp.linkWork h p (cmd_dropCopies h p) (by simp [hc])

theorem linkWork_modPort {f : Port → Port} (hf : ∀ x, (f x).copies = x.copies) : LinkWork seq s (s.modPort p f) :=
  (onlyPortAndHost_modPort s p f).linkWork h p rfl (by rw [port_modPort_same, hf]; exact h p)

theorem linkWork_portTo (st : PortSt) : LinkWork seq s (s.portTo p st) := by
  obtain ⟨hp, -, hc⟩ := portTo_spec s p st
  refine hp.linkWork h p ?_ (by rw [hc]; exact h p)
  unfold State.portTo
  split
  · rfl
  · rw [State.cmd, cmds_setCause]
    rfl

theorem linkWork_trainAfresh : LinkWork seq s (s.trainAfresh p) :=
  have hd := linkWork_dropCopies h p
  have ht := linkWork_portTo hd.copies p .down
  (hd.trans ht).trans (linkWork_modPort ht.copies p (fun _ => rfl))

theorem linkWork_trainFail (code : Nat) : LinkWork seq s (s.trainFail p code) := by
  have hd := linkWork_dropCopies h p
  have ht := linkWork_portTo hd.copies p .down
  have hv := hd.trans ht
  unfold State.trainFail
  dsimp only
  generalize (s.dropCopies p).portTo p .down = v at hv ⊢
  have hm := hv.trans (linkWork_modPort hv.copies p (f := fun x => { x.fallen with retryAt := some (v.now + 1000000000) }) (fun _ => rfl))
  generalize v.modPort p (fun x => { x.fallen with retryAt := some (v.now + 1000000000) }) = w at hm ⊢
  obtain ⟨l, e⟩ := event_eq ((w.setObj (0x5020 + p) 4 code).bump (0x5020 + p) 0xA 32 1) (srcLink p) 0x5B03 (leBytes 1 p ++ leBytes 1 code)
  rw [e]
  exact ⟨hm.frame, hm.cmd, hm.copies⟩

theorem linkWork_torusEffect : LinkWork seq s s.torusEffect := by
  unfold State.torusEffect
  dsimp only
  split
  · split
    · exact .refl h
    · have hstart : LinkWork seq s { s with link := { s.link with len := s.storedLen, pos := s.storedPos } } := ⟨rfl, rfl, h⟩
      refine hstart.trans (.forEach _ (fun u p hu => ?_) hstart.copies)
      split
      · exact linkWork_trainAfresh hu p
      · split
        · exact linkWork_modPort hu p (fun _ => rfl)
        · exact .refl hu
  · refine .forEach _ (fun u p hu => ?_) h
    split
    · exact linkWork_trainFail hu p _
    · exact .refl hu

theorem linkWork_retrainDegraded : LinkWork seq s s.retrainDegraded :=
  .forEach _ (fun u p hu => by
    dsimp only
    split
    · exact linkWork_trainAfresh hu p
    · exact .refl hu) h

end

/-! ## The whole -/

/-- The chart put away: dirty halves written back, region stores empty, its tiles IDLE. -/
def State.putAway (s : State) (c : Chart) : State :=
  let s := forEach c.placed s (fun s r => s.cleanAll r)
  let s := forEach s.allRegions s (fun s r => s.modRegion r (fun x => { x with lines := [], fills := [], ready := false }))
  forEach c.tileList s (fun s t => s.modTile t (fun x => { x with st := .idle, firing := none, sxcap := none }))

/-- No chart, no crossing, no tap. -/
def State.withoutChart (s : State) : State :=
  let s := { s.dropChart with transom := [] }
  { s with link := { s.link with ports := s.link.ports.map (fun (p : Nat × Port) => (p.1, { p.2 with taps := [] })) } }

theorem unloadChart_eq (s : State) (c : Chart) : s.unloadChart c =
    (((s.putAway c).openDoors (s.putAway c).rcv.closed).withoutChart.closeAllowed.torusEffect).retrainDegraded := rfl

theorem commandsStand_putAway (s : State) (c : Chart) : CommandsStand s (s.putAway c) :=
  ((CommandsStand.forEach c.placed commandsStand_cleanAll s).trans
    (.forEach _ (fun u _ => (CommandsStand.refl u).modRegion _ _) _)).trans (.forEach _ (fun u _ => (CommandsStand.refl u).modTile _ _) _)

/-- A tile is made IDLE. -/
theorem tileIdle_modTile (s : State) (t : Nat) {f : Tile → Tile} (hf : ∀ x, (f x).st = .idle) : TileIdle t (s.modTile t f) := by
  rw [TileIdle, State.tile_modTile_same]
  exact hf _

theorem tileIdle_putAway (s : State) {c : Chart} {t : Nat} (h : t ∈ c.tileList) : TileIdle t (s.putAway c) := by
  unfold State.putAway
  refine forEach_reaches (TileIdle t) h ?_ ?_ _
  · exact fun u => tileIdle_modTile u t (fun _ => rfl)
  · exact fun _ _ _ hu => hu.setTile (fun _ => rfl)

/-- The taps go and the copies stay. -/
theorem copies_withoutChart (s : State) (p : Nat) : (s.withoutChart.port p).copies = (s.port p).copies := by
  unfold State.withoutChart State.port State.dropChart
  dsimp only
  induction s.link.ports with
  | nil => rfl
  | cons x xs ih =>
    by_cases hx : x.1 = p
    · simp [tget, hx]
    · simpa [tget, hx] using ih

/-- What CHART_UNLOAD makes of the module, whose commands, the one that unloads among them, stand. -/
theorem unloadChart_spec {s : State} {seq : Nat} (c : Chart) (h : NoCopyOf s seq) : (s.unloadChart c).cmd seq = s.cmd seq ∧
    (s.unloadChart c).chart = none ∧ (s.unloadChart c).wp = { reg := s.wp.reg } ∧ (s.unloadChart c).rcv.closed = [] ∧
    (s.unloadChart c).streams = [] ∧ ∀ t ∈ c.tileList, TileIdle t (s.unloadChart c) := by
  have hstand := commandsStand_putAway s c
  have hidle := fun t => tileIdle_putAway s (c := c) (t := t)
  rw [unloadChart_eq]
  generalize s.putAway c = v at hstand hidle ⊢
  obtain ⟨q, n, held, reply, m, j, e⟩ := openDoors_all v
  rw [e]
  generalize hw : State.withoutChart { v with
    rcv := { v.rcv with closed := [], traceq := q, shed := n }, hi := { v.hi with held := held, reply := reply }, mem := m, jmem := j } = w
  have hport : ∀ p, (w.port p).copies = (s.port p).copies := fun p => by
    rw [← hw, copies_withoutChart]
    exact congrArg (fun l : Link => (tget {} l.ports p).copies) hstand.link
  have hcmd : w.cmd seq = s.cmd seq := by
    rw [← hw]
    exact congrArg (fun cs : List Cmd => cs.find? (fun c => decide (c.seq = seq))) hstand.cmds
  have hfab := onlyFabric_closeAllowed w
  have hcopies : NoCopyOf w.closeAllowed seq := fun p x hx => h p x (by
    rw [← hport p]
    exact (hfab.congr (·.port p)) ▸ hx)
  have htorus := linkWork_torusEffect hcopies
  have hlink := htorus.trans (linkWork_retrainDegraded htorus.copies)
  have keeps : ∀ {α : Type} (f : State → α), f { w.closeAllowed.torusEffect.retrainDegraded with
      hi := w.closeAllowed.hi, link := w.closeAllowed.link, dict := w.closeAllowed.dict, log := w.closeAllowed.log } = f w.closeAllowed :=
    fun f => congrArg f hlink.frame
  refine ⟨hlink.cmd.trans ((hfab.congr (·.cmd seq)).trans hcmd), (keeps State.chart).trans ((hfab.congr State.chart).trans ?chart),
    (keeps State.wp).trans ((hfab.congr State.wp).trans ?wp), (keeps (·.rcv.closed)).trans ((hfab.congr (·.rcv.closed)).trans ?closed),
    (keeps State.streams).trans ((hfab.congr State.streams).trans ?streams), fun t ht => ?tiles⟩
  case chart => rw [← hw]; rfl
  case wp =>
    rw [← hw]
    exact congrArg (fun p : Waypoints => ({ reg := p.reg } : Waypoints)) hstand.wp
  case closed => rw [← hw]; rfl
  case streams => rw [← hw]; rfl
  case tiles =>
    have hopen : TileIdle t w := by
      rw [← hw]
      exact hidle t ht
    exact (congrArg Tile.st (keeps (·.tile t))).trans hopen.closeAllowed

end Sys2Proof.Machine
end

section
/-! SUPPORT. How CHART_LOAD, CHART_UNLOAD and BIND answer, branch by branch (11 R350, R351), and what a BIND changes. -/

namespace Sys2Proof.Machine

section
variable {s : State} {seq op : Nat} {k : Cmd}

/-- A command that ends at once changes the host interface alone. -/
theorem ends_of_endCmd {i : Instr} {code detail result : Nat} (h : s.started seq op = some k)
    (he : Completes i s (s.endCmd seq code detail result)) :
    ∃ u, Completes i s u ∧ OnlyHost s u ∧ Ended u seq code detail result := ⟨_, he, rfl, ended_of_started h rfl _ _ _⟩

/-- The context of a command that ends is noted before its end. -/
theorem ended_of_context {u : State} (h : s.started seq op = some k) (hu : u.hi = s.hi) (context code detail result : Nat) :
    Ended ((u.modCmd seq (fun x => { x with context := context })).endCmd seq code detail result) seq code detail result := by
  obtain ⟨hc, he⟩ := started_spec h
  refine endCmd_ended _ seq code detail result { k with context := context } ?_ he
  rw [modCmd_cmd_same u seq (fun x => { x with context := context }) (fun _ => rfl), State.cmd, hu]
  exact congrArg (Option.map fun x => { x with context := context }) hc

end

/-! ## CHART_LOAD -/

/-- The chart of number `id` is measured by its digest, and its CHART_LOAD ends. -/
def State.measured (s : State) (seq id : Nat) (d : List Byte) : State :=
  ((s.extend 2 d).modCmd seq (fun x => { x with context := id })).endCmd seq 0 0 id

theorem measReg_extend (s : State) (i : Nat) (d : List Byte) : (s.extend i d).measReg i = sha256 (s.measReg i ++ d) := tget_tset_same _ _ _ _

/-- What a CHART_LOAD that succeeds makes of the module (R350). -/
theorem measured_spec {s v u : State} {seq : Nat} {k : Cmd} {c : Chart} {d : List Byte} (h : s.started seq 1 = some k)
    (hl : Loads s { c with digest := d } v) (hu : u = v.measured seq c.id d) :
    Ended u seq 0 0 c.id ∧ u.chart = some { c with digest := d } ∧ u.wp = {} ∧ (s.redn.barrier.kept = [] → u.redn = {}) ∧
      u.redn.barrier.kept = [] ∧ u.transom = [] ∧ u.run = s.run ∧
      (∀ b, (∀ t ∈ c.tensors, t.scaled = true → b ≠ t.scale + 0xB) → u.devByte b = s.devByte b) ∧
      (∀ t ∈ c.tensors, t.scaled = true → u.devByte (t.scale + 0xB) = 0) ∧ u.hostMem = s.hostMem ∧ u.obj 0x9020 2 = 0 ∧
      u.measReg 2 = sha256 (s.measReg 2 ++ d) ∧
      (c.tileList.Nodup → ∀ m ∈ c.tiles, (u.tile (c.tileOf m)).st = .idle ∧ (u.tile (c.tileOf m)).rng = rngLoad m.seed 0) := by
  subst hu
  have hhi : v.hi = s.hi := hl.congr State.hi
  have hmeas : v.measReg 2 = s.measReg 2 := hl.congr (·.measReg 2)
  refine ⟨ended_of_context (u := v.extend 2 d) h hhi c.id 0 0 c.id, hl.chart, hl.wp, hl.redn, hl.kept, hl.transom, hl.congr State.run, hl.other, hl.valid,
    hl.congr State.hostMem, hl.counters (0x9020, 2) (by decide), ?_, hl.tiles⟩
  rw [← hmeas]
  exact measReg_extend v 2 d

theorem exec_chartLoad (seq : Nat) (ue : Option Nat) (s : State) : exec (.chartLoad seq ue) s = execChartLoad seq ue s := rfl
theorem exec_chartUnload (seq : Nat) (err : Option FinishErr) (s : State) : exec (.chartUnload seq err) s = execChartUnload seq err s := rfl
theorem exec_bind (seq : Nat) (s : State) : exec (.bind seq) s = execBind seq s := rfl

section
variable {s : State} {seq : Nat} {k : Cmd} {ue : Option Nat} (h : s.started seq 1 = some k)
include h

theorem chartLoad_of_chart {c : Chart} (hc : s.chart = some c) : Completes (.chartLoad seq ue) s (s.endCmd seq 7 0 c.id) := by
  rw [Completes, exec_chartLoad]
  simp [execChartLoad, h, hc]

variable (hc : s.chart = none)
include hc

theorem chartLoad_held (hd : s.stackHeld 0 (fieldAt k.entry 8 8) (s.imageReach (fieldAt k.entry 8 8)) = true) :
    Completes (.chartLoad seq ue) s s := by
  rw [Completes, exec_chartLoad]
  simp [execChartLoad, h, hc, hd]

variable (hd : s.stackHeld 0 (fieldAt k.entry 8 8) (s.imageReach (fieldAt k.entry 8 8)) = false)
include hd

theorem chartLoad_of_ue {x : Nat} (hx : ueIn ue [(fieldAt k.entry 8 8, s.imageReach (fieldAt k.entry 8 8))] = some x) :
    Completes (.chartLoad seq ue) s (s.endUe seq x 0) := by
  rw [Completes, exec_chartLoad]
  simp [execChartLoad, h, hc, hd, hx]

variable (hx : ueIn ue [(fieldAt k.entry 8 8, s.imageReach (fieldAt k.entry 8 8))] = none)
include hx

theorem chartLoad_of_check {f : Fail} (hf : s.chartChecks (fieldAt k.entry 8 8) = some f) :
    Completes (.chartLoad seq ue) s (s.endCmd seq 8 f.code (s.failResult (fieldAt k.entry 8 8) f)) := by
  rw [Completes, exec_chartLoad]
  simp only [execChartLoad, h, hc, hd, Bool.false_eq_true, if_false]
  rw [hx, hf]

variable (hf : s.chartChecks (fieldAt k.entry 8 8) = none)
include hf

theorem chartLoad_rest_held (hr : (s.readChart (fieldAt k.entry 8 8)).loadReach.any (fun r => s.stackHeld 0 r.1 r.2) = true) :
    Completes (.chartLoad seq ue) s s := by
  rw [Completes, exec_chartLoad]
  simp only [execChartLoad, h, hc, hd, Bool.false_eq_true, if_false]
  rw [hx, hf]
  exact if_pos hr

variable (hr : (s.readChart (fieldAt k.entry 8 8)).loadReach.any (fun r => s.stackHeld 0 r.1 r.2) = false)
include hr

theorem chartLoad_rest_of_ue {x : Nat} (hy : ueIn ue (s.readChart (fieldAt k.entry 8 8)).loadReach = some x) :
    Completes (.chartLoad seq ue) s (s.endUe seq x 0) := by
  rw [Completes, exec_chartLoad]
  simp only [execChartLoad, h, hc, hd, Bool.false_eq_true, if_false]
  rw [hx, hf]
  refine (if_neg (Bool.eq_false_iff.1 hr)).trans ?_
  rw [hy]

/-- The image passes: the chart is loaded with its digest, and measured. -/
theorem chartLoad_loads (hy : ueIn ue (s.readChart (fieldAt k.entry 8 8)).loadReach = none) {c : Chart} {d : List Byte}
    (hread : s.readChart (fieldAt k.entry 8 8) = c) (hdig : sha256 (s.devRead (fieldAt k.entry 8 8) c.size) = d) :
    Completes (.chartLoad seq ue) s ((s.loadChart { c with digest := d }).measured seq c.id d) := by
  subst hread hdig
  rw [Completes, exec_chartLoad]
  simp only [execChartLoad, h, hc, hd, Bool.false_eq_true, if_false]
  rw [hx, hf]
  refine (if_neg (Bool.eq_false_iff.1 hr)).trans ?_
  rw [hy]
  rfl

end

/-! ## CHART_UNLOAD -/

/-- A commit that is finished leaves the ports' copies. -/
theorem noCopyOf_finishCommit {s : State} {seq : Nat} {c : Chart} {err : Option FinishErr} (hn : NoCopyOf s seq)
    (hf : (s.finishCommit c err).1 = true) : NoCopyOf (s.finishCommit c err).2 seq := by
  unfold NoCopyOf State.port
  rw [(commandsStand_finishCommit s c err hf).link]
  exact hn

section
variable {s : State} {seq : Nat} {k : Cmd} {err : Option FinishErr} (h : s.started seq 2 = some k)
include h

theorem chartUnload_of_none (hc : s.chart = none) : Completes (.chartUnload seq err) s (s.endCmd seq 6 0 0) := by
  rw [Completes, exec_chartUnload]
  simp [execChartUnload, h, hc]

theorem chartUnload_of_run {c : Chart} {r : Run} (hc : s.chart = some c) (hr : s.run = some r) :
    Completes (.chartUnload seq err) s (s.endCmd seq 5 0 0) := by
  rw [Completes, exec_chartUnload]
  simp [execChartUnload, h, hc, State.running, hr]

theorem chartUnload_unloads {c : Chart} (hc : s.chart = some c) (hr : s.run = none) (hp : s.rcv.phase = .idle)
    (hf : (s.finishCommit c err).1 = true) :
    Completes (.chartUnload seq err) s (((s.finishCommit c err).2.unloadChart c).endCmd seq 0 0 c.id) := by
  rw [Completes, exec_chartUnload]
  simp [execChartUnload, h, hc, State.running, hr, hp, hf]

end

/-- What a CHART_UNLOAD whose commit is finished makes of the module (R350). -/
theorem unloaded_spec {s f u : State} {seq : Nat} {k : Cmd} {c : Chart} (h : s.started seq 2 = some k) (hf : CommandsStand s f)
    (hn : NoCopyOf f seq) (hu : u = (f.unloadChart c).endCmd seq 0 0 c.id) :
    Ended u seq 0 0 c.id ∧ u.chart = none ∧ u.wp = { reg := s.wp.reg } ∧ u.rcv.closed = [] ∧ u.streams = [] ∧
      ∀ t ∈ c.tileList, (u.tile t).st = .idle := by
  subst hu
  obtain ⟨hcmd, hchart, hwp, hclosed, hstreams, htiles⟩ := unloadChart_spec c hn
  obtain ⟨hk, he⟩ := started_spec h
  generalize f.unloadChart c = v at *
  have hv : v.cmd seq = some k := by rw [hcmd, State.cmd, hf.cmds]; exact hk
  exact ⟨endCmd_ended v seq 0 0 c.id k hv he, hchart, hwp.trans (by rw [hf.wp]), hclosed, hstreams, htiles⟩

/-! ## BIND -/

/-- A BIND of a tensor that passes its argument checks names a bound tensor by its size (R351). -/
theorem tensor_of_bindBad {c : Chart} {ix a n : Nat} (h : c.bindBad 0 ix a n = none) :
    ∃ t, c.tensors[ix]? = some t ∧ t.bound = true ∧ t.bytes = n := by
  unfold Chart.bindBad at h
  rw [if_pos rfl] at h
  split at h
  · rename_i t ht
    refine ⟨t, ht, ?_⟩
    by_cases hb : t.bound = true <;> by_cases hn : t.bytes = n <;> simp_all
  · cases h

/-- The chart with a tensor bound at `a` (05 R158). -/
def Chart.bindTensor (c : Chart) (ix a : Nat) : Chart := { c with tensorAt := tset 0 c.tensorAt ix (a + 1) }

/-- The range that a bound tensor is given. -/
theorem tensorRange_bind_same {c : Chart} {ix n : Nat} {t : Tensor} (ht : c.tensors[ix]? = some t) (hb : t.bound = true) (hn : t.bytes = n)
    (a : Nat) : (c.bindTensor ix a).tensorRange ix = some (a, n) := by
  simp [Chart.tensorRange, Chart.bindTensor, ht, hb, hn]

theorem tensorRange_bind_other (c : Chart) {ix j : Nat} (a : Nat) (h : j ≠ ix) : (c.bindTensor ix a).tensorRange j = c.tensorRange j := by
  simp only [Chart.tensorRange, Chart.bindTensor, tget_tset_other 0 c.tensorAt (a + 1) h]

/-- The chart with a host segment bound at `a` (05 R158). -/
def Chart.bindSegment (c : Chart) (ix a : Nat) : Chart := { c with hsegAt := tset 0 c.hsegAt ix (a + 1) }

theorem hsegAt_bindSegment_same (c : Chart) (ix a : Nat) : tget 0 (c.bindSegment ix a).hsegAt ix = a + 1 := tget_tset_same 0 c.hsegAt ix (a + 1)

theorem hsegAt_bindSegment_other (c : Chart) {ix j : Nat} (a : Nat) (h : j ≠ ix) :
    tget 0 (c.bindSegment ix a).hsegAt j = tget 0 c.hsegAt j := tget_tset_other 0 c.hsegAt (a + 1) h

/-- SEED writes device memory alone. -/
theorem setSeed_eq (s : State) (c : Chart) (ix : Nat) : ∃ m j, s.setSeed c ix = { s with mem := m, jmem := j } := by
  unfold State.setSeed
  split
  · split
    · exact devWrite_eq _ _ _
    · exact ⟨_, _, rfl⟩
  · exact ⟨_, _, rfl⟩

theorem devRead_setSeed (s : State) {c : Chart} {ix : Nat} {t : Tensor} (ht : c.tensors[ix]? = some t) (hs : t.scaled = true) :
    (s.setSeed c ix).devRead (t.scale + 4) 4 = leBytes 4 0x3F800000 := by
  have h := devRead_devWrite s (t.scale + 4) (leBytes 4 f32One.toNat)
  rw [length_leBytes] at h
  simp only [State.setSeed, ht, hs, if_true]
  exact h

/-- SEED of an unscaled tensor is nowhere, and that of a scaled one takes its own 4 bytes. -/
theorem devByte_setSeed_other (s : State) {c : Chart} {ix b : Nat} {t : Tensor} (ht : c.tensors[ix]? = some t)
    (h : t.scaled = false ∨ b < t.scale + 4 ∨ t.scale + 8 ≤ b) : (s.setSeed c ix).devByte b = s.devByte b := by
  simp only [State.setSeed, ht]
  split
  · have hout : b < t.scale + 4 ∨ t.scale + 4 + (leBytes 4 f32One.toNat).length ≤ b := by
      rw [length_leBytes]
      exact h.resolve_left (by simp [*])
    exact devByte_devWrite_outside _ s _ hout
  · rfl

/-- What a BIND of a tensor makes of the module (R351). -/
theorem bound_spec {s u : State} {seq ix a n : Nat} {k : Cmd} {c c' : Chart} (h : s.started seq 3 = some k)
    (hb : c.bindBad 0 ix a n = none) (hc' : c' = c.bindTensor ix a)
    (hu : u = (({ s with chart := some c' } : State).setSeed c ix).endCmd seq 0 0 0) :
    Ended u seq 0 0 0 ∧ u.chart = some c' ∧ c'.tensorRange ix = some (a, n) ∧ (∀ j, j ≠ ix → c'.tensorRange j = c.tensorRange j) ∧
      { u with chart := s.chart, hi := s.hi, mem := s.mem, jmem := s.jmem } = s ∧
      ∀ t, c.tensors[ix]? = some t →
        (t.scaled = true → u.devRead (t.scale + 4) 4 = leBytes 4 0x3F800000) ∧
        ∀ b, t.scaled = false ∨ b < t.scale + 4 ∨ t.scale + 8 ≤ b → u.devByte b = s.devByte b := by
  subst hc'
  obtain ⟨t, ht, hbound, hbytes⟩ := tensor_of_bindBad hb
  obtain ⟨m, j, e⟩ := setSeed_eq ({ s with chart := some (c.bindTensor ix a) } : State) c ix
  have hend : u = ({ s with chart := some (c.bindTensor ix a), mem := m, jmem := j } : State).endCmd seq 0 0 0 :=
    hu.trans (congrArg (·.endCmd seq 0 0 0) e)
  refine ⟨?_, ?_, tensorRange_bind_same ht hbound hbytes a, fun j hj => tensorRange_bind_other c _ hj, ?_, fun t ht => ⟨fun hs => ?_, fun b hb => ?_⟩⟩
  · rw [hend]
    exact ended_of_started h rfl _ _ _
  · rw [hend]
    rfl
  · rw [hend]
    rfl
  · rw [hu]
    exact devRead_setSeed _ ht hs
  · rw [hu]
    exact devByte_setSeed_other _ ht hb

/-- What a BIND of a host segment makes of the module (R351). -/
theorem segmentBound_spec {s u : State} {seq ix a : Nat} {k : Cmd} {c c' : Chart} (h : s.started seq 3 = some k) (hc' : c' = c.bindSegment ix a)
    (hu : u = ({ s with chart := some c' } : State).endCmd seq 0 0 0) :
    Ended u seq 0 0 0 ∧ u.chart = some c' ∧ tget 0 c'.hsegAt ix = a + 1 ∧ (∀ j, j ≠ ix → tget 0 c'.hsegAt j = tget 0 c.hsegAt j) ∧
      { u with chart := s.chart, hi := s.hi } = s := by
  subst hu hc'
  exact ⟨ended_of_started h rfl _ _ _, rfl, hsegAt_bindSegment_same c ix a, fun j hj => hsegAt_bindSegment_other c a hj, rfl⟩

section
variable {s : State} {seq : Nat} {k : Cmd} {c : Chart} (h : s.started seq 3 = some k)
include h

theorem bind_of_none (hc : s.chart = none) : Completes (.bind seq) s (s.endCmd seq 6 0 0) := by
  rw [Completes, exec_bind]
  simp [execBind, h, hc]

theorem bind_of_run {r : Run} (hc : s.chart = some c) (hr : s.run = some r) : Completes (.bind seq) s (s.endCmd seq 5 0 0) := by
  rw [Completes, exec_bind]
  simp [execBind, h, hc, State.running, hr]

variable (hc : s.chart = some c) (hr : s.run = none)
include hc hr

theorem bind_of_bad {o : Nat} (hb : c.bindBad (fieldAt k.entry 8 1) (fieldAt k.entry 0xA 2) (fieldAt k.entry 0x10 8) (fieldAt k.entry 0x18 8) = some o) :
    Completes (.bind seq) s (s.endCmd seq 1 o 0) := by
  rw [Completes, exec_bind]
  simp [execBind, h, hc, State.running, hr, hb]

/-- A host segment is given its base. -/
theorem bind_segment (hk : fieldAt k.entry 8 1 = 1) (hb : c.bindBad 1 (fieldAt k.entry 0xA 2) (fieldAt k.entry 0x10 8) (fieldAt k.entry 0x18 8) = none) :
    Completes (.bind seq) s
      (({ s with chart := some (c.bindSegment (fieldAt k.entry 0xA 2) (fieldAt k.entry 0x10 8)) } : State).endCmd seq 0 0 0) := by
  rw [Completes, exec_bind]
  simp [execBind, h, hc, State.running, hr, hk, hb, Chart.bindSegment]

variable (hk : fieldAt k.entry 8 1 = 0) (hb : c.bindBad 0 (fieldAt k.entry 0xA 2) (fieldAt k.entry 0x10 8) (fieldAt k.entry 0x18 8) = none)
include hk hb

theorem bind_of_outside (hd : s.inDevice (fieldAt k.entry 0x10 8) (fieldAt k.entry 0x18 8) = false) :
    Completes (.bind seq) s (s.endCmd seq 3 0 (max (fieldAt k.entry 0x10 8) s.devTop)) := by
  rw [Completes, exec_bind]
  simp [execBind, h, hc, State.running, hr, hk, hb, hd]

variable (hd : s.inDevice (fieldAt k.entry 0x10 8) (fieldAt k.entry 0x18 8) = true)
include hd

theorem bind_of_overlap (hf : c.bindFree (fieldAt k.entry 0xA 2) (fieldAt k.entry 0x10 8) (fieldAt k.entry 0x18 8) = false) :
    Completes (.bind seq) s (s.endCmd seq 8 (codeI 8) (2 ^ 64 - 1)) := by
  rw [Completes, exec_bind]
  simp [execBind, h, hc, State.running, hr, hk, hb, hd, hf]

variable (hf : c.bindFree (fieldAt k.entry 0xA 2) (fieldAt k.entry 0x10 8) (fieldAt k.entry 0x18 8) = true)
include hf

theorem bind_held (hs : s.seedHeld c (fieldAt k.entry 0xA 2) = true) : Completes (.bind seq) s s := by
  rw [Completes, exec_bind]
  simp [execBind, h, hc, State.running, hr, hk, hb, hd, hf, hs]

/-- A tensor is given its range and its scale record SEED. -/
theorem bind_tensor (hs : s.seedHeld c (fieldAt k.entry 0xA 2) = false) :
    Completes (.bind seq) s ((({ s with chart := some (c.bindTensor (fieldAt k.entry 0xA 2) (fieldAt k.entry 0x10 8)) } : State).setSeed c
      (fieldAt k.entry 0xA 2)).endCmd seq 0 0 0) := by
  rw [Completes, exec_bind]
  simp [execBind, h, hc, State.running, hr, hk, hb, hd, hf, hs, Chart.bindTensor]

end

end Sys2Proof.Machine
end

section
/-! The statement of 05 and 11 about charts: CHART_LOAD, CHART_UNLOAD and BIND. -/

namespace Sys2Proof.Proofs

open Sys2Proof.Machine

/-- Settles O41: each branch of the three commands ends at once, waits at a door, ends with FAULT (`endUe_spec`), or does its work, which
`measured_spec`, `unloaded_spec` and `bound_spec` describe. -/
theorem chartCommands : Obligations.ChartCommands := by
  intro s seq k
  refine ⟨fun h => ⟨fun c ue hc => ends_of_endCmd h (chartLoad_of_chart h hc), fun hc => ?load⟩, fun h => ?unload, fun h => ?bind⟩
  case load =>
    intro a c image held rest ends ue
    have ends_fault {x : Nat} (he : Completes (.chartLoad seq ue) s (s.endUe seq x 0)) : ends ue := ⟨_, he, endUe_spec h x 0⟩
    refine ⟨fun hd => chartLoad_held h hc hd, fun x hd hx => ends_fault (chartLoad_of_ue h hc hd hx), fun hd hx => ?_⟩
    rcases hf : s.chartChecks a with _ | f
    · dsimp only
      rcases Bool.eq_false_or_eq_true rest with hr | hr
      · rw [if_pos hr]
        exact chartLoad_rest_held h hc hd hx hf hr
      · rw [if_neg (Bool.eq_false_iff.1 hr)]
        cases hy : ueIn ue c.loadReach with
        | some x =>
          rw [if_pos Option.isSome_some]
          exact ends_fault (chartLoad_rest_of_ue h hc hd hx hf hr hy)
        | none =>
          rw [if_neg (by simp)]
          refine ⟨_, chartLoad_loads h hc hd hx hf hr hy rfl rfl, ?_⟩
          exact measured_spec h (loads_loadChart s _) rfl
    · exact ends_of_endCmd h (chartLoad_of_check h hc hd hx hf)
  case unload =>
    refine ⟨fun hc err => ends_of_endCmd h (chartUnload_of_none h hc), fun c r hc hr err => ends_of_endCmd h (chartUnload_of_run h hc hr), ?_⟩
    intro c err hc hr hp hn hf
    refine ⟨_, chartUnload_unloads h hc hr hp hf, ?_⟩
    exact unloaded_spec h (commandsStand_finishCommit s c err hf) (noCopyOf_finishCommit hn hf) rfl
  case bind =>
    refine ⟨fun hc => ends_of_endCmd h (bind_of_none h hc), fun c r hc hr => ends_of_endCmd h (bind_of_run h hc hr), ?_⟩
    intro ix a n
    refine ⟨fun c o hc hr hb => ends_of_endCmd h (bind_of_bad h hc hr hb), fun c hc hr hk hb => ⟨fun hd => ?outside, fun hd hf => ?overlap, ?held⟩,
      fun c hc hr hk hb hd hf hs => ?tensor, fun c hc hr hk hb => ?segment⟩
    case outside => exact ends_of_endCmd h (bind_of_outside h hc hr hk hb hd)
    case overlap => exact ends_of_endCmd h (bind_of_overlap h hc hr hk hb hd hf)
    case held => exact fun hd hf hs => bind_held h hc hr hk hb hd hf hs
    case tensor =>
      refine ⟨_, c.bindTensor ix a, bind_tensor h hc hr hk hb hd hf hs, ?_⟩
      exact bound_spec h hb rfl rfl
    case segment =>
      refine ⟨_, c.bindSegment ix a, bind_segment h hc hr hk hb, ?_⟩
      exact segmentBound_spec h rfl rfl

end Sys2Proof.Proofs
end

section
/-! SUPPORT. Laws of the region stores and tier streams: lines kept and found, chunks stored and added, fills asked for, and what a delivery
to the port-in buffers leaves (06 R177-R181, R190, R197-R199). -/

namespace Sys2Proof.Machine

/-! ## Lines kept at their places (R177) -/

section
variable {p : Nat × Line → Bool} {t : Tab Line} {k : Nat} {l v : Line}

/-- A line kept at the place of the first line of a kind is the first of that kind. -/
theorem find_putLine_same (h : t.find? p = some (k, l)) (hv : p (k, v) = true) : (putLine t k v).find? p = some (k, v) := by
  induction t with
  | nil => cases h
  | cons e t ih =>
    obtain ⟨i, x⟩ := e
    unfold putLine
    split_ifs with hi hk
    · exact List.find?_cons_of_pos hv
    · exact List.find?_cons_of_pos hv
    · rcases Bool.eq_false_or_eq_true (p (i, x)) with hp | hp
      · rw [List.find?_cons_of_pos hp] at h
        cases h
        exact absurd rfl hi
      · have hn : ¬p (i, x) = true := Bool.eq_false_iff.1 hp
        rw [List.find?_cons_of_neg hn] at h ⊢
        exact ih h

/-- A line kept at another place, which is not of a kind, leaves the first of that kind. -/
theorem find_putLine_other {j : Nat} (h : t.find? p = some (k, l)) (hj : j ≠ k) (hv : p (j, v) = false) :
    (putLine t j v).find? p = some (k, l) := by
  have hn : ¬p (j, v) = true := Bool.eq_false_iff.1 hv
  induction t with
  | nil => cases h
  | cons e t ih =>
    obtain ⟨i, x⟩ := e
    unfold putLine
    rcases Bool.eq_false_or_eq_true (p (i, x)) with hp | hp
    · rw [List.find?_cons_of_pos hp] at h
      cases h
      rw [if_neg (Ne.symm hj)]
      split_ifs
      · rw [List.find?_cons_of_neg hn, List.find?_cons_of_pos hp]
      · exact List.find?_cons_of_pos hp
    · have hx : ¬p (i, x) = true := Bool.eq_false_iff.1 hp
      rw [List.find?_cons_of_neg hx] at h
      split_ifs
      · rw [List.find?_cons_of_neg hn, h]
      · rw [List.find?_cons_of_neg hn, List.find?_cons_of_neg hx, h]
      · rw [List.find?_cons_of_neg hx, ih h]

/-- A line that is kept stands at its place. -/
theorem find_putLine_place (t : Tab Line) (k : Nat) (v : Line) : (putLine t k v).find? (fun e => decide (e.1 = k)) = some (k, v) := by
  induction t with
  | nil => simp [putLine]
  | cons e t ih =>
    obtain ⟨i, x⟩ := e
    unfold putLine
    split_ifs with hi hk
    · simp
    · simp
    · rw [List.find?_cons_of_neg (by simpa using hi), ih]

end

@[simp] theorem State.region_modRegion_same (s : State) (r : Nat) (f : Region → Region) : (s.modRegion r f).region r = f (s.region r) :=
  s.region_setRegion_same r _

section
variable {s : State} {r k space line : Nat} {l x : Line}

theorem line_putLine_place (x : Region) (set way : Nat) (l : Line) :
    { x with lines := putLine x.lines (16 * set + way) l }.line set way = some l := by
  rw [Region.line, find_putLine_place]
  rfl

theorem line_touch_place (s : State) (r set way : Nat) (l : Line) :
    ((s.touch r (16 * set + way) l).region r).line set way = some { l with used := (s.region r).clock + 1 } := by
  simp [State.touch, Region.line, find_putLine_place]

theorem find_touch_same (h : (s.region r).find space line = some (k, x)) (hs : l.space = space) (hl : l.line = line) :
    ((s.touch r k l).region r).find space line = some (k, { l with used := (s.region r).clock + 1 }) := by
  rw [State.touch, State.region_modRegion_same]
  exact find_putLine_same h (by simp [hs, hl])

theorem find_touch_other {j : Nat} (h : (s.region r).find space line = some (k, x)) (hj : j ≠ k) (hl : l.line ≠ line) :
    ((s.touch r j l).region r).find space line = some (k, x) := by
  rw [State.touch, State.region_modRegion_same]
  exact find_putLine_other h hj (by simp [hl])

end

/-- A line that is found is the line asked for. -/
theorem Region.find_spec {x : Region} {space line k : Nat} {l : Line} (h : x.find space line = some (k, l)) :
    l.space = space ∧ l.line = line := by
  simpa using List.find?_some h

/-! ## Stores, counters and fills change regions and the dictionary alone -/

/-- Nothing differs between two states but regions and the dictionary. -/
def OnlyStores (s u : State) : Prop := { u with regions := s.regions, dict := s.dict } = s

namespace OnlyStores
variable {s u v : State}

theorem refl (s : State) : OnlyStores s s := rfl

/-- What a function reads outside the regions and the dictionary is the same. -/
theorem congr (h : OnlyStores s u) {α : Type} (f : State → α) : f { u with regions := s.regions, dict := s.dict } = f s := congrArg f h

theorem trans (h : OnlyStores s u) (k : OnlyStores u v) : OnlyStores s v := by
  unfold OnlyStores at h k ⊢
  exact (congrArg (fun x : State => { x with regions := s.regions, dict := s.dict }) k).trans h

theorem ite {c : Prop} {_ : Decidable c} (h : OnlyStores s u) (k : OnlyStores s v) : OnlyStores s (if c then u else v) := by
  split <;> assumption

theorem tile (h : OnlyStores s u) (t : Nat) : u.tile t = s.tile t := h.congr (State.tile · t)
theorem mem (h : OnlyStores s u) : u.mem = s.mem := h.congr State.mem
theorem hostMem (h : OnlyStores s u) : u.hostMem = s.hostMem := h.congr State.hostMem

end OnlyStores

section
variable (s : State) (r : Nat)

theorem onlyStores_modRegion (f : Region → Region) : OnlyStores s (s.modRegion r f) := rfl
theorem onlyStores_touch (k : Nat) (l : Line) : OnlyStores s (s.touch r k l) := rfl
theorem onlyStores_tierCount (k n : Nat) : OnlyStores s (s.tierCount r k n) := rfl

theorem onlyStores_askFill (space line : Nat) : OnlyStores s (s.askFill r space line) := .ite (.refl s) (onlyStores_modRegion s r _)

theorem onlyStores_request (space line n : Nat) (hit : Bool) : OnlyStores s (s.request r space line n hit) :=
  .ite (onlyStores_tierCount s r _ _)
    (((onlyStores_askFill s r space line).trans (onlyStores_tierCount _ r _ _)).trans (onlyStores_tierCount _ r _ _))

/-- A counter that advances changes no line and no fill. -/
theorem region_tierCount (k n : Nat) : ∃ tw, (s.tierCount r k n).region r = { s.region r with tw := tw } :=
  ⟨_, s.region_modRegion_same r (fun x => { x with tw := tmod 0 x.tw k (fun v => satAdd 32 v n) })⟩

@[simp] theorem find_tierCount (k n space line : Nat) : ((s.tierCount r k n).region r).find space line = (s.region r).find space line := by
  obtain ⟨tw, e⟩ := region_tierCount s r k n
  rw [e]
  rfl

@[simp] theorem fills_tierCount (k n : Nat) : ((s.tierCount r k n).region r).fills = (s.region r).fills := by
  obtain ⟨tw, e⟩ := region_tierCount s r k n
  rw [e]

@[simp] theorem find_askFill (space line sp ln : Nat) : ((s.askFill r space line).region r).find sp ln = (s.region r).find sp ln := by
  unfold State.askFill
  split
  · rfl
  · rw [State.region_modRegion_same]
    rfl

@[simp] theorem find_request (space line n : Nat) (hit : Bool) (sp ln : Nat) :
    ((s.request r space line n hit).region r).find sp ln = (s.region r).find sp ln := by
  unfold State.request
  split <;> simp

/-- A fill of the line is on its way. -/
def Region.Awaits (x : Region) (space line : Nat) : Prop := ∃ f ∈ x.fills, f.space = space ∧ f.line = line

theorem awaits_askFill (space line : Nat) : ((s.askFill r space line).region r).Awaits space line := by
  unfold State.askFill
  split
  · rename_i h
    simpa [Region.Awaits] using h
  · exact ⟨⟨space, line⟩, by simp, rfl, rfl⟩

/-- A miss leaves the fill of its line on its way (R178, R198). -/
theorem awaits_request (space line n : Nat) : ((s.request r space line n false).region r).Awaits space line := by
  unfold State.request
  split
  · rename_i h
    simpa [Region.Awaits] using h
  · simpa [Region.Awaits] using awaits_askFill s r space line

end

/-! ## Deliveries change port-in buffers alone (R190, R197) -/

/-- Nothing differs between two states but the tiles' port-in buffers. -/
structure OnlyPortIn (s u : State) : Prop where
  state : { u with tiles := s.tiles } = s
  tiles : ∀ t, { u.tile t with portIn := (s.tile t).portIn } = s.tile t

namespace OnlyPortIn
variable {s u v : State}

theorem refl (s : State) : OnlyPortIn s s := ⟨rfl, fun _ => rfl⟩

theorem trans (h : OnlyPortIn s u) (k : OnlyPortIn u v) : OnlyPortIn s v :=
  ⟨(congrArg (fun x : State => { x with tiles := s.tiles }) k.state).trans h.state,
    fun t => (congrArg (fun x : Tile => { x with portIn := (s.tile t).portIn }) (k.tiles t)).trans (h.tiles t)⟩

theorem forEach {α : Type} {f : State → α → State} (xs : List α) (h : ∀ s x, OnlyPortIn s (f s x)) (s : State) :
    OnlyPortIn s (Machine.forEach xs s f) :=
  forEach_keeps (OnlyPortIn s) f xs (fun u x _ k => k.trans (h u x)) s (refl s)

/-- What a function reads outside the tiles is the same. -/
theorem congr (h : OnlyPortIn s u) {α : Type} (f : State → α) : f { u with tiles := s.tiles } = f s := congrArg f h.state

/-- What a function reads of a tile but for its port-in buffer is the same. -/
theorem tileCongr (h : OnlyPortIn s u) (t : Nat) {α : Type} (f : Tile → α) :
    f { u.tile t with portIn := (s.tile t).portIn } = f (s.tile t) :=
  congrArg f (h.tiles t)

theorem region (h : OnlyPortIn s u) (r : Nat) : u.region r = s.region r := h.congr (State.region · r)
theorem tstream (h : OnlyPortIn s u) (i : Nat) : u.tstream i = s.tstream i := h.congr (State.tstream · i)
theorem mem (h : OnlyPortIn s u) : u.mem = s.mem := h.congr State.mem
theorem hostMem (h : OnlyPortIn s u) : u.hostMem = s.hostMem := h.congr State.hostMem
theorem spad (h : OnlyPortIn s u) (t : Nat) : (u.tile t).spad = (s.tile t).spad := h.tileCongr t Tile.spad
theorem winOf (h : OnlyPortIn s u) (t w : Nat) : (u.tile t).winOf w = (s.tile t).winOf w := h.tileCongr t (Tile.winOf · w)

end OnlyPortIn

theorem onlyPortIn_modTile (s : State) (t : Nat) (q : List (Nat × Payload)) :
    OnlyPortIn s (s.modTile t (fun x => { x with portIn := x.portIn ++ q })) := by
  refine ⟨rfl, fun t' => ?_⟩
  by_cases h : t' = t
  · rw [h, State.tile_modTile_same]
  · rw [s.tile_modTile_other _ h]

theorem onlyPortIn_deliverTo (i : Nat) (r : TierStream) (t n : Nat) : ∀ s : State, OnlyPortIn s (State.deliverTo i r t n s) := by
  induction n with
  | zero => exact .refl
  | succ n ih =>
    intro s
    unfold State.deliverTo
    split
    · exact .refl s
    · split
      · exact (onlyPortIn_modTile s t _).trans (ih _)
      · exact .refl s

theorem onlyPortIn_deliverAll (s : State) (rg : Nat) : OnlyPortIn s (s.deliverAll rg) := by
  unfold State.deliverAll
  split
  · exact .forEach _ (fun s _ => .forEach _ (fun s _ => onlyPortIn_deliverTo _ _ _ _ s) s) s
  · exact .refl s

/-! ## Chunks (R179, R199, R202) -/

@[simp] theorem length_accumChunk (old new : List Byte) : (accumChunk old new).length = 64 := by
  simp [accumChunk]

@[simp] theorem Region.lent_setLent (x : Region) (seg : Nat) (m : Memory) : (x.setLent seg m).lent seg = m := by
  unfold Region.setLent Region.lent
  split <;> rfl

/-- A line with the chunk of address `a` written, its half valid and dirty. -/
def Line.withChunk (l : Line) (a : Nat) (bs : List Byte) : Line :=
  let lo := decide (a / 64 % 2 = 0)
  { l with
    valid0 := l.valid0 || lo, dirty0 := l.dirty0 || lo, valid1 := l.valid1 || !lo, dirty1 := l.dirty1 || !lo,
    data := if lo then bs ++ l.data.drop 64 else l.data.take 64 ++ bs }

section
variable {l : Line} {a : Nat} {bs : List Byte}

theorem half_withChunk : (l.withChunk a bs).half a = true := by
  unfold Line.half Line.withChunk
  split <;> simp_all

theorem dirty_withChunk : (l.withChunk a bs).dirty = true := by
  unfold Line.dirty Line.withChunk
  cases decide (a / 64 % 2 = 0) <;> simp

/-- The chunk written reads back from its half of the line. -/
theorem chunk_withChunk (hl : l.data.length = 128) (ha : a % 64 = 0) (hb : bs.length = 64) :
    ((l.withChunk a bs).data.drop (a % 128)).take 64 = bs := by
  unfold Line.withChunk
  by_cases h : a / 64 % 2 = 0
  · have ho : a % 128 = 0 := by omega
    simp only [h, ho, decide_true, if_true]
    exact List.take_left' hb
  · have ho : a % 128 = 64 := by omega
    have ht : (l.data.take 64).length = 64 := by simp [hl]
    simp only [h, ho, decide_false, Bool.false_eq_true, if_false]
    rw [List.drop_left' ht, List.take_of_length_le (Nat.le_of_eq hb)]

end

/-- The store's line at place `k` holds a chunk of address `a`, valid and dirty. -/
def Region.Holds (x : Region) (space a k : Nat) (bs : List Byte) : Prop :=
  ∃ l, x.find space (lineAddr a) = some (k, l) ∧ l.half a = true ∧ l.dirty = true ∧ (l.data.drop (a % 128)).take 64 = bs

/-- A chunk whose line the store has is written there (R179). -/
theorem storeChunk_of_find {s : State} {r space a k : Nat} {l : Line} {bs : List Byte}
    (h : (s.region r).find space (lineAddr a) = some (k, l)) : s.storeChunk r space a bs = some (s.touch r k (l.withChunk a bs)) := by
  simp [State.storeChunk, h, Line.withChunk]

theorem storeChunk_holds {s : State} {r space a k : Nat} {l : Line} {bs : List Byte} (h : (s.region r).find space (lineAddr a) = some (k, l))
    (hl : l.data.length = 128) (ha : a % 64 = 0) (hb : bs.length = 64) : ((s.touch r k (l.withChunk a bs)).region r).Holds space a k bs := by
  obtain ⟨hspace, hline⟩ := Region.find_spec h
  exact ⟨_, find_touch_same h hspace hline, half_withChunk (l := l) (bs := bs), dirty_withChunk (l := l) (a := a) (bs := bs),
    chunk_withChunk hl ha hb⟩

/-! ## Victims and write-backs (R180, R181) -/

/-- A fold that keeps its value or takes the element at hand ends with an element of the list, or with the value it began with. -/
theorem mem_of_foldl_choice {α : Type} {f : Option α → α → Option α} (hf : ∀ b c, f b c = some c ∨ f b c = b) {x : α} :
    ∀ {xs : List α} {b : Option α}, xs.foldl f b = some x → x ∈ xs ∨ b = some x := by
  intro xs
  induction xs with
  | nil => exact fun h => .inr h
  | cons c xs ih =>
    intro b h
    rcases ih (b := f b c) h with hx | hx
    · exact .inl (List.mem_cons_of_mem _ hx)
    · rcases hf b c with e | e <;> rw [e] at hx
      · cases hx
        exact .inl List.mem_cons_self
      · exact .inr hx

/-- A victim is a line of its set. -/
theorem line_of_victim {s : State} {r set way : Nat} {l : Line} (h : s.victim r set = some (way, l)) :
    (s.region r).line set way = some l := by
  unfold State.victim at h
  have choice := mem_of_foldl_choice (fun b c => ?_) h
  · have hm := (List.mem_filter.1 (choice.resolve_right (by simp))).1
    obtain ⟨w, -, hw⟩ := List.mem_filterMap.1 hm
    obtain ⟨l', hl, e⟩ := Option.map_eq_some_iff.1 hw
    cases e
    exact hl
  · split
    · exact .inl rfl
    · split
      · exact .inl rfl
      · exact .inr rfl

/-- The dirty halves of a line of device memory written back. -/
def State.writtenBack (s : State) (l : Line) : State :=
  let s := if l.dirty0 then s.devWrite (128 * l.line) (l.data.take 64) else s
  if l.dirty1 then s.devWrite (128 * l.line + 64) (l.data.drop 64) else s

theorem cleanLine_device (s : State) (r k : Nat) {l : Line} (h : l.space = 0) : s.cleanLine r k l =
    (s.writtenBack l).modRegion r (fun x => { x with lines := putLine x.lines k { l with dirty0 := false, dirty1 := false } }) := by
  simp [State.cleanLine, State.writtenBack, State.tierWrite, h]

section
variable (s : State) {l : Line}

theorem writtenBack_eq (l : Line) : ∃ m j, s.writtenBack l = { s with mem := m, jmem := j } := by
  unfold State.writtenBack
  dsimp only
  obtain ⟨m, j, e⟩ : ∃ m j, (if l.dirty0 = true then s.devWrite (128 * l.line) (l.data.take 64) else s) =
      { s with mem := m, jmem := j } := by
    split
    · exact devWrite_eq _ _ _
    · exact ⟨_, _, rfl⟩
  rw [e]
  split
  · obtain ⟨m', j', e'⟩ := devWrite_eq (l.data.drop 64) ({ s with mem := m, jmem := j } : State) (128 * l.line + 64)
    exact ⟨m', j', e'⟩
  · exact ⟨m, j, rfl⟩

theorem devRead_congr {s u : State} {a n : Nat} (h : ∀ b, a ≤ b → b < a + n → u.devByte b = s.devByte b) :
    u.devRead a n = s.devRead a n :=
  List.map_congr_left fun i hi => h _ (Nat.le_add_right a i) (Nat.add_lt_add_left (List.mem_range.1 hi) a)

variable (hl : l.data.length = 128)
include hl

theorem devRead_writtenBack_low (hd : l.dirty0 = true) : (s.writtenBack l).devRead (128 * l.line) 64 = l.data.take 64 := by
  have ht : (l.data.take 64).length = 64 := by simp [hl]
  have hw : (s.devWrite (128 * l.line) (l.data.take 64)).devRead (128 * l.line) 64 = l.data.take 64 := by
    have := devRead_devWrite s (128 * l.line) (l.data.take 64)
    rwa [ht] at this
  unfold State.writtenBack
  simp only [hd, if_true]
  split
  · rw [devRead_congr fun b _ hb => devByte_devWrite_outside _ _ _ (.inl hb), hw]
  · exact hw

theorem devRead_writtenBack_high (hd : l.dirty1 = true) : (s.writtenBack l).devRead (128 * l.line + 64) 64 = l.data.drop 64 := by
  have ht : (l.data.drop 64).length = 64 := by simp [hl]
  unfold State.writtenBack
  simp only [hd, if_true]
  have := devRead_devWrite (if l.dirty0 = true then s.devWrite (128 * l.line) (l.data.take 64) else s) (128 * l.line + 64) (l.data.drop 64)
  rwa [ht] at this

theorem devByte_writtenBack {b : Nat} (hb : b < 128 * l.line ∨ 128 * l.line + 128 ≤ b) : (s.writtenBack l).devByte b = s.devByte b := by
  have low : (if l.dirty0 = true then s.devWrite (128 * l.line) (l.data.take 64) else s).devByte b = s.devByte b := by
    split
    · exact devByte_devWrite_outside _ _ _ (by rw [List.length_take]; omega)
    · rfl
  unfold State.writtenBack
  dsimp only
  split
  · rw [devByte_devWrite_outside _ _ _ (by rw [List.length_drop]; omega), low]
  · exact low

end

end Sys2Proof.Machine
end

section
/-! SUPPORT. What the commands of the memory tiers do where memory protection finds nothing (06 R178-R181, R190, R191, R198, R199). -/

namespace Sys2Proof.Machine

@[simp] theorem rsEvent_ok (s : State) (r : Nat) : s.rsEvent r .ok = (true, s) := rfl

/-- A tier engine that runs has both its doors open. -/
theorem doors_of_tierUp {s : State} {r : Nat} (h : s.tierUp r = true) :
    s.doorClosed .tier (s.physOf r) = false ∧ s.doorClosed .dataflow (s.physOf r) = false := by
  simp only [State.tierUp, Bool.and_eq_true, Bool.not_eq_true'] at h
  exact h.1.1

/-! ## PORT_ACCESS (R190, R191) -/

/-- A tile's port has an access to a window in the present firing, of stream `r` with number `i`, inside the window. -/
structure PortServes (s : State) (t w : Nat) (m : TileImg) (i : Nat) (r : TierStream) : Prop where
  img      : s.img t = some m
  stream   : s.streamOf t w = some (i, r)
  fires    : (s.tile t).st = .fire
  due      : (s.tile t).due m w = true
  unserved : ((s.tile t).winOf w).served = false
  up       : s.tierUp (tileRegion t) = true
  low      : wdBase (m.win w) ≤ ((s.tile t).winOf w).ptr
  high     : ((s.tile t).winOf w).ptr + 16 ≤ wdBase (m.win w) + wdWords (m.win w)

/-- The tile whose port has moved a chunk from the port-in buffer to a window. -/
def Tile.portTakes (x : Tile) (m : TileImg) (w : Nat) (pay : Payload) : Tile :=
  { x with portIn := x.portIn.erase (w, pay), spad := x.spad.writeN (x.winOf w).ptr (valWords 16 pay.toNat),
           wins := tset {} x.wins w ((x.winOf w).stepped (m.win w)) }

/-- The tile whose port has moved a chunk from a window to the port-out buffer. -/
def Tile.portGives (x : Tile) (m : TileImg) (w : Nat) : Tile :=
  { x with portOut := x.portOut ++ [(w, BitVec.ofNat 512 (wordsVal (x.spad.readN (x.winOf w).ptr 16)))],
           wins := tset {} x.wins w ((x.winOf w).stepped (m.win w)) }

theorem served_portTakes (x : Tile) (m : TileImg) (w : Nat) (pay : Payload) : ((x.portTakes m w pay).winOf w).served = true := by
  rw [Tile.winOf, Tile.portTakes, tget_tset_same]
  rfl

theorem served_portGives (x : Tile) (m : TileImg) (w : Nat) : ((x.portGives m w).winOf w).served = true := by
  rw [Tile.winOf, Tile.portGives, tget_tset_same]
  rfl

/-- The state with tile `t` after an access of its port, which stream `i` and the region's progress count. -/
def State.portAccessed (s : State) (t i : Nat) (x : Tile) : State :=
  ((s.setTile t x).setTstream i
    { s.tstream i with taken := tmod 0 (s.tstream i).taken (t % 32) (· + 1), accessed := true }).progress t

section
variable (s : State) (t i : Nat) (x : Tile)

theorem tile_portAccessed_same : (s.portAccessed t i x).tile t = x := s.tile_setTile_same t x
theorem tile_portAccessed_other {t' : Nat} (h : t' ≠ t) : (s.portAccessed t i x).tile t' = s.tile t' := s.tile_setTile_other x h
theorem mem_portAccessed : (s.portAccessed t i x).mem = s.mem := by
  rw [State.portAccessed, State.progress, State.modRegion, State.setRegion_mem, State.setTstream_mem, State.setTile_mem]

theorem taken_portAccessed :
    tget 0 ((s.portAccessed t i x).tstream i).taken (t % 32) = tget 0 (s.tstream i).taken (t % 32) + 1 := by
  have h : (s.portAccessed t i x).tstream i =
      { s.tstream i with taken := tmod 0 (s.tstream i).taken (t % 32) (· + 1), accessed := true } := State.tstream_setTstream_same _ i _
  rw [h, tget_tmod_same]

end

section
variable {s : State} {t w i : Nat} {m : TileImg} {r : TierStream} (h : PortServes s t w m i r)
include h

/-- The conditions of the access hold, and it is no stray access. -/
theorem PortServes.conditions :
    ¬((s.tile t).st ≠ .fire ∨ ¬(s.tile t).due m w = true ∨ ((s.tile t).winOf w).served = true ∨ ¬s.tierUp (tileRegion t) = true) ∧
    ¬¬(wdBase (m.win w) ≤ ((s.tile t).winOf w).ptr ∧ ((s.tile t).winOf w).ptr + 16 ≤ wdBase (m.win w) + wdWords (m.win w)) := by
  simp [h.fires, h.due, h.unserved, h.up, h.low, h.high]

/-- A chunk that is in the port-in buffer goes to its window, and the slot that it frees is filled again. -/
theorem portAccess_in {pay : Payload} (hm : wdMode (m.win w) = 2)
    (hp : (s.tile t).portIn.find? (fun e => decide (e.1 = w)) = some (w, pay)) : Completes (.portAccess t w .ok .ok) s
      ((s.portAccessed t i ((s.tile t).portTakes m w pay)).deliverAll (tileRegion t)) := by
  obtain ⟨hserves, hinside⟩ := h.conditions
  show execPortAccess t w .ok .ok s = _
  unfold execPortAccess
  rw [h.img, h.stream]
  dsimp only
  rw [if_neg hserves, if_neg hinside, if_pos hm, hp]
  rfl

/-- A window's words go to the port-out buffer while it has a slot. -/
theorem portAccess_out (hm : wdMode (m.win w) = 3) (hs : (s.tile t).portOut.length < 8) : Completes (.portAccess t w .ok .ok) s
      (s.portAccessed t i ((s.tile t).portGives m w)) := by
  obtain ⟨hserves, hinside⟩ := h.conditions
  have hin : ¬wdMode (m.win w) = 2 := by omega
  show execPortAccess t w .ok .ok s = _
  unfold execPortAccess
  rw [h.img, h.stream]
  dsimp only
  rw [if_neg hserves, if_neg hinside, if_neg hin, if_neg (Nat.not_le.2 hs)]
  rfl

end

/-! ## PORT_OUT_CHUNK_TAKE (R179, R191, R199) -/

/-- The first chunk of a tile's port-out buffer, of stream `r` with number `i`, stands before a tier engine that runs. -/
structure ChunkLeaves (s : State) (t w : Nat) (pay : Payload) (rest : List (Nat × Payload)) (i : Nat) (r : TierStream) : Prop where
  first  : (s.tile t).portOut = (w, pay) :: rest
  stream : s.streamOf t w = some (i, r)
  up     : s.tierUp (tileRegion t) = true

/-- The chunk has left the buffer for a region's store or lent segment, and its stream counts it. -/
structure TakesChunk (t i : Nat) (rest : List (Nat × Payload)) (s u : State) : Prop where
  completes : Completes (.portOutChunkTake t .ok) s u
  portOut   : (u.tile t).portOut = rest
  given     : (u.tstream i).given = (s.tstream i).given + 1
  gen       : (u.tstream i).gen = (s.tstream i).gen
  mem       : u.mem = s.mem

/-- A state whose tile has given the first chunk of its port-out buffer. -/
def State.gaveChunk (s : State) (t : Nat) (rest : List (Nat × Payload)) : State := s.modTile t (fun x => { x with portOut := rest })

theorem portOut_gaveChunk (s : State) (t : Nat) (rest : List (Nat × Payload)) : ((s.gaveChunk t rest).tile t).portOut = rest :=
  congrArg Tile.portOut (s.tile_modTile_same t (fun x => { x with portOut := rest }))

@[simp] theorem mem_gaveChunk (s : State) (t : Nat) (rest : List (Nat × Payload)) : (s.gaveChunk t rest).mem = s.mem := rfl
@[simp] theorem region_gaveChunk (s : State) (t : Nat) (rest : List (Nat × Payload)) (r : Nat) :
    (s.gaveChunk t rest).region r = s.region r := rfl

/-- A state with bytes written in a region's lent segment. -/
def State.lends (s : State) (rg seg a : Nat) (bs : List Byte) : State :=
  s.modRegion rg (fun z => z.setLent seg ((z.lent seg).writeN a bs))

theorem onlyStores_lends (s : State) (rg seg a : Nat) (bs : List Byte) : OnlyStores s (s.lends rg seg a bs) := onlyStores_modRegion s rg _

theorem readN_lends (s : State) (rg seg a : Nat) {bs : List Byte} {n : Nat} (h : bs.length = n) :
    (((s.lends rg seg a bs).region rg).lent seg).readN a n = bs := by
  rw [State.lends, State.region_modRegion_same, Region.lent_setLent, ← h, Memory.readN_writeN]

/-- The addresses of the old and the new values of an ACCUM stream's next chunk (R199). -/
def State.accumOld (s : State) (r : TierStream) (y : TStream) : Nat := s.chunkAt r (if y.gen % 2 = 0 then r.base else r.alt) y.given
def State.accumNew (s : State) (r : TierStream) (y : TStream) : Nat := s.chunkAt r (if y.gen % 2 = 0 then r.alt else r.base) y.given

/-- The generation starts from zeros (R199). -/
def TierStream.startsAnew (r : TierStream) (y : TStream) : Prop := r.zevery ≠ 0 ∧ y.gen % r.zevery = 0

/-- The state whose counters have a hit on an ACCUM stream's old values, unless its fill has counted already (R178). -/
def State.looksAt (s : State) (rg : Nat) (asked : Bool) : State := if asked then s else s.tierCount rg 7 1

theorem onlyStores_looksAt (s : State) (rg : Nat) (asked : Bool) : OnlyStores s (s.looksAt rg asked) :=
  .ite (.refl s) (onlyStores_tierCount s rg 7 1)

theorem find_looksAt {s : State} {rg space line : Nat} {e : Option (Nat × Line)} (h : (s.region rg).find space line = e) (asked : Bool) :
    ((s.looksAt rg asked).region rg).find space line = e := by
  unfold State.looksAt
  split
  · exact h
  · rw [find_tierCount, h]

section
variable {s : State} {t w i : Nat} {pay : Payload} {rest : List (Nat × Payload)} {r : TierStream} (h : ChunkLeaves s t w pay rest i r)
include h

theorem portOutChunkTake_eq : exec (.portOutChunkTake t .ok) s = s.takeChunk t := by
  show execPortOutChunkTake t .ok s = _
  simp [execPortOutChunkTake, h.first, h.up]

/-- What a chunk's leaving comes to: its place `v` has it, and the stream's count stands. -/
theorem takesChunk_of_next {v : State} {y : TStream} (hm : v.mem = s.mem) (ht : s.takeChunk t = .next ((v.gaveChunk t rest).setTstream i y))
    (hg : y.given = (s.tstream i).given + 1) (hn : y.gen = (s.tstream i).gen) :
    TakesChunk t i rest s ((v.gaveChunk t rest).setTstream i y) where
  completes := (portOutChunkTake_eq h).trans ht
  portOut := by rw [State.tile_setTstream, portOut_gaveChunk]
  given := by rw [State.tstream_setTstream_same, hg]
  gen := by rw [State.tstream_setTstream_same, hn]
  mem := by rw [State.setTstream_mem, mem_gaveChunk, hm]

/-- A chunk goes to the lent segment (R202). -/
theorem chunkTake_lent (hk : r.kind ≠ 3) (hs : r.space = 1) : ∃ u, TakesChunk t i rest s u ∧
    ((u.region (tileRegion t)).lent r.seg).readN (s.chunkAt r r.base (s.tstream i).given) 64 = leBytes 64 pay.toNat ∧
    { u with tiles := s.tiles, regions := s.regions, streams := s.streams } = s := by
  have ht : s.takeChunk t = .next (((s.lends (tileRegion t) r.seg (s.chunkAt r r.base (s.tstream i).given)
      (leBytes 64 pay.toNat)).gaveChunk t rest).setTstream i { s.tstream i with given := (s.tstream i).given + 1 }) := by
    simp only [State.takeChunk, h.first, h.stream, if_neg (not_not_intro h.up), if_neg hk, if_pos hs]
    rfl
  refine ⟨_, takesChunk_of_next h (onlyStores_lends s _ _ _ _).mem ht rfl rfl, ?_, ?_⟩
  · rw [State.region_setTstream, region_gaveChunk, readN_lends s _ _ _ (length_leBytes 64 _)]
  · simp only [State.lends, State.gaveChunk, State.modTile, State.modRegion, State.setRegion, State.setTile, State.setTstream]

/-- A chunk goes to the line of its address (R179). -/
theorem chunkTake_store (hk : r.kind ≠ 3) (hs : r.space ≠ 1) {k : Nat} {l : Line}
    (hl : (s.region (tileRegion t)).find r.tag (lineAddr (s.chunkAt r r.base (s.tstream i).given)) = some (k, l)) (hd : l.data.length = 128)
    (ha : s.chunkAt r r.base (s.tstream i).given % 64 = 0) : ∃ u, TakesChunk t i rest s u ∧
      (u.region (tileRegion t)).Holds r.tag (s.chunkAt r r.base (s.tstream i).given) k (leBytes 64 pay.toNat) := by
  have ht : s.takeChunk t = .next (((s.touch (tileRegion t) k (l.withChunk (s.chunkAt r r.base (s.tstream i).given)
      (leBytes 64 pay.toNat))).gaveChunk t rest).setTstream i { s.tstream i with given := (s.tstream i).given + 1 }) := by
    simp only [State.takeChunk, h.first, h.stream, if_neg (not_not_intro h.up), if_neg hk, if_neg hs, storeChunk_of_find hl]
    rfl
  refine ⟨_, takesChunk_of_next h (onlyStores_touch s _ _ _).mem ht rfl rfl, ?_⟩
  rw [State.region_setTstream, region_gaveChunk]
  exact storeChunk_holds hl hd ha (length_leBytes 64 _)

/-- An ACCUM chunk whose old values the store has is added to them and written. -/
theorem takeChunk_of_oldValues (hk : r.kind = 3) (hs : r.space ≠ 1) (hf : ¬r.startsAnew (s.tstream i)) {k' : Nat} {l' : Line}
    (hl' : (s.region (tileRegion t)).find r.tag (lineAddr (s.accumOld r (s.tstream i))) = some (k', l'))
    (hh : l'.half (s.accumOld r (s.tstream i)) = true) {v : State}
    (hst : ((s.looksAt (tileRegion t) (s.tstream i).asked).touch (tileRegion t) k' l').storeChunk (tileRegion t) r.tag
      (s.accumNew r (s.tstream i))
      (accumChunk ((l'.data.drop (s.accumOld r (s.tstream i) % 128)).take 64) (leBytes 64 pay.toNat)) = some v) :
    ∃ asked y, s.takeChunk t = .next (((v.setTstream i y).gaveChunk t rest).setTstream i
      { s.tstream i with given := (s.tstream i).given + 1, asked := asked }) := by
  unfold State.accumOld at hl' hh hst
  unfold State.accumNew State.looksAt at hst
  simp only [State.takeChunk, h.first, h.stream, if_neg (not_not_intro h.up), if_pos hk, if_neg hs,
    if_neg (show ¬(r.zevery ≠ 0 ∧ _) from hf)]
  simp only [hl', if_pos hh, hst]
  exact ⟨_, _, rfl⟩

section
variable (hk : r.kind = 3) {was : List Byte}
include hk

/-- An ACCUM chunk is added to zeros, or to the old values, in the lent segment. -/
theorem chunkTake_accumLent (hs : r.space = 1)
    (hw : r.startsAnew (s.tstream i) ∧ was = zeros 64 ∨
      ¬r.startsAnew (s.tstream i) ∧ was = ((s.region (tileRegion t)).lent r.seg).readN (s.accumOld r (s.tstream i)) 64) :
    ∃ u, TakesChunk t i rest s u ∧
      ((u.region (tileRegion t)).lent r.seg).readN (s.accumNew r (s.tstream i)) 64 = accumChunk was (leBytes 64 pay.toNat) := by
  have hwas : (if r.zevery ≠ 0 ∧ (s.tstream i).gen % r.zevery = 0 then zeros 64
      else ((s.region (tileRegion t)).lent r.seg).readN (s.accumOld r (s.tstream i)) 64) = was := by
    rcases hw with ⟨hf, rfl⟩ | ⟨hf, rfl⟩
    · exact if_pos hf
    · exact if_neg hf
  have ht : s.takeChunk t = .next (((s.lends (tileRegion t) r.seg (s.accumNew r (s.tstream i))
      (accumChunk was (leBytes 64 pay.toNat))).gaveChunk t rest).setTstream i { s.tstream i with given := (s.tstream i).given + 1 }) := by
    rw [← hwas]
    simp only [State.takeChunk, h.first, h.stream, if_neg (not_not_intro h.up), if_pos hk, if_pos hs]
    rfl
  refine ⟨_, takesChunk_of_next h (onlyStores_lends s _ _ _ _).mem ht rfl rfl, ?_⟩
  rw [State.region_setTstream, region_gaveChunk, readN_lends s _ _ _ (length_accumChunk _ _)]

variable (hs : r.space ≠ 1) {k : Nat} {l : Line}
  (hl : (s.region (tileRegion t)).find r.tag (lineAddr (s.accumNew r (s.tstream i))) = some (k, l)) (hd : l.data.length = 128)
  (ha : s.accumNew r (s.tstream i) % 64 = 0)
include hs hl hd ha

/-- An ACCUM chunk of a generation that starts from zeros goes to its new line. -/
theorem chunkTake_accumAnew (hf : r.startsAnew (s.tstream i)) : ∃ u, TakesChunk t i rest s u ∧
    (u.region (tileRegion t)).Holds r.tag (s.accumNew r (s.tstream i)) k (accumChunk (zeros 64) (leBytes 64 pay.toNat)) := by
  have ht : s.takeChunk t = .next (((s.touch (tileRegion t) k (l.withChunk (s.accumNew r (s.tstream i))
      (accumChunk (zeros 64) (leBytes 64 pay.toNat)))).gaveChunk t rest).setTstream i
        { s.tstream i with given := (s.tstream i).given + 1 }) := by
    have hst := storeChunk_of_find (bs := accumChunk (zeros 64) (leBytes 64 pay.toNat)) hl
    unfold State.accumNew at hst ⊢
    simp only [State.takeChunk, h.first, h.stream, if_neg (not_not_intro h.up), if_pos hk, if_neg hs,
      if_pos (show r.zevery ≠ 0 ∧ _ from hf), hst]
    rfl
  refine ⟨_, takesChunk_of_next h (onlyStores_touch s _ _ _).mem ht rfl rfl, ?_⟩
  rw [State.region_setTstream, region_gaveChunk]
  exact storeChunk_holds hl hd ha (length_accumChunk _ _)

/-- An ACCUM chunk whose old values the store has on another line is added to them and goes to its new line. -/
theorem chunkTake_accumAdd (hf : ¬r.startsAnew (s.tstream i)) {k' : Nat} {l' : Line}
    (hne : lineAddr (s.accumOld r (s.tstream i)) ≠ lineAddr (s.accumNew r (s.tstream i)))
    (hl' : (s.region (tileRegion t)).find r.tag (lineAddr (s.accumOld r (s.tstream i))) = some (k', l')) (hk' : k' ≠ k)
    (hh : l'.half (s.accumOld r (s.tstream i)) = true)
    (hw : was = (l'.data.drop (s.accumOld r (s.tstream i) % 128)).take 64) : ∃ u, TakesChunk t i rest s u ∧
      (u.region (tileRegion t)).Holds r.tag (s.accumNew r (s.tstream i)) k (accumChunk was (leBytes 64 pay.toNat)) := by
  subst hw
  -- the use of the old values' line leaves the new values' line where it was
  have hline : l'.line ≠ lineAddr (s.accumNew r (s.tstream i)) := (Region.find_spec hl').2 ▸ hne
  have hnew := find_touch_other (find_looksAt hl (s.tstream i).asked) hk' hline
  obtain ⟨asked, y, ht⟩ := takeChunk_of_oldValues h hk hs hf hl' hh (storeChunk_of_find hnew)
  have hused := (onlyStores_looksAt s (tileRegion t) (s.tstream i).asked).trans (onlyStores_touch _ (tileRegion t) k' l')
  refine ⟨_, takesChunk_of_next h ((State.setTstream_mem _ i y).trans (hused.trans (onlyStores_touch _ _ k _)).mem) ht rfl rfl, ?_⟩
  rw [State.region_setTstream, region_gaveChunk, State.region_setTstream]
  exact storeChunk_holds hnew hd ha (length_accumChunk _ _)

end
end

/-! ## LINE_FETCH (R198) -/

/-- The last chunk of the walk that the next fetch of a stream covers: the next one, and the one after it on the same line. -/
def State.lastFetched (s : State) (i : Nat) (r : TierStream) : Nat :=
  let n := (s.tstream i).fetched
  if decide (n + 1 < s.accessLimit r ∧ lineAddr (s.chunkAt r r.base (n + 1)) = lineAddr (s.chunkAt r r.base n)) then n + 1 else n

/-- The store has those chunks. -/
def State.fetchHits (s : State) (i : Nat) (r : TierStream) : Bool :=
  [(s.tstream i).fetched, s.lastFetched i r].all (fun k =>
    match (s.region (tileRegion (s.ctile r.tile))).find r.tag (lineAddr (s.chunkAt r r.base k)) with
    | some (_, l) => l.half (s.chunkAt r r.base k)
    | none => false)

/-- A stream's look at the store: its request of the line, and the line's use. -/
def State.looksUp (s : State) (rg : Nat) (r : TierStream) (line n : Nat) (hit : Bool) : State :=
  let s := if r.space = 1 then s else s.request rg r.tag line n hit
  match (s.region rg).find r.tag line with
  | some (k, l) => if r.space = 1 then s else s.touch rg k l
  | none => s

/-- The state whose stream has fetched its next line. -/
def State.fetchesLine (s : State) (i : Nat) (r : TierStream) : State :=
  let v := s.looksUp (tileRegion (s.ctile r.tile)) r (lineAddr (s.chunkAt r r.base (s.tstream i).fetched)) (s.members r).length
    (s.fetchHits i r)
  v.setTstream i { v.tstream i with fetched := s.lastFetched i r + 1, accessed := true }

theorem lastFetched_bounds (s : State) (i : Nat) (r : TierStream) :
    (s.tstream i).fetched ≤ s.lastFetched i r ∧ s.lastFetched i r ≤ (s.tstream i).fetched + 1 := by
  unfold State.lastFetched
  dsimp only
  split <;> omega

theorem fetchHits_of_none {s : State} {i : Nat} {r : TierStream}
    (h : (s.region (tileRegion (s.ctile r.tile))).find r.tag (lineAddr (s.chunkAt r r.base (s.tstream i).fetched)) = none) :
    s.fetchHits i r = false := by
  simp [State.fetchHits, h]

theorem onlyStores_looksUp (s : State) (rg : Nat) (r : TierStream) (line n : Nat) (hit : Bool) :
    OnlyStores s (s.looksUp rg r line n hit) := by
  have k : OnlyStores s (if r.space = 1 then s else s.request rg r.tag line n hit) := .ite (.refl s) (onlyStores_request s rg _ _ _ _)
  unfold State.looksUp
  dsimp only
  split
  · exact .ite k (k.trans (onlyStores_touch _ _ _ _))
  · exact k

/-- A line that the store lacks is on its way. -/
theorem awaits_looksUp {s : State} {rg : Nat} {r : TierStream} {line : Nat} (n : Nat) (hs : r.space ≠ 1)
    (h : (s.region rg).find r.tag line = none) : ((s.looksUp rg r line n false).region rg).Awaits r.tag line := by
  simp only [State.looksUp, if_neg hs, find_request, h]
  exact awaits_request s rg r.tag line n

section
variable (s : State) (i : Nat) (r : TierStream)

theorem mem_fetchesLine : (s.fetchesLine i r).mem = s.mem := (onlyStores_looksUp s _ r _ _ _).mem
theorem hostMem_fetchesLine : (s.fetchesLine i r).hostMem = s.hostMem := (onlyStores_looksUp s _ r _ _ _).hostMem
theorem tile_fetchesLine (t : Nat) : (s.fetchesLine i r).tile t = s.tile t := (onlyStores_looksUp s _ r _ _ _).tile t

theorem tstream_fetchesLine :
    ((s.fetchesLine i r).tstream i).fetched = s.lastFetched i r + 1 ∧ ((s.fetchesLine i r).tstream i).accessed = true := by
  rw [State.fetchesLine, State.tstream_setTstream_same]
  exact ⟨rfl, rfl⟩

end

/-- The line that a fetch misses is on its way. -/
theorem awaits_fetchesLine {s : State} {i : Nat} {r : TierStream} (hs : r.space ≠ 1)
    (h : (s.region (tileRegion (s.ctile r.tile))).find r.tag (lineAddr (s.chunkAt r r.base (s.tstream i).fetched)) = none) :
    ((s.fetchesLine i r).region (tileRegion (s.ctile r.tile))).Awaits r.tag (lineAddr (s.chunkAt r r.base (s.tstream i).fetched)) := by
  rw [State.fetchesLine, State.region_setTstream, fetchHits_of_none h]
  exact awaits_looksUp _ hs h

/-- A stream whose slowest member has caught up with its fetches fetches the next line. -/
theorem lineFetch_next {s : State} {i : Nat} {r : TierStream} (hr : s.tsRec i = some r) (hk : r.kind = 1)
    (hup : s.tierUp (tileRegion (s.ctile r.tile)) = true) (hw : s.wp.released = true) (hlim : (s.tstream i).fetched < s.accessLimit r)
    (hlo : (s.tstream i).fetched = s.slowest i r) :
    Completes (.lineFetch i .ok) s ((s.fetchesLine i r).deliverAll (tileRegion (s.ctile r.tile))) := by
  show execLineFetch i .ok s = _
  unfold execLineFetch
  rw [hr]
  dsimp only
  refine Eq.trans (if_neg ?_) rfl
  simp [hk, hup, hw, ← hlo, hlim]

/-! ## LINE_FILL (R178) -/

/-- A line as a fill brings it: whole, valid and clean. -/
def State.filledLine (s : State) (f : Fill) : Line := ⟨f.space, f.line, true, true, false, false, s.tierRead f.space (128 * f.line) 128, 0⟩

/-- The state whose region has taken fill `n`, of line `f`, into way `w`. -/
def State.fillsLine (s : State) (r n w : Nat) (f : Fill) : State :=
  (s.touch r (16 * setOf f.line + w) (s.filledLine f)).modRegion r (fun x => { x with fills := x.fills.eraseIdx n })

section
variable (s : State) (r n w : Nat) (f : Fill)

theorem line_fillsLine : ((s.fillsLine r n w f).region r).line (setOf f.line) w =
    some { s.filledLine f with used := (s.region r).clock + 1 } := by
  rw [State.fillsLine, State.region_modRegion_same]
  exact line_touch_place s r (setOf f.line) w (s.filledLine f)

theorem fills_fillsLine : ((s.fillsLine r n w f).region r).fills = (s.region r).fills.eraseIdx n := by
  rw [State.fillsLine, State.region_modRegion_same, State.touch, State.region_modRegion_same]

theorem onlyStores_fillsLine : OnlyStores s (s.fillsLine r n w f) := (onlyStores_touch s r _ _).trans (onlyStores_modRegion _ r _)

end

/-- A fill of a line that the store lacks takes a free way of its set. -/
theorem lineFill_next {s : State} {r n w : Nat} {f : Fill} (hf : (s.region r).fills[n]? = some f) (hup : s.tierUp r = true)
    (hd : s.stackHeld f.space (128 * f.line) 128 = false) (hn : (s.region r).find f.space f.line = none)
    (hw : s.freeWay r (setOf f.line) = some w) : Completes (.lineFill r n .ok false false) s
      ((s.fillsLine r n w f).deliverAll r) := by
  obtain ⟨htier, hflow⟩ := doors_of_tierUp hup
  show execLineFill r n .ok false false s = _
  unfold execLineFill
  rw [hf]
  dsimp only
  rw [htier, hflow, if_neg (by simp), if_neg (by simp [hup, hd]), if_neg (by simp), if_neg (by simp), hn, hw]
  rfl

/-! ## WRITE_BACK (R181) -/

/-- The dirty victim of a full set is written back, while a fill or a chunk waits for the set. -/
theorem writeBack_next {s : State} {r set way : Nat} {l : Line} (hup : s.tierUp r = true) (he : s.evictionDue r set = true)
    (hfull : (s.ways r set).any (fun w => ((s.region r).line set w).isNone) = false) (hv : s.victim r set = some (way, l))
    (hd : l.dirty = true) (hs : l.space = 0) (hh : s.stackHeld 0 (128 * l.line) 128 = false) :
    Completes (.writeBack r set way .ok false) s ((s.writtenBack l).modRegion r
      (fun x => { x with lines := putLine x.lines (16 * set + way) { l with dirty0 := false, dirty1 := false } })) := by
  rw [← cleanLine_device s r (16 * set + way) hs]
  show execWriteBack r set way .ok false s = _
  unfold execWriteBack
  rw [if_neg (by simp [hup, he, hfull]), hv]
  dsimp only
  rw [if_pos ⟨rfl, hd, by simp [hs, hh]⟩, if_neg (by simp), if_neg (by simp), rsEvent_ok, line_of_victim hv]

end Sys2Proof.Machine
end

section
/-! The statement of 06 about the memory tiers: port accesses, chunks, fetches, fills and write-backs. -/

namespace Sys2Proof.Proofs

open Sys2Proof.Machine

/-- Settles O53: each command's next state is named (`portAccess_in` to `writeBack_next`); what it holds is read from the update it makes,
which the deliveries after it leave (`onlyPortIn_deliverAll`). -/
theorem tierTransfers : Obligations.TierTransfers := by
  intro s
  refine ⟨?port, ?chunk, ?accum, ?fetch, ?fill, ?writeBack⟩
  case port =>
    intro t w m i r himg hstream hfires hdue hserved hup hlow hhigh
    have h : PortServes s t w m i r := ⟨himg, hstream, hfires, hdue, hserved, hup, hlow, hhigh⟩
    refine ⟨fun pay hmode hpay => ?_, fun hmode hslot => ?_⟩
    · have hd := onlyPortIn_deliverAll (s.portAccessed t i ((s.tile t).portTakes m w pay)) (tileRegion t)
      have htile := tile_portAccessed_same s t i ((s.tile t).portTakes m w pay)
      refine ⟨_, portAccess_in h hmode hpay, ?_, ?_, ?_, ?_, fun t' ht => ?_, ?_⟩
      · rw [hd.spad, htile]
        rfl
      · rw [hd.winOf, htile, served_portTakes]
      · rw [hd.tstream, taken_portAccessed]
      · have hrest := hd.tileCongr t
          (fun y => { y with spad := (s.tile t).spad, wins := (s.tile t).wins, portIn := (s.tile t).portIn })
        rw [htile] at hrest
        exact hrest
      · rw [hd.spad, tile_portAccessed_other s t i _ ht]
      · rw [hd.mem, mem_portAccessed]
    · have htile := tile_portAccessed_same s t i ((s.tile t).portGives m w)
      refine ⟨_, portAccess_out h hmode hslot, ?_, ?_, ?_, fun t' ht => tile_portAccessed_other s t i _ ht⟩
      · rw [htile]
        rfl
      · rw [htile, served_portGives]
      · rw [htile]
        rfl
  case chunk =>
    intro t w pay rest i r hfirst hstream hup hkind
    have h : ChunkLeaves s t w pay rest i r := ⟨hfirst, hstream, hup⟩
    refine ⟨fun hspace => ?_, fun k l hspace hfind hlen halign => ?_⟩
    · obtain ⟨u, hu, hread, hframe⟩ := chunkTake_lent h hkind hspace
      exact ⟨u, hu.completes, hu.portOut, hu.given, hread, hframe⟩
    · obtain ⟨u, hu, l', hl', hhalf, hdirty, hdata⟩ := chunkTake_store h hkind hspace hfind hlen halign
      exact ⟨u, l', hu.completes, hu.portOut, hu.given, hl', hhalf, hdirty, hdata, hu.mem⟩
  case accum =>
    intro t w pay rest i r hfirst hstream hup hkind
    have h : ChunkLeaves s t w pay rest i r := ⟨hfirst, hstream, hup⟩
    refine ⟨fun was hspace hwas => ?_, fun k l was hspace hfind hlen halign hwas => ?_⟩
    · obtain ⟨u, hu, hread⟩ := chunkTake_accumLent h hkind hspace hwas
      exact ⟨u, hu.completes, hu.portOut, hu.given, hu.gen, hread, hu.mem⟩
    · obtain ⟨u, hu, l', hl', hhalf, hdirty, hdata⟩ : ∃ u, TakesChunk t i rest s u ∧ (u.region (tileRegion t)).Holds r.tag
          (s.accumNew r (s.tstream i)) k (accumChunk was (leBytes 64 pay.toNat)) := by
        rcases hwas with ⟨hanew, rfl⟩ | ⟨hold, hlines, k', l', hfind', hk', hhalf, hwas⟩
        · exact chunkTake_accumAnew h hkind hspace hfind hlen halign hanew
        · exact chunkTake_accumAdd h hkind hspace hfind hlen halign hold hlines hfind' hk' hhalf hwas
      exact ⟨u, l', hu.completes, hu.portOut, hu.given, hu.gen, hl', hhalf, hdirty, hdata, hu.mem⟩
  case fetch =>
    intro i r hrec hkind hup hreleased hlimit hslow
    have hd := onlyPortIn_deliverAll (s.fetchesLine i r) (tileRegion (s.ctile r.tile))
    obtain ⟨hfetched, haccessed⟩ := tstream_fetchesLine s i r
    obtain ⟨hlow, hhigh⟩ := lastFetched_bounds s i r
    refine ⟨_, lineFetch_next hrec hkind hup hreleased hlimit hslow, ?_, ?_, ?_, ?_, ?_, fun t => ?_, fun hspace hnone => ?_⟩
    · rw [hd.tstream, haccessed]
    · rw [hd.tstream, hfetched]
      omega
    · rw [hd.tstream, hfetched]
      omega
    · rw [hd.mem, mem_fetchesLine]
    · rw [hd.hostMem, hostMem_fetchesLine]
    · rw [hd.spad, tile_fetchesLine]
    · rw [hd.region]
      exact awaits_fetchesLine hspace hnone
  case fill =>
    intro r n f w hfill hup hheld hnone hway
    have hd := onlyPortIn_deliverAll (s.fillsLine r n w f) r
    refine ⟨_, { s.filledLine f with used := (s.region r).clock + 1 }, lineFill_next hfill hup hheld hnone hway, ?_,
      rfl, rfl, rfl, rfl, rfl, rfl, ?_, ?_, ?_⟩
    · rw [hd.region]
      exact line_fillsLine s r n w f
    · rw [hd.region]
      exact fills_fillsLine s r n w f
    · rw [hd.mem, (onlyStores_fillsLine s r n w f).mem]
    · rw [hd.hostMem, (onlyStores_fillsLine s r n w f).hostMem]
  case writeBack =>
    intro r set way l hup hdue hfull hvictim hdirty hspace hlen hheld
    refine ⟨_, writeBack_next hup hdue hfull hvictim hdirty hspace hheld, ?_, fun hd => ?_, fun hd => ?_, fun b hb => ?_, ?_⟩
    · rw [State.region_modRegion_same]
      exact line_putLine_place _ _ _ _
    · exact devRead_writtenBack_low s hlen hd
    · exact devRead_writtenBack_high s hlen hd
    · exact devByte_writtenBack s hlen hb
    · obtain ⟨m, j, e⟩ := writtenBack_eq s l
      rw [e]
      rfl

end Sys2Proof.Proofs
end

section
/-! SUPPORT. Weights as they are stored, and what the updates of an update unit's work leave alone (07 R213, R225-R228, R241). -/

namespace Sys2Proof.Machine

/-! ## Weights (R213) -/

/-- REM is the low half of a master weight, signed, and W its high half, one more where REM is negative. -/
theorem decodeWeight_encodeWeight (w : W32) (h : (encodeWeight w).2.2 = false) :
    decodeWeight (encodeWeight w).1 (encodeWeight w).2.1 = w := by
  have hw := w.isLt
  have hb : encodeWeight w = ((w.toNat + 0x8000) / 65536 % 65536, w.toNat % 65536, false) := by
    simp only [encodeWeight] at h ⊢
    rw [h]
    rfl
  rw [hb]
  apply BitVec.eq_of_toNat_eq
  simp only [decodeWeight, BitVec.toNat_ofNat, signed, unsigned]
  split <;> omega

/-! ## Reads outside device memory -/

section
variable (s : State) (a : Nat) (bs : List Byte)

/-- What a function reads outside device memory is the same after a write. -/
theorem devWrite_congr {α : Type} (f : State → α) : f { s.devWrite a bs with mem := s.mem, jmem := s.jmem } = f s :=
  congrArg f (devWrite_restore s a bs)

@[simp] theorem updSec_devWrite : (s.devWrite a bs).updSec = s.updSec := devWrite_congr s a bs State.updSec
@[simp] theorem unit_devWrite (n : Nat) : (s.devWrite a bs).unit n = s.unit n := devWrite_congr s a bs (State.unit · n)
@[simp] theorem obj_devWrite (i j : Nat) : (s.devWrite a bs).obj i j = s.obj i j := devWrite_congr s a bs (State.obj · i j)

theorem devRead_devWrite_of_length {n : Nat} (h : bs.length = n) : (s.devWrite a bs).devRead a n = bs := h ▸ devRead_devWrite s a bs

@[simp] theorem length_devRead (n : Nat) : (s.devRead a n).length = n := by simp [State.devRead]
@[simp] theorem devRead_setUnit (m n : Nat) (y : UpdUnit) : (s.setUnit m y).devRead a n = s.devRead a n := rfl

end

/-! ## The updates of an element -/

/-- Nothing differs between two states but device memory, the dictionary, the Logbook and the training state. -/
def OnlyElement (s u : State) : Prop :=
  { u with mem := s.mem, jmem := s.jmem, dict := s.dict, log := s.log, upd := s.upd } = s

namespace OnlyElement

variable {s u v : State}

theorem trans (h : OnlyElement s u) (k : OnlyElement u v) : OnlyElement s v := by
  unfold OnlyElement at h k ⊢
  exact (congrArg (fun x : State => { x with mem := s.mem, jmem := s.jmem, dict := s.dict, log := s.log, upd := s.upd }) k).trans h

/-- What a function reads outside those is the same. -/
theorem congr (h : OnlyElement s u) {α : Type} (f : State → α) :
    f { u with mem := s.mem, jmem := s.jmem, dict := s.dict, log := s.log, upd := s.upd } = f s := congrArg f h

theorem tiles (h : OnlyElement s u) : u.tiles = s.tiles := h.congr State.tiles
theorem chart (h : OnlyElement s u) : u.chart = s.chart := h.congr State.chart
theorem hostMem (h : OnlyElement s u) : u.hostMem = s.hostMem := h.congr State.hostMem

end OnlyElement

/-- What an element does before its unit advances: the unit stands, and so do the counts of elements (object 9041h, subindices 0 and 1). -/
structure KeepsUnit (n : Nat) (s u : State) : Prop where
  frame  : OnlyElement s u
  unit   : u.unit n = s.unit n
  counts : ∀ j, j < 2 → u.obj 0x9041 j = s.obj 0x9041 j

namespace KeepsUnit

variable {n : Nat} {s u v : State}

theorem refl (s : State) : KeepsUnit n s s := ⟨rfl, rfl, fun _ _ => rfl⟩

theorem trans (h : KeepsUnit n s u) (k : KeepsUnit n u v) : KeepsUnit n s v :=
  ⟨h.frame.trans k.frame, k.unit.trans h.unit, fun j hj => (k.counts j hj).trans (h.counts j hj)⟩

theorem devWrite (s : State) (a : Nat) (bs : List Byte) : KeepsUnit n s (s.devWrite a bs) := by
  refine ⟨?_, unit_devWrite s a bs n, fun j _ => obj_devWrite s a bs _ j⟩
  obtain ⟨m, j, e⟩ := devWrite_eq bs s a
  rw [e]
  rfl

theorem event (s : State) (src code : Nat) (data : List Byte) : KeepsUnit n s (s.event src code data) := by
  obtain ⟨l, e⟩ := event_eq s src code data
  rw [e]
  exact ⟨rfl, rfl, fun _ _ => rfl⟩

/-- A count of parameters (subindices 3 and 4) is no count of elements. -/
theorem bump (s : State) {i : Nat} (k : Nat) (hi : 2 ≤ i) (hi' : i < 256) : KeepsUnit n s (s.bump 0x9041 i 64 k) :=
  ⟨rfl, rfl, fun j hj => obj_bump_other s 64 k (by unfold okey; omega)⟩

theorem countBlock (s : State) (u : Nat) (e : CElem) (b : NewBlock) : KeepsUnit n s (s.countBlock u e b) := by
  have hcount : KeepsUnit n s ((s.bump 0x9041 3 64 b.bad.length).bump 0x9041 4 64 b.sats) :=
    (bump s _ (by decide) (by decide)).trans (bump _ _ (by decide) (by decide))
  unfold State.countBlock
  dsimp only
  generalize (s.bump 0x9041 3 64 b.bad.length).bump 0x9041 4 64 b.sats = t at hcount ⊢
  have hmark : KeepsUnit n t { t with upd := { t.upd with nonfin := true } } := ⟨rfl, rfl, fun _ _ => rfl⟩
  split
  · exact hcount
  · split
    · exact hcount
    · exact (hcount.trans hmark).trans (event _ _ _ _)

theorem weightImage (s : State) (e : CElem) (block : List Byte) : KeepsUnit n s (s.weightImage e block) := by
  unfold State.weightImage
  split
  · exact devWrite s _ _
  · exact refl s

end KeepsUnit

/-- The state whose unit has finished an element of a group in the stack: a location goes to its pool, the weights to their image, the
element is counted under subindex `j`, and the unit stands at the next. -/
def State.closesElem (s : State) (n : Nat) (x : UnitRec) (e : CElem) (loc : Nat) (block : List Byte) (j : Nat) : State :=
  (((s.poolPush n x loc).weightImage e block).bump 0x9041 j 64 1).nextElem n

/-- A unit has advanced by an element, its pool by a location and the count of such elements by one. -/
structure Advances (n j : Nat) (s u : State) : Prop where
  frame : OnlyElement s u
  unit  : u.unit n = { s.unit n with
    pos := (s.unit n).pos + 1, filled := false, backed := false,
    whead := ((s.unit n).whead + 1) % 2 ^ 32, wtail := ((s.unit n).wtail + 1) % 2 ^ 32 }
  count : u.obj 0x9041 j = satAdd 64 (s.obj 0x9041 j) 1

theorem KeepsUnit.advances {n j : Nat} {s u v : State} (h : KeepsUnit n s u) (hj : j < 2) (k : Advances n j u v) : Advances n j s v :=
  ⟨h.frame.trans k.frame, by rw [k.unit, h.unit], by rw [k.count, h.counts j hj]⟩

theorem onlyElement_setUnit (s : State) (n : Nat) (y : UpdUnit) : OnlyElement s (s.setUnit n y) := rfl
theorem onlyElement_bump (s : State) (i j b k : Nat) : OnlyElement s (s.bump i j b k) := rfl

theorem advances_closesElem (s : State) (n : Nat) (x : UnitRec) (e : CElem) (loc : Nat) (block : List Byte) {j : Nat} (hj : j < 2) :
    Advances n j s (s.closesElem n x e loc block j) := by
  unfold State.closesElem State.poolPush State.nextElem
  dsimp only
  have hpool : KeepsUnit n s (s.devWrite (x.pool + 4 * ((s.unit n).wtail % x.poolSize)) (leBytes 4 (loc % 2 ^ 24))) := .devWrite s _ _
  generalize s.devWrite (x.pool + 4 * ((s.unit n).wtail % x.poolSize)) (leBytes 4 (loc % 2 ^ 24)) = v at hpool ⊢
  generalize hy : { s.unit n with whead := ((s.unit n).whead + 1) % 2 ^ 32, wtail := ((s.unit n).wtail + 1) % 2 ^ 32 } = y
  have himage : KeepsUnit n (v.setUnit n y) ((v.setUnit n y).weightImage e block) := .weightImage _ e block
  generalize (v.setUnit n y).weightImage e block = w at himage ⊢
  have hunit : (w.bump 0x9041 j 64 1).unit n = y := himage.unit.trans (State.unit_setUnit_same v n y)
  refine ⟨?_, ?_, ?_⟩
  · exact (((hpool.frame.trans (onlyElement_setUnit v n y)).trans himage.frame).trans (onlyElement_bump w _ _ _ _)).trans
      (onlyElement_setUnit _ n _)
  · rw [State.unit_setUnit_same, hunit, ← hy]
  · rw [State.obj_setUnit, obj_bump_same, himage.counts j hj, State.obj_setUnit, hpool.counts j hj]

/-- An element that the present commit has not stepped yet: its new block goes to the pool's head, its old location to the pool. -/
theorem stackElem_new {s : State} {n : Nat} (cu : Upd) {x : UnitRec} {e : CElem}
    (h : meStep (s.mapEntry x e.ix) ≠ ((s.unit n).k + 1) % 16384) : Advances n 0 s (s.stackElem n cu x e) := by
  unfold State.stackElem
  dsimp only
  rw [if_neg h]
  exact (((KeepsUnit.countBlock s n e _).trans (.devWrite _ _ _)).trans (.devWrite _ _ _)).advances (by decide)
    (advances_closesElem _ n x e _ _ (by decide))

/-- An element of the present commit's step whose location stands at the pool's head: the commit has made it before. -/
theorem stackElem_repeated {s : State} {n : Nat} (cu : Upd) {x : UnitRec} {e : CElem}
    (h : meStep (s.mapEntry x e.ix) = ((s.unit n).k + 1) % 16384) (hp : s.poolHead n x = meCur (s.mapEntry x e.ix)) :
    Advances n 1 s (s.stackElem n cu x e) := by
  unfold State.stackElem
  dsimp only
  rw [if_pos h, if_neg (not_not_intro hp)]
  exact advances_closesElem s n x e _ _ (by decide)

/-- POOL_MISMATCH is of class S (15 Table RCV-2). -/
theorem stackElem_poolMismatch {s : State} {n : Nat} (cu : Upd) {x : UnitRec} {e : CElem}
    (h : meStep (s.mapEntry x e.ix) = ((s.unit n).k + 1) % 16384) (hp : s.poolHead n x ≠ meCur (s.mapEntry x e.ix)) :
    Records s (s.stackElem n cu x e) 0x30 := by
  unfold State.stackElem
  dsimp only
  rw [if_pos h, if_pos hp]
  exact (raisedS_raiseFault s (f := ⟨0x30, clsS, (.update, n), none, none, 5, some n, _⟩) rfl rfl).records

/-! ## Units that begin -/

/-- Nothing differs between two states but the update units. -/
def OnlyUnits (s u : State) : Prop := { u with upd := { u.upd with units := s.upd.units } } = s

theorem OnlyUnits.trans {s u v : State} (h : OnlyUnits s u) (k : OnlyUnits u v) : OnlyUnits s v := by
  unfold OnlyUnits at h k ⊢
  exact (congrArg (fun x : State => { x with upd := { x.upd with units := s.upd.units } }) k).trans h

theorem OnlyUnits.congr {s u : State} (h : OnlyUnits s u) {α : Type} (f : State → α) :
    f { u with upd := { u.upd with units := s.upd.units } } = f s := congrArg f h

theorem onlyUnits_setUnit (s : State) (n : Nat) (y : UpdUnit) : OnlyUnits s (s.setUnit n y) := rfl

/-- A unit stands at the beginning of its commit, K commits having gone before. -/
def UpdUnit.Begun (y : UpdUnit) (k : Nat) : Prop := y.active = true ∧ y.pos = 0 ∧ y.k = k

theorem k_beginUnit (s : State) (cu : Upd) (m n : Nat) : ((s.beginUnit cu m).unit n).k = (s.unit n).k := by
  unfold State.beginUnit
  by_cases h : n = m
  · rw [h, State.unit_setUnit_same]
  · rw [State.unit_setUnit_other s _ h]

theorem begun_beginUnit (s : State) (cu : Upd) (n : Nat) : ((s.beginUnit cu n).unit n).Begun (s.unit n).k := by
  unfold State.beginUnit
  rw [State.unit_setUnit_same]
  exact ⟨rfl, rfl, rfl⟩

theorem begun_beginUnit_of_begun {s : State} (cu : Upd) (m : Nat) {n k : Nat} (h : (s.unit n).Begun k) :
    ((s.beginUnit cu m).unit n).Begun k := by
  by_cases e : n = m
  · have hk : (s.unit n).k = k := h.2.2
    exact e ▸ hk ▸ begun_beginUnit s cu n
  · rwa [State.beginUnit, State.unit_setUnit_other s _ e]

/-- The units of some records begin, in order. -/
def State.beginUnits (s : State) (cu : Upd) (xs : List UnitRec) : State :=
  forEach xs s (fun s x => s.beginUnit cu (2 * x.stack + x.unit))

theorem onlyUnits_beginUnits (s : State) (cu : Upd) (xs : List UnitRec) : OnlyUnits s (s.beginUnits cu xs) :=
  forEach_keeps (OnlyUnits s) _ xs (fun u _ _ h => h.trans (onlyUnits_setUnit u _ _)) s rfl

theorem begun_beginUnits (cu : Upd) (xs : List UnitRec) : ∀ (s : State), ∀ x ∈ xs,
    ((s.beginUnits cu xs).unit (2 * x.stack + x.unit)).Begun (s.unit (2 * x.stack + x.unit)).k := by
  induction xs with
  | nil => intro _ _ h; cases h
  | cons y ys ih =>
    intro s x hx
    obtain rfl | hx := List.mem_cons.1 hx
    · exact forEach_keeps (fun u => (u.unit (2 * x.stack + x.unit)).Begun (s.unit (2 * x.stack + x.unit)).k) _ ys
        (fun u z _ h => begun_beginUnit_of_begun cu _ h) _ (begun_beginUnit s cu _)
    · have h := ih (s.beginUnit cu (2 * y.stack + y.unit)) x hx
      rwa [k_beginUnit] at h

end Sys2Proof.Machine
end

section
/-! SUPPORT. What the commands of the update units do where their conditions hold: staging, the commit, its elements, paging and readiness
(07 R222, R225, R227, R231, R244; 15 R433). -/

namespace Sys2Proof.Machine

/-! ## STAGING_BUCKET_RECEIVE (R222) -/

/-- The complete sums of a bucket stand before the unit that has its blocks, from staging index `j`. -/
structure StagesBucket (s : State) (cu : Upd) (n grp b i : Nat) (x : UnitRec) (g : RGroup) (j : Nat) : Prop where
  sec      : s.updSec = some cu
  unit     : s.unitRec n = some (i, x)
  group    : s.rgroup grp = some g
  index    : stageIx (cu.runsOf x) grp (32 * b) 0 = some j
  running  : s.running = true
  up       : s.unitUp n = true
  door     : s.doorClosed .stack x.stack = false
  accept   : (s.unit n).accept = true
  unstaged : (grp, b) ∉ (s.unit n).staged
  complete : ∀ h c, h < 2 → c < 171 → (s.redn.sums.find? (fun p => decide (p.group = grp ∧ p.bucket = b ∧ p.half = h ∧ p.chunk = c ∧
    p.axis = g.axisList.length))).isSome = true

/-- The complete sums of half `h` of a bucket, chunk by chunk. -/
def State.bucketHalf (s : State) (g : RGroup) (grp b h : Nat) : List (Option SumPart) :=
  (List.range 171).map (fun c => s.redn.sums.find? (fun p =>
    decide (p.group = grp ∧ p.bucket = b ∧ p.half = h ∧ p.chunk = c ∧ p.axis = g.axisList.length)))

/-- The values that a unit stages of both halves, as FP16, and whether each saturated. -/
def State.bucketValues (s : State) (g : RGroup) (grp b : Nat) : List (W16 × Bool) :=
  ((s.bucketHalf g grp b 0 ++ s.bucketHalf g grp b 1).flatMap (fun p => match p with | some q => q.sums | none => [])).map (s.stagedValue g b)

theorem bucketHalf_complete {s : State} {cu : Upd} {n grp b i : Nat} {x : UnitRec} {g : RGroup} {j : Nat}
    (h : StagesBucket s cu n grp b i x g j) {k : Nat} (hk : k < 2) : (s.bucketHalf g grp b k).all Option.isSome = true := by
  rw [List.all_eq_true]
  intro p hp
  obtain ⟨c, hc, rfl⟩ := List.mem_map.1 hp
  exact h.complete k c hk (List.mem_range.1 hc)

/-- The state whose unit has staged a bucket's values at an address; the sums are gone. -/
def State.stages (s : State) (n grp b a : Nat) (vals : List (W16 × Bool)) : State :=
  let t := (s.devWrite a (vals.flatMap (fun v => leBytes 2 v.1.toNat))).bump 0x9041 2 64 (vals.filter (·.2)).length
  let t := t.setUnit n { t.unit n with staged := (s.unit n).staged ++ [(grp, b)] }
  { t with redn := { t.redn with sums := t.redn.sums.filter (fun p => !(decide (p.group = grp ∧ p.bucket = b))) } }

theorem stagingBucketReceive_next {s : State} {cu : Upd} {n grp b i : Nat} {x : UnitRec} {g : RGroup} {j : Nat}
    (h : StagesBucket s cu n grp b i x g j) :
    Completes (.stagingBucketReceive n grp b) s (s.stages n grp b (x.stage + 1024 * j) (s.bucketValues g grp b)) := by
  have hall : (s.bucketHalf g grp b 0 ++ s.bucketHalf g grp b 1).all Option.isSome = true := by
    rw [List.all_append, bucketHalf_complete h (by decide), bucketHalf_complete h (by decide)]
    rfl
  show execStagingBucketReceive n grp b s = _
  unfold execStagingBucketReceive
  rw [h.sec, h.unit, h.group]
  dsimp only
  rw [h.index]
  exact if_pos ⟨h.running, h.up, by simp [h.door], h.accept, by simp [h.unstaged], hall⟩

section
variable (s : State) (n grp b a : Nat) (vals : List (W16 × Bool))

theorem unit_stages : (s.stages n grp b a vals).unit n = { s.unit n with staged := (s.unit n).staged ++ [(grp, b)] } := by
  have h : ∀ t : State, t.unit n = s.unit n → (t.setUnit n { t.unit n with staged := (s.unit n).staged ++ [(grp, b)] }).unit n =
      { s.unit n with staged := (s.unit n).staged ++ [(grp, b)] } := fun t ht => by rw [State.unit_setUnit_same, ht]
  exact h _ (unit_devWrite s a _ n)

theorem stages_frame : (s.stages n grp b a vals).redn =
      { s.redn with sums := s.redn.sums.filter (fun p => !(decide (p.group = grp ∧ p.bucket = b))) } ∧
    { s.stages n grp b a vals with mem := s.mem, jmem := s.jmem, dict := s.dict, upd := s.upd, redn := s.redn } = s := by
  unfold State.stages
  obtain ⟨m, j, e⟩ := devWrite_eq (vals.flatMap (fun v => leBytes 2 v.1.toNat)) s a
  rw [e]
  exact ⟨rfl, rfl⟩

end

/-! ## COMMIT_START (R225) -/

/-- A commit step's commit waits for its decision. -/
structure CommitWaits (s : State) (cu : Upd) : Prop where
  sec       : s.updSec = some cu
  running   : s.running = true
  opens     : s.commitOpen = true
  step      : s.commitStep = true
  unstarted : s.upd.started = false
  idle      : s.rcv.phase = .idle
  staged    : cu.units.all s.stagingDone = true
  unheld    : s.stackHeld 0 cu.commit 64 = false

/-- The state in which the commit has begun. -/
def State.startsCommit (s : State) : State := { s with upd := { s.upd with started := true } }

/-- The state in which the commit has been decided: PHASE 2 for a skip, 1 for a commit. -/
def State.decides (s : State) (cu : Upd) : State := (s.devWrite cu.commit [if s.redn.flag then 2 else 1]).startsCommit

theorem commitNat_decides {s : State} {cu : Upd} (h : s.updSec = some cu) :
    (s.decides cu).commitNat 0 1 = if s.redn.flag then 2 else 1 := by
  have hsec : (s.decides cu).updSec = some cu := (updSec_devWrite s _ _).trans h
  have hread : (s.decides cu).devRead cu.commit 1 = [if s.redn.flag then 2 else 1] := devRead_devWrite s cu.commit [_]
  rw [State.commitNat, hsec]
  show leVal ((s.decides cu).devRead cu.commit 1) = _
  rw [hread]
  cases s.redn.flag <;> rfl

theorem unit_decides (s : State) (cu : Upd) (n : Nat) : (s.decides cu).unit n = s.unit n := unit_devWrite s _ _ n

theorem decides_frame (s : State) (cu : Upd) : { s.decides cu with mem := s.mem, jmem := s.jmem, upd := s.upd } = s := by
  unfold State.decides
  obtain ⟨m, j, e⟩ := devWrite_eq [if s.redn.flag then 2 else 1] s cu.commit
  rw [e]
  rfl

section
variable {s : State} {cu : Upd} (h : CommitWaits s cu) {ue : Option Nat}
include h

theorem CommitWaits.conditions : s.running ∧ s.commitOpen ∧ s.commitStep ∧ ¬s.upd.started ∧ decide (s.rcv.phase = .idle) ∧
    cu.units.all s.stagingDone ∧ ¬s.stackHeld 0 cu.commit 64 :=
  ⟨h.running, h.opens, h.step, by simp [h.unstarted], by simp [h.idle], h.staged, by simp [h.unheld]⟩

theorem commitStart_ue {a : Nat} (hu : ueIn ue (s.constReads cu) = some a) : Completes (.commitStart ue) s (s.stackUe a) := by
  show execCommitStart ue s = _
  unfold execCommitStart
  rw [h.sec]
  dsimp only
  rw [if_pos h.conditions, hu]

/-- A commit that has been finished before is not decided again (log 95). -/
theorem commitStart_finished (hu : ueIn ue (s.constReads cu) = none) (hf : s.upd.finished ≠ 0) :
    Completes (.commitStart ue) s s.startsCommit := by
  have hno : ¬(s.commitNat 0 1 = 0 ∧ s.upd.finished = 0) := fun e => hf e.2
  show execCommitStart ue s = _
  unfold execCommitStart
  rw [h.sec]
  dsimp only
  rw [if_pos h.conditions, hu]
  dsimp only
  rw [if_neg hno]
  exact if_pos (.inr hf)

theorem commitStart_decides (hu : ueIn ue (s.constReads cu) = none) (hf : s.upd.finished = 0) (hp : s.commitNat 0 1 = 0) :
    Completes (.commitStart ue) s (if s.redn.flag then s.decides cu else (s.decides cu).beginUnits cu cu.units) := by
  have hphase := commitNat_decides h.sec
  have hfin : (s.decides cu).upd.finished = 0 := (devWrite_congr s cu.commit _ (·.upd.finished)).trans hf
  have hdecide : s.commitNat 0 1 = 0 ∧ s.upd.finished = 0 := ⟨hp, hf⟩
  show execCommitStart ue s = _
  unfold execCommitStart
  rw [h.sec]
  dsimp only
  rw [if_pos h.conditions, hu]
  dsimp only
  rw [if_pos hdecide]
  show (if (s.decides cu).commitNat 0 1 = 2 ∨ (s.decides cu).upd.finished ≠ 0 then Host.Outcome.next (s.decides cu)
    else .next ((s.decides cu).beginUnits cu cu.units)) = _
  rw [hphase, hfin]
  cases s.redn.flag <;> rfl

end

/-- What a decision leaves, whether the units begin or not: a start, the PHASE, and nothing else but the units' records. -/
structure Decided (s : State) (cu : Upd) (u : State) : Prop where
  started : u.upd.started = true
  phase   : u.commitNat 0 1 = if s.redn.flag then 2 else 1
  frame   : { u with mem := s.mem, jmem := s.jmem, upd := s.upd } = s

theorem decided_of_onlyUnits {s u : State} {cu : Upd} (h : s.updSec = some cu) (k : OnlyUnits (s.decides cu) u) : Decided s cu u :=
  ⟨k.congr (·.upd.started), (k.congr (·.commitNat 0 1)).trans (commitNat_decides h),
    (k.congr (fun v => { v with mem := s.mem, jmem := s.jmem, upd := s.upd })).trans (decides_frame s cu)⟩

/-! ## COMMIT_ELEMENT (R227) -/

/-- A unit that works stands before an element of its commit. -/
structure HasElement (s : State) (cu : Upd) (n i : Nat) (x : UnitRec) (e : CElem) : Prop where
  sec    : s.updSec = some cu
  unit   : s.unitRec n = some (i, x)
  active : (s.unit n).active = true
  up     : s.unitUp n = true
  elem   : (cu.commitSeq x)[(s.unit n).pos]? = some e

section
variable {s : State} {cu : Upd} {n i : Nat} {x : UnitRec} {e : CElem} (h : HasElement s cu n i x e)
include h

theorem commitElement_eq (ue : Bool) : exec (.commitElement n ue) s =
    if s.elemHeld x e then .next s
    else if ue then .next (s.stackUe (s.elemSource cu x e (s.unit n).pos))
    else .next (if (cu.groups.getD e.grp {}).host then s.hostElem n cu x e else s.stackElem n cu x e) := by
  show execCommitElement n ue s = _
  unfold execCommitElement
  rw [h.sec, h.unit]
  dsimp only
  rw [if_pos ⟨h.active, h.up⟩, h.elem]

theorem commitElement_held (hh : s.elemHeld x e = true) (ue : Bool) : Completes (.commitElement n ue) s s := by
  rw [Completes, commitElement_eq h, if_pos hh]

theorem commitElement_ue (hh : s.elemHeld x e = false) :
    Completes (.commitElement n true) s (s.stackUe (s.elemSource cu x e (s.unit n).pos)) := by
  rw [Completes, commitElement_eq h, if_neg (by simp [hh]), if_pos rfl]

theorem commitElement_stack (hh : s.elemHeld x e = false) (hg : (cu.groups.getD e.grp {}).host = false) :
    Completes (.commitElement n false) s (s.stackElem n cu x e) := by
  rw [Completes, commitElement_eq h, if_neg (by simp [hh]), if_neg (by simp), if_neg (ne_true_of_eq_false hg)]

end

/-! ## PAGE_IN (R244) -/

/-- A unit and the tier engine that pages its blocks work, from the release of waypoint PAGE_WPT of a commit step. -/
structure Pages (s : State) (cu : Upd) (n i : Nat) (x : UnitRec) : Prop where
  sec     : s.updSec = some cu
  unit    : s.unitRec n = some (i, x)
  running : s.running = true
  up      : s.unitUp n = true
  tier    : s.tierUp (pagerOf n) = true
  step    : s.commitStep = true
  powered : s.pw.stacksUp = true
  door    : s.doorClosed .stack x.stack = false
  opens   : x.pageWpt + 1 < s.wptIx ∨ (x.pageWpt + 1 = s.wptIx ∧ s.wp.released = true)

/-- The state whose unit has paged the next block in from its slot. -/
def State.pagesIn (s : State) (n : Nat) (x : UnitRec) (slot : Nat) : State :=
  (s.devWrite (x.frame (s.unit n).paged) (s.hostMem.readN slot 4096)).setUnit n { s.unit n with paged := (s.unit n).paged + 1 }

/-- The state whose unit's frame has gone back to its slot. -/
def State.pagesBack (s : State) (n a slot : Nat) : State :=
  ({ s with hostMem := s.hostMem.writeN slot (s.devRead a 4096) } : State).setUnit n { s.unit n with backed := true }

section
variable {s : State} {cu : Upd} {n i : Nat} {x : UnitRec} {e : CElem} (h : Pages s cu n i x) {ue : Option Nat}
include h

theorem Pages.conditions : ¬¬(s.running ∧ s.unitUp n ∧ s.tierUp (pagerOf n) ∧ s.commitStep ∧ s.pw.stacksUp ∧ ¬s.doorClosed .stack x.stack ∧
    (x.pageWpt + 1 < s.wptIx ∨ (x.pageWpt + 1 = s.wptIx ∧ s.wp.released))) :=
  not_not_intro ⟨h.running, h.up, h.tier, h.step, h.powered, by simp [h.door], h.opens⟩

theorem pageIn_next (hf : ¬((s.unit n).active = true ∧ (s.unit n).filled = true ∧ ¬(s.unit n).backed = true))
    (he : (cu.hostElems x)[(s.unit n).paged]? = some e) (hl : (s.unit n).paged < cu.hostBefore x (s.unit n).pos + x.frameCnt) :
    Completes (.pageIn n false ue) s (s.pagesIn n x (s.hostSlot (cu.groups.getD e.grp {}) (meCur (s.mapEntry x e.ix)))) := by
  show execPageIn n false ue s = _
  unfold execPageIn
  rw [h.sec, h.unit]
  dsimp only
  rw [if_neg h.conditions, if_neg hf, he]
  dsimp only
  rw [if_pos hl]
  rfl

section
variable (hf : (s.unit n).active = true ∧ (s.unit n).filled = true ∧ (s.unit n).backed = false)
  (he : (cu.hostElems x)[cu.hostBefore x (s.unit n).pos]? = some e)
include hf he

/-- A block that has been filled and is not yet back goes first, unless the read of its frame meets an error. -/
theorem pageIn_back_eq : exec (.pageIn n false ue) s =
    (ueIn ue [(x.frame (cu.hostBefore x (s.unit n).pos), 4096)]).elim
      (.next (s.pagesBack n (x.frame (cu.hostBefore x (s.unit n).pos))
        (s.hostSlot (cu.groups.getD e.grp {}) (meCur (s.mapEntry x e.ix) ^^^ 1))))
      (fun a => .next (s.stackUe a)) := by
  obtain ⟨hactive, hfilled, hbacked⟩ := hf
  show execPageIn n false ue s = _
  unfold execPageIn
  rw [h.sec, h.unit]
  dsimp only
  rw [if_neg h.conditions, if_pos ⟨hactive, hfilled, by simp [hbacked]⟩, he]
  generalize ueIn ue [(x.frame (cu.hostBefore x (s.unit n).pos), 4096)] = r
  cases r <;> rfl

theorem pageIn_back (hu : ueIn ue [(x.frame (cu.hostBefore x (s.unit n).pos), 4096)] = none) :
    Completes (.pageIn n false ue) s (s.pagesBack n (x.frame (cu.hostBefore x (s.unit n).pos))
      (s.hostSlot (cu.groups.getD e.grp {}) (meCur (s.mapEntry x e.ix) ^^^ 1))) := by
  rw [Completes, pageIn_back_eq h hf he, hu, Option.elim]

theorem pageIn_back_ue {a : Nat} (hu : ueIn ue [(x.frame (cu.hostBefore x (s.unit n).pos), 4096)] = some a) :
    Completes (.pageIn n false ue) s (s.stackUe a) := by
  rw [Completes, pageIn_back_eq h hf he, hu, Option.elim]

end
end

theorem devRead_pagesIn (s : State) (n : Nat) (x : UnitRec) (slot : Nat) :
    (s.pagesIn n x slot).devRead (x.frame (s.unit n).paged) 4096 = s.hostMem.readN slot 4096 := by
  rw [State.pagesIn, devRead_setUnit, devRead_devWrite_of_length s _ _ (Memory.length_readN _ _ _)]

theorem pagesIn_frame (s : State) (n : Nat) (x : UnitRec) (slot : Nat) :
    { s.pagesIn n x slot with mem := s.mem, jmem := s.jmem, upd := s.upd } = s := by
  unfold State.pagesIn
  obtain ⟨m, j, e⟩ := devWrite_eq (s.hostMem.readN slot 4096) s (x.frame (s.unit n).paged)
  rw [e]
  rfl

theorem hostMem_pagesBack (s : State) (n a slot : Nat) : (s.pagesBack n a slot).hostMem.readN slot 4096 = s.devRead a 4096 ∧
    ∀ b, b < slot ∨ slot + 4096 ≤ b → (s.pagesBack n a slot).hostMem.read b = s.hostMem.read b := by
  rw [State.pagesBack, State.setUnit_hostMem]
  have hl := length_devRead s a 4096
  generalize s.devRead a 4096 = bs at hl ⊢
  exact ⟨hl ▸ s.hostMem.readN_writeN slot bs, fun b hb => Memory.read_writeN_outside bs _ _ (by rwa [hl])⟩

/-! ## UPDATE_UNIT_READY (R231) -/

/-- The state whose unit has saved its running record and is ready. -/
def State.savesUnit (s : State) (cu : Upd) (n a : Nat) : State :=
  (s.devWrite a (runningRecord (s.unit n) cu.groups.length)).setUnit n { s.unit n with ready := true }

/-- A waypoint that ends no commit step finds a unit ready at once. -/
theorem updateUnitReady_next {s : State} {cu : Upd} {n i : Nat} {x : UnitRec} (hs : s.updSec = some cu) (hu : s.unitRec n = some (i, x))
    (hr : s.running = true) (hy : (s.unit n).ready = false) (hup : s.unitUp n = true) (he : (s.stepEndNext && s.commitStep) = false)
    (hd : s.stackHeld 0 (cu.recordAt (s.nextWpt % 2) i) 4096 = false) :
    Completes (.updateUnitReady n) s (s.savesUnit cu n (cu.recordAt (s.nextWpt % 2) i)) := by
  show execUpdateUnitReady n s = _
  unfold execUpdateUnitReady
  rw [hs, hu]
  dsimp only
  rw [he, if_neg (by simp [hr, hy, hup]), if_neg (by simp), if_neg (by simp [hd]), if_neg (by simp)]
  rfl

theorem devRead_savesUnit (s : State) (cu : Upd) (n a : Nat) :
    (s.savesUnit cu n a).devRead a (runningRecord (s.unit n) cu.groups.length).length = runningRecord (s.unit n) cu.groups.length := by
  rw [State.savesUnit, devRead_setUnit, devRead_devWrite]

theorem savesUnit_frame (s : State) (cu : Upd) (n a : Nat) :
    { s.savesUnit cu n a with mem := s.mem, jmem := s.jmem, upd := s.upd } = s := by
  unfold State.savesUnit
  obtain ⟨m, j, e⟩ := devWrite_eq (runningRecord (s.unit n) cu.groups.length) s a
  rw [e]
  rfl

end Sys2Proof.Machine
end

section
/-! The statement of 07: staging, the commit and paging. -/

namespace Sys2Proof.Proofs

open Sys2Proof.Machine

/-- Settles O55: each command's next state is named (`stagingBucketReceive_next` to `updateUnitReady_next`), and what it holds is read from
the update that it makes. -/
theorem commitAndPaging : Obligations.CommitAndPaging := by
  refine ⟨decodeWeight_encodeWeight, fun s cu hsec => ⟨?staging, ?start, ?element, ?elementError, ?pageIn, ?pageBack, ?ready⟩⟩
  case staging =>
    intro n i x g grp b j hunit hgroup hindex hrun hup hdoor haccept hunstaged hcomplete
    have hnext := stagingBucketReceive_next (cu := cu) ⟨hsec, hunit, hgroup, hindex, hrun, hup, hdoor, haccept, hunstaged, hcomplete⟩
    obtain ⟨hredn, hframe⟩ := stages_frame s n grp b (x.stage + 1024 * j) (s.bucketValues g grp b)
    exact ⟨_, hnext, congrArg UpdUnit.staged (unit_stages s n grp b _ _), hredn, hframe⟩
  case start =>
    intro hrun hopen hstep hstarted hidle hstaged hheld
    have h : CommitWaits s cu := ⟨hsec, hrun, hopen, hstep, hstarted, hidle, hstaged, hheld⟩
    refine ⟨fun hfin ue hue => commitStart_finished h hue hfin, fun ue a hue => ⟨_, commitStart_ue h hue, (raisedS_stackUe s a).records⟩,
      fun hfin hphase ue hue => ⟨_, commitStart_decides h hue hfin hphase, ?_⟩⟩
    cases hflag : s.redn.flag
    · have hunits := onlyUnits_beginUnits (s.decides cu) cu cu.units
      have hd := decided_of_onlyUnits hsec hunits
      rw [if_neg (by simp)]
      refine ⟨hd.started, hflag ▸ hd.phase, hd.frame, fun _ x hx => ?_⟩
      have hb := begun_beginUnits cu cu.units (s.decides cu) x hx
      rwa [unit_decides] at hb
    · have hd := decided_of_onlyUnits hsec (rfl : OnlyUnits (s.decides cu) (s.decides cu))
      rw [if_pos rfl]
      exact ⟨hd.started, hflag ▸ hd.phase, hd.frame, fun e => by cases e⟩
  case element =>
    intro n i x e hunit hactive hup helem hheld hstack
    have hnext := commitElement_stack ⟨hsec, hunit, hactive, hup, helem⟩ hheld hstack
    refine ⟨fun hk => ?_, fun hk hp => ?_, fun hk hp => ⟨_, hnext, stackElem_poolMismatch cu hk hp⟩⟩
    · have ha := stackElem_new cu hk
      refine ⟨_, hnext, ?_, ?_, ?_, ?_, ha.count, ha.frame.tiles, ha.frame.chart, ha.frame.hostMem⟩ <;> rw [ha.unit]
    · have ha := stackElem_repeated cu hk hp
      refine ⟨_, hnext, ?_, ?_, ha.count, ha.frame.tiles, ha.frame.hostMem⟩ <;> rw [ha.unit]
  case elementError =>
    intro n i x e hunit hactive hup helem
    have h : HasElement s cu n i x e := ⟨hsec, hunit, hactive, hup, helem⟩
    refine ⟨commitElement_held h, fun hheld => ⟨_, commitElement_ue h hheld, ?_⟩⟩
    have hue := raisedS_stackUe s (s.elemSource cu x e (s.unit n).pos)
    exact ⟨hue.records, ((kept_stackUe s _).devMem id).1, hue.upd⟩
  case pageIn =>
    intro n i x e hunit hrun hup htier hstep hstacks hdoor hopen hactive helem hframes ue
    have hnext := pageIn_next ⟨hsec, hunit, hrun, hup, htier, hstep, hstacks, hdoor, hopen⟩ (ue := ue) (by simp [hactive]) helem hframes
    refine ⟨_, hnext, ?_, devRead_pagesIn s n x _, pagesIn_frame s n x _⟩
    rw [State.pagesIn, State.unit_setUnit_same]
  case pageBack =>
    intro n i x e hunit hrun hup htier hstep hstacks hdoor hopen hactive hfilled hbacked helem
    have h : Pages s cu n i x := ⟨hsec, hunit, hrun, hup, htier, hstep, hstacks, hdoor, hopen⟩
    refine ⟨fun ue hue => ⟨_, pageIn_back h ⟨hactive, hfilled, hbacked⟩ helem hue, ?_, ?_⟩, fun ue a hue =>
      ⟨_, pageIn_back_ue h ⟨hactive, hfilled, hbacked⟩ helem hue, (raisedS_stackUe s a).records⟩⟩
    · exact State.unit_setUnit_same _ _ _
    · obtain ⟨hslot, hother⟩ := hostMem_pagesBack s n (x.frame (cu.hostBefore x (s.unit n).pos))
        (s.hostSlot (cu.groups.getD e.grp {}) (meCur (s.mapEntry x e.ix) ^^^ 1))
      exact ⟨hslot, hother, rfl⟩
  case ready =>
    intro n i x hunit hrun hready hup hend hheld
    exact ⟨_, updateUnitReady_next hsec hunit hrun hready hup hend hheld, State.unit_setUnit_same _ _ _, savesUnit_frame s cu n _,
      devRead_savesUnit s cu n _⟩

end Sys2Proof.Proofs
end

section
/-! SUPPORT. What an ABORT leaves of its own command and of device memory before it completes (11 R354; 15 R446). -/

namespace Sys2Proof.Machine

/-! ## Work that leaves an ABORT to complete -/

theorem chart_closeDoors (s : State) (ds : List (DomKind × Nat)) : (s.closeDoors ds).chart = s.chart :=
  forEach_keeps (fun u => u.chart = s.chart) _ ds (fun u d _ hu => by
    dsimp only
    split
    · exact hu
    · rw [(onlyFabric_traceRec _ _ _ _).congr State.chart]
      exact ((onlyFabric_stopTiles u d).congr State.chart).trans hu) s rfl

theorem chart_issueResets (s : State) (ds : List (DomKind × Nat)) : (s.issueResets ds).chart = s.chart :=
  forEach_keeps (fun u => u.chart = s.chart) _ ds (fun u d _ hu => by
    dsimp only
    split
    · exact hu
    · obtain ⟨t, n, et⟩ := traceRec_eq u srcHelm trReset (leBytes 2 (domKey d.1 d.2))
      obtain ⟨l, el⟩ := event_eq ((u.traceRec srcHelm trReset (leBytes 2 (domKey d.1 d.2))).bump 0x6401 (domLevel d.1) 32 1) srcHelm
        (0x6A03 + domLevel d.1) []
      refine (chart_closeDoors _ _).trans ?_
      rw [el, et]
      exact hu) s rfl

/-- What an ABORT of number `seq` sees of the work that it has done on others: its own command, chart and device memory as they were, and no
RUN of another number than before. -/
structure LeavesAbort (seq : Nat) (s u : State) : Prop where
  cmd   : u.cmd seq = s.cmd seq
  chart : u.chart = s.chart
  mem   : u.mem = s.mem
  jmem  : u.jmem = s.jmem
  run   : ∀ r, u.run = some r → ∃ r', s.run = some r' ∧ r'.seq = r.seq

namespace LeavesAbort

variable {seq : Nat} {s u v : State}

theorem refl (s : State) : LeavesAbort seq s s := ⟨rfl, rfl, rfl, rfl, fun r h => ⟨r, h, rfl⟩⟩

theorem trans (h : LeavesAbort seq s u) (k : LeavesAbort seq u v) : LeavesAbort seq s v := by
  refine ⟨k.cmd.trans h.cmd, k.chart.trans h.chart, k.mem.trans h.mem, k.jmem.trans h.jmem, fun r hr => ?_⟩
  obtain ⟨r', hr', e'⟩ := k.run r hr
  obtain ⟨r'', hr'', e''⟩ := h.run r' hr'
  exact ⟨r'', hr'', e''.trans e'⟩

/-- Doors that close and resets that are issued change no command, no RUN and no device memory. -/
theorem of_keepsReports (hr : KeepsReports s u) (hk : Kept False s u) (hc : u.chart = s.chart) : LeavesAbort seq s u := by
  obtain ⟨hmem, hjmem⟩ := hk.devMem id
  exact ⟨by rw [State.cmd, hr.cmds, State.cmd], hc, hmem, hjmem, fun r h => ⟨r, hr.run ▸ h, rfl⟩⟩

/-- The RUN of another command stays that of another command. -/
theorem run_ne (h : LeavesAbort seq s u) (hr : ∀ r, s.run = some r → r.seq ≠ seq) : ∀ r, u.run = some r → r.seq ≠ seq := fun r hu => by
  obtain ⟨r', hs, e⟩ := h.run r hu
  exact e ▸ hr r' hs

theorem commitPending (h : LeavesAbort seq s u) : u.commitPending = s.commitPending := by
  have hbyte : u.devByte = s.devByte := by
    funext a
    rw [State.devByte, State.devByte, h.mem, h.jmem]
  have hnat : u.commitNat 0 1 = s.commitNat 0 1 := by
    unfold State.commitNat State.updSec State.devNat State.devRead
    rw [h.chart, hbyte]
  rw [State.commitPending, State.commitPending, h.chart, hnat]

end LeavesAbort

section
variable (s : State) {seq : Nat}

/-- A change of another command. -/
theorem leavesAbort_modCmd {n : Nat} {f : Cmd → Cmd} (hf : ∀ c, (f c).seq = c.seq) (hn : n ≠ seq) : LeavesAbort seq s (s.modCmd n f) :=
  ⟨modCmd_cmd_other s f hf hn.symm, rfl, rfl, rfl, fun r h => ⟨r, h, rfl⟩⟩

theorem leavesAbort_endCmd {n : Nat} (code detail result : Nat) (hn : n ≠ seq) : LeavesAbort seq s (s.endCmd n code detail result) :=
  ⟨cmd_endCmd_other s code detail result hn.symm, rfl, rfl, rfl, fun r h => ⟨r, h, rfl⟩⟩

theorem leavesAbort_closeDoors (ds : List (DomKind × Nat)) : LeavesAbort seq s (s.closeDoors ds) :=
  .of_keepsReports (keepsReports_closeDoors s ds) (kept_closeDoors s ds) (chart_closeDoors s ds)

theorem leavesAbort_issueResets (ds : List (DomKind × Nat)) : LeavesAbort seq s (s.issueResets ds) :=
  .of_keepsReports (keepsReports_issueResets s ds) (kept_issueResets s ds) (chart_issueResets s ds)

/-- The end of a RUN of another command. -/
theorem leavesAbort_endRun (code detail : Nat) (hr : ∀ r, s.run = some r → r.seq ≠ seq) : LeavesAbort seq s (s.endRun code detail) := by
  have hcmd := cmd_endRun s code detail hr
  obtain ⟨hi, e⟩ := endRun_eq s code detail
  rw [e] at hcmd ⊢
  exact ⟨hcmd, rfl, rfl, rfl, fun _ h => nomatch h⟩

/-- MODE 1, under the RUN of another command. -/
theorem leavesAbort_abortNow (by' : Nat) (hr : ∀ r, s.run = some r → r.seq ≠ seq) : LeavesAbort seq s (s.abortNow by') := by
  have h := (leavesAbort_closeDoors (seq := seq) s (s.replayDomains.filter (fun d => decide (d.1 ≠ DomKind.update)))).trans
    (leavesAbort_issueResets _ (s.replayDomains.filter (fun d => decide (d.1 ≠ DomKind.update))))
  have he := h.trans (leavesAbort_endRun _ 0x0C by' (h.run_ne hr))
  exact ⟨he.cmd, he.chart, he.mem, he.jmem, he.run⟩

/-- MODE 0: a stop point for the RUN, or for a command that has not begun its work. -/
theorem leavesAbort_abortAt (c : Cmd) (w by' : Nat) (hc : c.seq ≠ seq) : LeavesAbort seq s (s.abortAt c w by') := by
  unfold State.abortAt
  dsimp only
  split
  · refine ⟨rfl, rfl, rfl, rfl, fun r hr => ?_⟩
    obtain ⟨r', hr', rfl⟩ := Option.map_eq_some_iff.1 hr
    exact ⟨r', hr', rfl⟩
  · exact leavesAbort_modCmd s (fun _ => rfl) hc

theorem leavesAbort_stopNamed (c : Cmd) (by' : Nat) (at' : Option Nat) (hc : c.seq ≠ seq) (hr : ∀ r, s.run = some r → r.seq ≠ seq) :
    LeavesAbort seq s (s.stopNamed c by' at') := by
  cases at' with
  | some w => exact leavesAbort_abortAt s c w by' hc
  | none => exact (leavesAbort_abortNow s by' hr).trans (leavesAbort_endCmd _ _ _ _ hc)

end

/-! ## The end of an ABORT -/

/-- No command that an ABORT names is the ABORT: it names no ABORT (log 33), and numbers are of one command each. -/
theorem seq_ne_of_names {s : State} {seq : Nat} {k c : Cmd} (h : s.started seq 0xA = some k) (hd : (s.hi.cmds.map (·.seq)).Nodup)
    (hc : c ∈ s.hi.cmds) (hn : k.names c = true) : c.seq ≠ seq := by
  intro e
  have hk := (started_spec h).1
  have hseq : k.seq = seq := by simpa using List.find?_some hk
  have hop : k.opcode = 0xA := by
    unfold State.started at h
    rw [hk] at h
    dsimp only at h
    split at h
    · exact (‹_ ∧ _› : k.opcode = 0xA ∧ _).1
    · cases h
  obtain rfl := List.inj_on_of_nodup_map hd hc (List.mem_of_find?_eq_some hk) (e.trans hseq.symm)
  simp [Cmd.names, hop] at hn

/-- An ABORT that no decided commit delays ends with SUCCESS and leaves device memory, in either mode, where the RUN in progress is not of its
own number (R354). -/
theorem abort_ends {s : State} {seq mode : Nat} {k : Cmd} {err : Option FinishErr} {stop : State → Cmd → Option Nat}
    (h : s.started seq 0xA = some k) (ha : k.acted = false) (hm : fieldAt k.entry 9 1 = mode) (hd : (s.hi.cmds.map (·.seq)).Nodup)
    (hp : s.commitPending = false) (hr : ∀ r, s.run = some r → r.seq ≠ seq) :
    (∃ n, Ended (s.abort seq mode err stop) seq 0 0 n) ∧ (s.abort seq mode err stop).mem = s.mem := by
  obtain ⟨hk, hopen⟩ := started_spec h
  have hne : ∀ p, ∀ c ∈ (s.hi.cmds.filter k.names).filter p, c.seq ≠ seq := fun p c hc => by
    obtain ⟨hmem, hnames⟩ := List.mem_filter.1 (List.mem_filter.1 hc).1
    exact seq_ne_of_names h hd hmem hnames
  unfold State.abort
  rw [h]
  dsimp only
  rw [if_neg (not_not.2 hm), if_neg (by simp [ha])]
  generalize hidle : (s.hi.cmds.filter k.names).filter (fun c => decide (c.jstate = 1)) = idle
  generalize hruns : (s.hi.cmds.filter k.names).filter (fun c => decide (c.jstate ≠ 1 ∧ c.opcode = 4)) = runs
  have hi := forEach_keeps (LeavesAbort seq s) (fun s c => s.endCmd c.seq 0x0C (seq % 2 ^ 32) 0) idle
    (fun u c hc hu => hu.trans (leavesAbort_endCmd u _ _ _ (hne _ c (hidle ▸ hc)))) s (.refl s)
  generalize forEach idle s (fun s c => s.endCmd c.seq 0x0C (seq % 2 ^ 32) 0) = t at hi ⊢
  have hw := forEach_keeps (LeavesAbort seq s) (fun s c => s.stopNamed c (seq % 2 ^ 32) (stop s k)) runs
    (fun u c hc hu => hu.trans (leavesAbort_stopNamed u c _ _ (hne _ c (hruns ▸ hc)) (hu.run_ne hr))) t hi
  generalize forEach runs t (fun s c => s.stopNamed c (seq % 2 ^ 32) (stop s k)) = w at hw ⊢
  rw [State.endAbort, if_neg (by simp [hw.commitPending, hp])]
  exact ⟨⟨_, endCmd_ended w seq 0 0 _ k (hw.cmd.trans hk) hopen⟩, hw.mem⟩

end Sys2Proof.Machine
end

section
/-! SUPPORT. An ABORT whose own number the RUN in progress bears: the state that refutes the statement of 08 and 11 about RUN and ABORT. -/

namespace Sys2Proof.Machine

theorem exec_abortImmediate (seq : Nat) (err : Option FinishErr) (s : State) :
    exec (.abortImmediate seq err) s = .next (s.abort seq 1 err (fun s _ => s.immediateStop)) := rfl

/-- An S2 with a chart, a RUN command of SEQ 1 and an ABORT of every command with MODE 1 of SEQ 2, both started, and a RUN in progress that
bears number `n`. -/
def abortsRunOf (n : Nat) : State :=
  { variant := 2, pw := { vsb := true, helmUp := true }, chart := some { place := [(0, 0, 0)], tiles := [{}] }, run := some { seq := n }
    hi := { cmds := [{ seq := 1, jstate := 2, entry := leBytes 1 4 ++ zeros 63 },
                     { seq := 2, jstate := 2, entry := leBytes 1 0xA ++ zeros 7 ++ leBytes 1 0xFF ++ leBytes 1 1 ++ leBytes 2 0xFFFF ++ zeros 52 }] } }

/-- Whatever `n` is, what the statement asks of the ABORT holds: it has started and done nothing yet, the numbers differ, no commit is decided. -/
theorem abortsRunOf_starts (n : Nat) : ∃ k, (abortsRunOf n).started 2 0xA = some k ∧ k.acted = false ∧ fieldAt k.entry 9 1 = 1 ∧
    ((abortsRunOf n).hi.cmds.map (·.seq)).Nodup ∧ (abortsRunOf n).commitPending = false :=
  ⟨_, rfl, rfl, by decide +kernel, (by decide : [1, 2].Nodup), rfl⟩

/-- Where the RUN in progress is that of the RUN command, the ABORT ends with SUCCESS. -/
theorem abortsRunOf_one_ends : ∃ n, Ended ((abortsRunOf 1).abort 2 1 none (fun s _ => s.immediateStop)) 2 0 0 n := by
  obtain ⟨k, hk, hacted, hmode, hnodup, hcommit⟩ := abortsRunOf_starts 1
  exact (abort_ends hk hacted hmode hnodup hcommit (fun r hr => by cases hr; decide)).1

/-- Where it bears the number of the ABORT, its end with ABORTED is the first outcome of the ABORT itself, which stands. -/
theorem abortsRunOf_two_code :
    (((abortsRunOf 2).abort 2 1 none (fun s _ => s.immediateStop)).cmd 2).map (·.code) = some 0xC := by
  decide +kernel

end Sys2Proof.Machine
end

section
/-! The statement of 08 and 11 about RUN and ABORT. -/

namespace Sys2Proof.Proofs

open Sys2Proof.Machine

/-- Refutes O42. It speaks of every state, so of one too in which the RUN in progress bears the number of the ABORT: MODE 1 ends that RUN, and
with it the ABORT, with ABORTED, where the statement has the ABORT complete with SUCCESS. A hypothesis that the RUN in progress is of another
number is what this clause lacks (`abort_ends`). -/
theorem not_runAndAbort : ¬ Obligations.RunAndAbort := by
  intro h
  obtain ⟨k, hk, hacted, hmode, hnodup, hcommit⟩ := abortsRunOf_starts 2
  obtain ⟨u, hu, hends, -⟩ := (h (abortsRunOf 2) 2 k).2 hk hacted hnodup 1 none hmode.symm (le_refl 1)
  obtain ⟨⟨n, x, hx, -, hcode, -⟩, -⟩ := hends hcommit
  have hnext : (abortsRunOf 2).abort 2 1 none (fun s _ => s.immediateStop) = u := by
    rw [if_neg (by decide), Completes, exec_abortImmediate] at hu
    injection hu
  have hfinal := abortsRunOf_two_code
  rw [hnext, hx, Option.map_some, hcode] at hfinal
  cases hfinal

end Sys2Proof.Proofs
end

section
/-! SUPPORT. What a fault of a unit outside the regions leaves: the record of one of class R (15 R433, R439, R442), and the RUN that one of
class S ends (15 R445). -/

namespace Sys2Proof.Machine

/-! ## A record that a second one follows -/

/-- The newest fault record of `u`, of the 256 kept, is the next of `s` and names a cause. -/
def Newest (s u : State) (cause : Nat) : Prop :=
  ∃ l r, u.rcv.faults = l ++ [r] ∧ l.length ≤ 255 ∧ r.number = satAdd 32 (s.obj 0x6010 0) 1 ∧ r.cause = cause ∧
    s.now ≤ r.time + 1000 ∧ r.time ≤ s.now + 1000

theorem Newest.keeps {s u v : State} {cause : Nat} (h : Newest s u cause) (k : KeepsReports u v) : Newest s v cause := by
  rwa [Newest, k.faults]

theorem Newest.records {s u : State} {cause : Nat} (h : Newest s u cause) : Records s u cause := by
  obtain ⟨l, r, hu, -, hr⟩ := h
  exact ⟨r, hu ▸ List.mem_append_right l List.mem_cons_self, hr⟩

theorem Records.keeps {s u v : State} {cause : Nat} (h : Records s u cause) (k : KeepsReports u v) : Records s v cause := by
  rwa [Records, k.faults]

/-- An interrupt cause and an event change neither the recovery nor the chart. -/
theorem setCause_event_spec (v : State) (n src code : Nat) (data : List Byte) :
    ((v.setCause n).event src code data).rcv = v.rcv ∧ ((v.setCause n).event src code data).chart = v.chart := by
  obtain ⟨log, hevent⟩ := event_eq (v.setCause n) src code data
  obtain ⟨hi, hcause⟩ := setCause_eq v n
  rw [hevent, hcause]
  exact ⟨rfl, rfl⟩

/-- A record joins those kept, the newest 256 of which stay. -/
theorem faults_recordFault (s : State) (f : FaultIn) (cls outcome domain more : Nat) : ∃ r : FaultRec,
    (s.recordFault f cls outcome domain more).rcv.faults = (s.rcv.faults ++ [r]).drop ((s.rcv.faults ++ [r]).length - 256) ∧
      r.number = satAdd 32 (s.obj 0x6010 0) 1 ∧ r.cause = f.cause ∧ s.now ≤ r.time + 1000 ∧ r.time ≤ s.now + 1000 := by
  unfold State.recordFault
  dsimp only
  generalize hr : FaultRec.mk _ _ _ _ _ _ _ _ _ _ _ _ _ _ _ _ _ _ _ _ _ _ _ = r
  refine ⟨r, ?_, ?_⟩
  · rw [(setCause_event_spec _ _ _ _ _).1, State.setObj_rcv]
  · rw [← hr]
    exact ⟨rfl, rfl, stampAt_bounds s _⟩

theorem newest_recordFault (s : State) (f : FaultIn) (cls outcome domain more : Nat) :
    Newest s (s.recordFault f cls outcome domain more) f.cause := by
  obtain ⟨r, hfaults, hr⟩ := faults_recordFault s f cls outcome domain more
  refine ⟨s.rcv.faults.drop (s.rcv.faults.length + 1 - 256), r, ?_, ?_, hr⟩
  · rw [hfaults, List.length_append, List.length_singleton, List.drop_append_of_le_length (by omega)]
  · rw [List.length_drop]
    omega

/-- The newest record is not the one that a second record pushes out. -/
theorem Newest.records_recordFault {s u : State} {cause : Nat} (h : Newest s u cause) (f : FaultIn) (cls outcome domain more : Nat) :
    Records s (u.recordFault f cls outcome domain more) cause := by
  obtain ⟨l, r, hu, hl, hr⟩ := h
  obtain ⟨r', hfaults, -⟩ := faults_recordFault u f cls outcome domain more
  refine ⟨r, ?_, hr⟩
  rw [hfaults, hu, List.append_assoc, List.drop_append_of_le_length (by simp)]
  simp

/-! ## A fault of class R -/

section
variable (s : State)

theorem keepsReports_rcv (r : Recovery) (h : r.faults = s.rcv.faults) : KeepsReports s { s with rcv := r } := (KeepsReports.refl s).rcv r h

theorem keepsReports_queueFlit (p : Nat) (f : Flit) : KeepsReports s (s.queueFlit p f) := ⟨rfl, rfl, rfl, rfl, rfl⟩

theorem keepsReports_sendReplay (w : W64) : KeepsReports s (s.sendReplay w) :=
  .forEach _ (fun u a => by
    split
    · exact .forEach _ (fun v p => keepsReports_queueFlit v p _) u
    · exact .refl u) s

theorem keepsReports_haltForReplay : KeepsReports s s.haltForReplay := by
  unfold State.haltForReplay
  dsimp only
  have hstep : KeepsReports s (s.traceStep 1) := keepsReports_traceRec s _ _ _
  generalize s.traceStep 1 = u at hstep ⊢
  have hcounted := hstep.rcv { u.rcv with phase := .replaying, resumeWpt := u.wp.reg, replays := u.replaysSoFar + 1, replayOf := u.wp.reg } rfl
  generalize ({ u with rcv := { u.rcv with phase := .replaying, resumeWpt := u.wp.reg, replays := u.replaysSoFar + 1, replayOf := u.wp.reg } } :
    State) = v at hcounted ⊢
  have hclosed : KeepsReports s ((v.closeDoors v.replayDomains).traceStep 2) :=
    (hcounted.trans (keepsReports_closeDoors v _)).trans (keepsReports_traceRec _ _ _ _)
  split
  · exact (hclosed.trans (keepsReports_sendReplay _ _)).trans (keepsReports_traceRec _ _ _ _)
  · exact hclosed

theorem keepsReports_issueModule (cause : Nat) : KeepsReports s (s.issueModule cause) := by
  unfold State.issueModule
  dsimp only
  have hwindow : KeepsReports s (if s.rcv.resets.any (fun x => decide (x.kind = DomKind.module)) then s else s.enterWindow cause) := by
    split
    · exact .refl s
    · exact keepsReports_rcv s _ rfl
  have hissue := hwindow.trans (keepsReports_issueResets _ [(.module, 0)])
  exact ⟨hissue.faults, hissue.number, hissue.cmds, hissue.run, hissue.upd⟩

theorem keepsReports_holdForLinks (f : FaultIn) : KeepsReports s (s.holdForLinks f) := by
  unfold State.holdForLinks
  split
  · exact keepsReports_rcv s _ rfl
  · exact .refl s

end

/-- A replay that begins, or the module reset in its place past REPLAY_LIMIT, leaves the record that it follows. -/
theorem Newest.records_startReplay {s u : State} {cause : Nat} (h : Newest s u cause) (own : DomKind × Nat) :
    Records s (u.startReplay own) cause := by
  have hhalt := h.keeps (keepsReports_haltForReplay u)
  unfold State.startReplay
  dsimp only
  split
  · exact ((hhalt.records_recordFault _ _ _ _ _).keeps (keepsReports_traceRec _ _ _ _)).keeps (keepsReports_issueModule _ _)
  · exact (hhalt.records.keeps (keepsReports_traceRec _ _ _ _)).keeps (keepsReports_issueResets _ _)

/-- A fault of class R of a unit outside the regions is recorded: in an incident that is open, in a RUN, which replays, or in neither. -/
theorem records_raiseFault_classR (s : State) {f : FaultIn} (hc : f.cls = clsR) (hr : f.region = none) :
    Records s (s.raiseFault f) f.cause := by
  have hcls : s.effClass f = clsR := (effClass_noRegion s f hr).trans hc
  have hstamp : s.stampR { f with cls := clsR } = s := by simp [State.stampR, hr]
  unfold State.raiseFault State.raiseAs
  rw [hcls, hstamp]
  dsimp only
  split
  · unfold State.joinIncident
    dsimp only
    rw [if_neg (by decide), if_neg (by decide)]
    generalize (if clsR = clsS ∧ s.running then 1 else 0) = d
    have h := (newest_recordFault s f clsR 6 d 0).records
    split
    · exact h.keeps (keepsReports_holdForLinks _ f)
    · exact h
  · split
    · unfold State.openInRun
      dsimp only
      rw [if_neg (by decide), if_neg (by decide)]
      generalize (if s.limitHit then 4 else 0) = o
      generalize (if s.limitHit then 3 else 1) = d
      exact ((newest_recordFault s f clsR o d 1).records_startReplay f.dom).keeps (keepsReports_holdForLinks _ f)
    · unfold State.openIdle
      rw [if_neg (by decide)]
      dsimp only
      exact ((newest_recordFault s f clsR 3 1 0).records.keeps (keepsReports_issueResets _ _)).keeps (keepsReports_rcv _ _ rfl)

/-! ## A fault of class S in a RUN -/

theorem chart_recordFault (s : State) (f : FaultIn) (cls outcome domain more : Nat) :
    (s.recordFault f cls outcome domain more).chart = s.chart := by
  unfold State.recordFault
  dsimp only
  generalize FaultRec.mk _ _ _ _ _ _ _ _ _ _ _ _ _ _ _ _ _ _ _ _ _ _ _ = r
  rw [(setCause_event_spec _ _ _ _ _).2, State.setObj_chart]
  dsimp only
  split <;> rfl

theorem stopRun_spec (s : State) (code detail : Nat) :
    (s.stopRun code detail).run = none ∧ (s.stopRun code detail).rcv.phase = .resetOnly ∧ (s.stopRun code detail).chart = s.chart := by
  have hchart : ((s.closeDoors s.replayDomains).issueResets s.replayDomains).chart = s.chart :=
    (chart_issueResets _ _).trans (chart_closeDoors s _)
  refine ⟨endRun_run _ code detail, rfl, ?_⟩
  obtain ⟨hi, hend⟩ := endRun_eq ((s.closeDoors s.replayDomains).issueResets s.replayDomains) code detail
  exact (congrArg State.chart hend).trans hchart

/-- A fault of class S of a unit outside the regions, where no fault is handled, ends the RUN; the chart stays loaded. -/
theorem raiseFault_stops {s : State} {f : FaultIn} (hc : f.cls = clsS) (hr : f.region = none) (hrun : s.running = true)
    (hidle : s.rcv.phase = .idle) :
    (s.raiseFault f).run = none ∧ (s.raiseFault f).rcv.phase = .resetOnly ∧ (s.raiseFault f).chart = s.chart := by
  have hcls : s.effClass f = clsS := (effClass_noRegion s f hr).trans hc
  have hstamp : s.stampR { f with cls := clsS } = s := by simp [State.stampR, hr]
  have hstops : s.raiseFault f = (s.recordFault f clsS 2 1).stopRun 0x0D ((s.recordFault f clsS 2 1).obj 0x6010 0) := by
    unfold State.raiseFault State.raiseAs State.openInRun
    rw [hcls, hstamp]
    simp [hidle, hrun]
  obtain ⟨hnone, hphase, hchart⟩ := stopRun_spec (s.recordFault f clsS 2 1) 0x0D ((s.recordFault f clsS 2 1).obj 0x6010 0)
  rw [hstops]
  exact ⟨hnone, hphase, hchart.trans (chart_recordFault s f clsS 2 1 0)⟩

end Sys2Proof.Machine
end

section
/-! SUPPORT. What a received flit and the reduction's own work leave of the ports (10 R328; 09 R305), and the flits held in receive buffers:
where none is held nothing is acted on, and where one is held it is acted on and its slot is freed. -/

namespace Sys2Proof.Machine

/-! ## Operations over a list -/

/-- Operations none of which changes the state leave it. -/
theorem forEach_fixed {α : Type} {f : State → α → State} {xs : List α} {s : State} (h : ∀ x ∈ xs, f s x = s) : forEach xs s f = s :=
  forEach_keeps (fun u => u = s) f xs (fun u x hx hu => by rw [hu, h x hx]) s rfl

/-- Where one operation alone changes the state and none changes what it makes, the list makes that. -/
theorem forEach_once {α : Type} {f : State → α → State} {xs : List α} {x : α} (hx : x ∈ xs) {s t : State} (hf : f s x = t)
    (hs : ∀ y, y ≠ x → f s y = s) (ht : ∀ y, f t y = t) : forEach xs s f = t := by
  induction xs with
  | nil => cases hx
  | cons y ys ih =>
    rw [forEach_cons]
    by_cases hy : y = x
    · rw [hy, hf]
      exact forEach_fixed fun z _ => ht z
    · rw [hs y hy]
      exact ih ((List.mem_cons.1 hx).resolve_left (Ne.symm hy))

/-! ## Ports -/

theorem port_modPort_other (s : State) {p q : Nat} (f : Port → Port) (h : q ≠ p) : (s.modPort p f).port q = s.port q :=
  State.port_setPort_other s _ h

/-- No port differs but in the flits that wait to be sent. -/
def OnlySends (s u : State) : Prop := ∀ p, u.port p = { s.port p with sendq := (u.port p).sendq, startq := (u.port p).startq }

namespace OnlySends

variable {s u v : State}

theorem trans (h : OnlySends s u) (k : OnlySends u v) : OnlySends s v := fun p =>
  (k p).trans (congrArg (fun x : Port => { x with sendq := (v.port p).sendq, startq := (v.port p).startq }) (h p))

theorem rxbuf (h : OnlySends s u) (p : Nat) : (u.port p).rxbuf = (s.port p).rxbuf := by rw [h p]
theorem rxSeq (h : OnlySends s u) (p : Nat) : (u.port p).rxSeq = (s.port p).rxSeq := by rw [h p]

theorem buffersEmpty (h : OnlySends s u) (he : BuffersEmpty s) : BuffersEmpty u := fun p vc => by rw [h.rxbuf, he]

theorem modPort (s : State) (p : Nat) {f : Port → Port} (hf : ∀ x, f x = { x with sendq := (f x).sendq, startq := (f x).startq }) :
    OnlySends s (s.modPort p f) := fun q => by
  by_cases hq : q = p
  · rw [hq, port_modPort_same]
    exact hf _
  · rw [port_modPort_other s f hq]

end OnlySends

/-- What the reduction does without a write to memory, a count or a fault: its own state changes, and flits wait to be sent. -/
structure ReductionWork (s u : State) : Prop where
  frame : { u with redn := s.redn, link := s.link } = s
  sends : OnlySends s u

namespace ReductionWork

variable {s u v : State}

theorem refl (s : State) : ReductionWork s s := ⟨rfl, fun _ => rfl⟩

theorem trans (h : ReductionWork s u) (k : ReductionWork u v) : ReductionWork s v :=
  ⟨(congrArg (fun x : State => { x with redn := s.redn, link := s.link }) k.frame).trans h.frame, h.sends.trans k.sends⟩

/-- A function that reads neither the reduction's state nor the links has the same value. -/
theorem reads (h : ReductionWork s u) {α : Type} (f : State → α) (hf : ∀ (v : State) r l, f { v with redn := r, link := l } = f v) : f u = f s :=
  (hf u s.redn s.link).symm.trans (congrArg f h.frame)

theorem ite {c : Prop} {_ : Decidable c} (h : ReductionWork s u) (k : ReductionWork s v) : ReductionWork s (if c then u else v) := by
  split
  · exact h
  · exact k

theorem forEach {α : Type} {f : State → α → State} (xs : List α) (h : ∀ s x, ReductionWork s (f s x)) (s : State) :
    ReductionWork s (Machine.forEach xs s f) :=
  forEach_keeps (ReductionWork s) f xs (fun u x _ k => k.trans (h u x)) s (refl s)

theorem setRedn (s : State) (r : Redn) : ReductionWork s (s.setRedn r) := ⟨rfl, fun _ => rfl⟩
theorem queueFlit (s : State) (p : Nat) (f : Flit) : ReductionWork s (s.queueFlit p f) := ⟨rfl, .modPort s p fun _ => rfl⟩
theorem startRed (s : State) (p type vc : Nat) (payload : List Byte) : ReductionWork s (s.startRed p type vc payload) :=
  ⟨rfl, .modPort s p fun _ => rfl⟩

end ReductionWork

/-- A flit that begins a chain waits on its port behind those that wait there. -/
theorem startq_startRed_same (s : State) (p type vc : Nat) (payload : List Byte) :
    tget [] ((s.startRed p type vc payload).port p).startq vc = tget [] (s.port p).startq vc ++ [mkFlit type vc payload] := by
  rw [State.startRed, port_modPort_same]
  exact tget_tmod_same [] (s.port p).startq vc (· ++ [mkFlit type vc payload])

theorem startq_startRed_other (s : State) {p q : Nat} (type vc : Nat) (payload : List Byte) (h : q ≠ p) :
    ((s.startRed p type vc payload).port q).startq = (s.port q).startq := by
  rw [State.startRed, port_modPort_other s _ h]

/-! ## A flit that is received -/

@[simp] theorem rxSeq_free (x : Port) (vc : Nat) : (x.free vc).rxSeq = x.rxSeq := rfl

/-- The state in which a port has taken a flit: the header's news, and the next SEQ expected. -/
def State.received (s : State) (p : Nat) (f : Flit) : State :=
  (s.rxHeader p f).modPort p (fun x => { x with rxSeq := (x.rxSeq + 1) % 4096, nakFor := none, nakRun := 0, resFor := none })

theorem rxSequenced_received {s : State} {p : Nat} {f : Flit} {type : Nat} (h : Receives s p f type) {ok : Bool} (hok : ok = true)
    (k : State → State) : s.rxSequenced p f type ok k = k (s.received p f) := hok ▸ rxSequenced_receives s h k

theorem endCopies_spec (s : State) (p : Nat) : OnlyPortAndHost p s (s.endCopies p) ∧
    ((s.endCopies p).port p).rxSeq = (s.port p).rxSeq ∧ ((s.endCopies p).port p).rxbuf = (s.port p).rxbuf := by
  have ends : ∃ h, forEach ((s.port p).copies.filter (fun c => decide (c.2.1 = 0))) s (fun s c => s.endCmd c.1 0 0 c.2.2) = s.withHost h :=
    forEach_keeps (fun u => ∃ h, u = s.withHost h) _ _ (fun u c _ ⟨h, e⟩ => by
      obtain ⟨h', e'⟩ := endCmd_eq u c.1 0 0 c.2.2
      exact ⟨h', by rw [e', e]; rfl⟩) s ⟨s.hi, rfl⟩
  obtain ⟨h, e⟩ := ends
  unfold State.endCopies
  dsimp only
  rw [e]
  refine ⟨((OnlyPortAndHost.refl p s).withHost h).trans (onlyPortAndHost_modPort _ p _), ?_, ?_⟩ <;> rw [port_modPort_same] <;> rfl

theorem rxHeader_spec (s : State) (p : Nat) (f : Flit) : OnlyPortAndHost p s (s.rxHeader p f) ∧
    ((s.rxHeader p f).port p).rxSeq = (s.port p).rxSeq ∧ ((s.rxHeader p f).port p).rxbuf = (s.port p).rxbuf := by
  unfold State.rxHeader
  dsimp only
  generalize hx : ({ s.port p with retry := _, resend := _, credits := _, seenFree := _, copies := _ } : Port) = x
  obtain ⟨honly, hseq, hbuf⟩ := endCopies_spec (s.setPort p x) p
  rw [State.port_setPort_same] at hseq hbuf
  refine ⟨(onlyPortAndHost_modPort s p (fun _ => x)).trans honly, hseq.trans ?_, hbuf.trans ?_⟩ <;> rw [← hx]

/-- A port has taken a flit of the expected SEQ, which stands in no receive buffer yet. -/
structure Received (p : Nat) (s u : State) : Prop where
  only  : OnlyPortAndHost p s u
  rxSeq : (u.port p).rxSeq = ((s.port p).rxSeq + 1) % 4096
  rxbuf : ∀ q, (u.port q).rxbuf = (s.port q).rxbuf

theorem received_received (s : State) (p : Nat) (f : Flit) : Received p s (s.received p f) := by
  obtain ⟨honly, hseq, hbuf⟩ := rxHeader_spec s p f
  have hports := honly.trans (onlyPortAndHost_modPort (s.rxHeader p f) p
    (fun x => { x with rxSeq := (x.rxSeq + 1) % 4096, nakFor := none, nakRun := 0, resFor := none }))
  refine ⟨hports, ?_, fun q => ?_⟩
  · rw [State.received, port_modPort_same, hseq]
  · by_cases hq : q = p
    · rw [hq, State.received, port_modPort_same, hbuf]
    · exact congrArg Port.rxbuf (hports.2 q hq)

/-- A function that reads neither the host interface nor the ports has the same value. -/
theorem OnlyPortAndHost.reads {p : Nat} {s u : State} (h : OnlyPortAndHost p s u) {α : Type} (f : State → α)
    (hf : ∀ (v : State) hi ports, f { v with hi := hi, link := { v.link with ports := ports } } = f v) : f u = f s :=
  (hf u s.hi s.link.ports).symm.trans (congrArg f h.1)

/-! ## Held flits -/

/-- What a port's virtual channel holds is acted on. -/
def State.drainAt (s : State) (p vc : Nat) : State := State.drainPort p vc (tget [] (s.port p).rxbuf vc).length s

/-- One round over the ports. -/
def State.drainRound (s : State) : State := forEach s.ports s (fun s p => forEach [3, 4, 5, 6] s (fun s vc => s.drainAt p vc))

theorem drainRounds_succ (n : Nat) (s : State) : State.drainRounds (n + 1) s =
    if s.drainRound.heldRed = s.heldRed then s.drainRound else State.drainRounds n s.drainRound := rfl

theorem drainAt_of_empty {s : State} {p vc : Nat} (h : tget [] (s.port p).rxbuf vc = []) : s.drainAt p vc = s := by
  rw [State.drainAt, h]
  rfl

theorem drainRounds_of_empty {s : State} (h : BuffersEmpty s) : ∀ n, State.drainRounds n s = s
  | 0 => rfl
  | n + 1 => by
    have hround : s.drainRound = s := forEach_fixed fun p _ => forEach_fixed fun vc _ => drainAt_of_empty (h p vc)
    rw [drainRounds_succ, hround, if_pos rfl]

/-- Where nothing is held, nothing is acted on. -/
theorem drainRed_of_empty {s : State} (h : BuffersEmpty s) : s.drainRed = s := by
  unfold State.drainRed
  split
  · exact drainRounds_of_empty h _
  · rfl

/-- A flit leaves its receive slot, which is freed. -/
def State.slotFreed (s : State) (p : Nat) (f : Flit) : State :=
  s.modPort p (fun x => ({ x with rxbuf := tset [] x.rxbuf f.vc ((tget [] x.rxbuf f.vc).erase f) } : Port).free f.vc)

theorem rxSeq_slotFreed (s : State) (p : Nat) (f : Flit) : ((s.slotFreed p f).port p).rxSeq = (s.port p).rxSeq := by
  rw [State.slotFreed, port_modPort_same]
  rfl

/-- One flit alone is held, on a port of the module and a virtual channel of the reduction. -/
structure HoldsOnly (s : State) (p : Nat) (f : Flit) : Prop where
  port      : p < 2 * s.variant
  channel   : 3 ≤ f.vc ∧ f.vc ≤ 6
  held      : tget [] (s.port p).rxbuf f.vc = [f]
  otherVc   : ∀ vc, vc ≠ f.vc → tget [] (s.port p).rxbuf vc = []
  otherPort : ∀ q vc, q ≠ p → tget [] (s.port q).rxbuf vc = []

section
variable {s v : State} {p : Nat} {f : Flit} (h : HoldsOnly s p f) (ha : s.actRed p f = some v)
  (hv : ∀ q, (v.port q).rxbuf = (s.port q).rxbuf)
include h

include hv in
theorem HoldsOnly.emptied : BuffersEmpty (v.slotFreed p f) := fun q vc => by
  by_cases hq : q = p
  · rw [hq, State.slotFreed, port_modPort_same]
    show tget [] (tset [] (v.port p).rxbuf f.vc ((tget [] (v.port p).rxbuf f.vc).erase f)) vc = []
    by_cases hvc : vc = f.vc
    · rw [hvc, tget_tset_same, hv, h.held]
      simp
    · rw [tget_tset_other _ _ _ hvc, hv, h.otherVc vc hvc]
  · rw [State.slotFreed, port_modPort_other v _ hq, hv, h.otherPort q vc hq]

include ha in
theorem HoldsOnly.drainAt : s.drainAt p f.vc = v.slotFreed p f := by
  rw [State.drainAt, h.held]
  show State.drainPort p f.vc (0 + 1) s = _
  unfold State.drainPort
  simp only [h.held, List.findSome?_cons, ha, Option.map_some]
  rfl

include ha hv

theorem HoldsOnly.drainRound : s.drainRound = v.slotFreed p f := by
  have hempty := h.emptied hv
  refine forEach_once (List.mem_range.2 h.port) (forEach_once (x := f.vc) ?_ (h.drainAt ha) (fun vc hvc => drainAt_of_empty (h.otherVc vc hvc))
    fun vc => drainAt_of_empty (hempty p vc)) (fun q hq => forEach_fixed fun vc _ => drainAt_of_empty (h.otherPort q vc hq))
    fun q => forEach_fixed fun vc _ => drainAt_of_empty (hempty q vc)
  have hvc := h.channel
  simp only [List.mem_cons, List.not_mem_nil, or_false]
  omega

/-- The one flit held is acted on, and its slot is freed. -/
theorem HoldsOnly.drainRed (hr : s.reducing = true) : s.drainRed = v.slotFreed p f := by
  rw [State.drainRed, if_pos hr, drainRounds_succ, h.drainRound ha hv, drainRounds_of_empty (h.emptied hv), ite_self]

end

end Sys2Proof.Machine
end

section
/-! SUPPORT. What the flits of the reduction do where a port takes them: REDUCE, AGREE, WEIGHT and BARRIER (09 R294, R300, R306, R308; 15
R433). -/

namespace Sys2Proof.Machine

/-! ## REDUCE whose residues differ (R300, R301) -/

section
variable {s : State} {p : Nat} {f : Flit} (h : Receives s p f 3)
include h

theorem reduce_badResidue (hr : residuesOk f = false) (ue : Option Nat) : Completes (.reduce p f ue) s (s.badResidue p f) := by
  obtain ⟨hst, hdoor, hopen, hgen, htype, hseq⟩ := h
  have hdoor' : s.linkDoor p = false := hdoor
  show execReduce p f ue s = _
  unfold execReduce
  dsimp only
  rw [if_pos ⟨by simp [hr], hst, by simp [hdoor'], by simp [hopen], hgen, htype, hseq⟩]

end

section
variable (s : State) (p : Nat) (f : Flit)

/-- A first difference asks for a retry and is counted. -/
theorem badResidue_first (h : (s.port p).resFor ≠ some (s.port p).rxSeq) :
    ((s.badResidue p f).port p).nakPend = true ∧ ((s.badResidue p f).port p).rxSeq = (s.port p).rxSeq ∧
      ((s.badResidue p f).port p).resFor = some (s.port p).rxSeq ∧ (s.badResidue p f).redn = s.redn ∧
      (s.badResidue p f).obj 0x9060 3 = satAdd 64 (s.obj 0x9060 3) 1 := by
  unfold State.badResidue State.sendNak
  dsimp only
  rw [if_neg h]
  simp only [port_modPort_same, Bool.true_eq_false, and_false, if_false]
  exact ⟨trivial, rfl, rfl, rfl, obj_bump_same s 0x9060 3 64 1⟩

/-- The same flit differing again is a RESIDUE fault. -/
theorem badResidue_again (h : (s.port p).resFor = some (s.port p).rxSeq) : Records s (s.badResidue p f) 0x42 := by
  unfold State.badResidue State.residueFault
  dsimp only
  rw [if_pos h]
  obtain ⟨log, hevent⟩ := event_eq (s.bump 0x9060 4 32 1) (srcLink p) 0x5A10 []
  have hrecord := records_raiseFault_classR ((s.bump 0x9060 4 32 1).event (srcLink p) 0x5A10 []) (f := ⟨0x42, causeClass 0x42, (.link, p), none, none,
    7, some p, leBytes 2 (bitsOf (fieldAt f.payload 0 6) 47 40) ++ leBytes 1 (bitsOf (fieldAt f.payload 0 6) 15 8) ++
      leBytes 1 (128 * bitsOf (fieldAt f.payload 0 6) 7 7 + portAxis p) ++ leBytes 4 (bitsOf (fieldAt f.payload 0 6) 39 16)⟩) rfl rfl
  have hnumber : ((s.bump 0x9060 4 32 1).event (srcLink p) 0x5A10 []).obj 0x6010 0 = s.obj 0x6010 0 :=
    (keepsReports_event _ _ _ _).number.trans (obj_bump_other s 32 1 (by decide))
  have hnow : ((s.bump 0x9060 4 32 1).event (srcLink p) 0x5A10 []).now = s.now := by rw [hevent]; rfl
  rw [Records, hnumber, hnow] at hrecord
  exact hrecord

end

/-! ## A flit that is held and acted on -/

/-- The state in which a port has taken a flit into its receive buffer. -/
def State.holdsFlit (s : State) (p : Nat) (f : Flit) : State :=
  (s.received p f).modPort p (fun x => { x with rxbuf := tmod [] x.rxbuf f.vc (· ++ [f]) })

section
variable (s : State) (p : Nat) (f : Flit)

theorem onlyPortAndHost_holdsFlit : OnlyPortAndHost p s (s.holdsFlit p f) :=
  (received_received s p f).only.trans (onlyPortAndHost_modPort _ p _)

theorem rxSeq_holdsFlit : ((s.holdsFlit p f).port p).rxSeq = ((s.port p).rxSeq + 1) % 4096 := by
  rw [State.holdsFlit, port_modPort_same]
  dsimp only
  exact (received_received s p f).rxSeq

variable {s p f}

theorem holdsOnly_holdsFlit (he : BuffersEmpty s) (hp : p < 2 * s.variant) (hvc : 3 ≤ f.vc ∧ f.vc ≤ 6) : HoldsOnly (s.holdsFlit p f) p f := by
  have hbuf := (received_received s p f).rxbuf
  have hsame : ((s.holdsFlit p f).port p).rxbuf = tmod [] (s.port p).rxbuf f.vc (· ++ [f]) := by
    rw [State.holdsFlit, port_modPort_same, ← hbuf]
  have hother : ∀ q, q ≠ p → ((s.holdsFlit p f).port q).rxbuf = (s.port q).rxbuf := fun q hq => by
    rw [State.holdsFlit, port_modPort_other _ _ hq, hbuf]
  refine ⟨?_, hvc, ?_, fun vc hne => ?_, fun q vc hq => ?_⟩
  · rwa [(onlyPortAndHost_holdsFlit s p f).reads State.variant (fun _ _ _ => rfl)]
  · rw [hsame, tget_tmod_same, he]
    rfl
  · rw [hsame, tget_tmod_other _ _ _ hne, he]
  · rw [hother q hq, he]

/-- A record that follows the taking of a flit is the next one of the state before. -/
theorem OnlyPortAndHost.records {t u : State} {cause : Nat} (h : OnlyPortAndHost p s t) (hr : Records t u cause) : Records s u cause := by
  have hnumber : t.obj 0x6010 0 = s.obj 0x6010 0 := h.reads (State.obj · 0x6010 0) (fun _ _ _ => rfl)
  have hnow : t.now = s.now := h.reads State.now (fun _ _ _ => rfl)
  rwa [Records, hnumber, hnow] at hr

theorem takeRed_ue {ue : Option Nat} {reads : RGroup → List (Nat × Nat)} {g : RGroup} {a : Nat}
    (hg : s.rgroup (bitsOf (fieldAt f.payload 0 6) 47 40) = some g) (hu : ueIn ue (reads g) = some a) :
    (s.received p f).takeRed p f ue reads = (s.holdsFlit p f).stackUe a := by
  have hg' := ((received_received s p f).only.reads (State.rgroup · (bitsOf (fieldAt f.payload 0 6) 47 40)) (fun _ _ _ => rfl)).trans hg
  unfold State.takeRed
  dsimp only
  rw [hg', Option.bind_some, hu]
  rfl

theorem takeRed_none (reads : RGroup → List (Nat × Nat)) : (s.received p f).takeRed p f none reads = (s.holdsFlit p f).drainRed := by
  have hno : ∀ o : Option RGroup, o.bind (fun g => ueIn none (reads g)) = none := fun o => by cases o <;> rfl
  unfold State.takeRed
  dsimp only
  rw [hno]
  rfl

/-- A flit that can proceed, where no other is held, leaves the state that its action makes, its slot freed. -/
theorem takeRed_acts (reads : RGroup → List (Nat × Nat)) (he : BuffersEmpty s) (hp : p < 2 * s.variant) (hvc : 3 ≤ f.vc ∧ f.vc ≤ 6)
    (hr : s.reducing = true) {v : State} (ha : (s.holdsFlit p f).actRed p f = some v)
    (hv : ∀ q, (v.port q).rxbuf = ((s.holdsFlit p f).port q).rxbuf) :
    (s.received p f).takeRed p f none reads = v.slotFreed p f := by
  rw [takeRed_none]
  exact (holdsOnly_holdsFlit he hp hvc).drainRed ha hv (((onlyPortAndHost_holdsFlit s p f).reads State.reducing (fun _ _ _ => rfl)).trans hr)

end

/-! ## REDUCE (R300, R303) -/

section
variable {s : State} {p : Nat} {f : Flit}

theorem reduce_received (h : Receives s p f 3) (hvc : 3 ≤ f.vc ∧ f.vc ≤ 6) (hr : residuesOk f = true) (ue : Option Nat) :
    exec (.reduce p f ue) s = .next ((s.received p f).takeRed p f ue (fun g => s.chunkReads g
      (bitsOf (fieldAt f.payload 0 6) 39 16) (bitsOf (fieldAt f.payload 0 6) 7 7) (bitsOf (fieldAt f.payload 0 6) 15 8))) := by
  have hreads : ∀ g b h c, (s.received p f).chunkReads g b h c = s.chunkReads g b h c := fun g b h c =>
    (received_received s p f).only.reads (State.chunkReads · g b h c) (fun _ _ _ => rfl)
  show execReduce p f ue s = _
  unfold execReduce
  dsimp only
  rw [if_neg (by simp [hr]), rxSequenced_received h (decide_eq_true hvc)]
  simp only [hreads]

/-- Phase 1 is marked and counted; nothing else differs. -/
theorem phase1_eq (s : State) : ∃ d, s.phase1 = { s with redn := { s.redn with ran := true }, dict := d } := by
  unfold State.phase1
  by_cases h : s.redn.ran = true
  · have hran : { s.redn with ran := true } = s.redn := by rw [← h]
    rw [if_pos h, hran]
    exact ⟨s.dict, rfl⟩
  · rw [if_neg h]
    exact ⟨_, rfl⟩

/-- The state in which a chunk's sums over the first axis of its group are complete. -/
def State.sumsChunk (s : State) (i b h c axis : Nat) (sums : List W32) : State := s.phase1.keepSum i b h c 1 axis sums

section
variable (s : State) (i b h c axis : Nat) (sums : List W32)

theorem completeAxis_first (g : RGroup) : s.phase1.completeAxis i g 0 axis b h c sums = s.sumsChunk i b h c axis sums := by
  unfold State.completeAxis
  exact if_neg fun e => e.1 rfl

/-- The sums are kept and the chain is done; memory, tiles and ports stand. -/
theorem sumsChunk_spec : ⟨i, b, h, c, 1, sums⟩ ∈ (s.sumsChunk i b h c axis sums).redn.sums ∧
    (axis, i, b, 256 * h + c) ∈ (s.sumsChunk i b h c axis sums).redn.chains ∧ (s.sumsChunk i b h c axis sums).link = s.link ∧
    (s.sumsChunk i b h c axis sums).mem = s.mem ∧ (s.sumsChunk i b h c axis sums).tiles = s.tiles := by
  obtain ⟨d, hphase⟩ := phase1_eq s
  rw [State.sumsChunk, hphase]
  exact ⟨List.mem_append_right _ List.mem_cons_self, List.mem_append_right _ List.mem_cons_self, rfl, rfl, rfl⟩

end

/-- A REDUCE flit brings the sums so far of a chunk to its owner on the first axis of its group, which has its own values: `sums` is the sum of
both. -/
structure ReachesOwner (s : State) (p : Nat) (f : Flit) (i b h c : Nat) (g : RGroup) (sums : List W32) : Prop where
  type   : f.type = 3
  header : i = bitsOf (fieldAt f.payload 0 6) 47 40 ∧ b = bitsOf (fieldAt f.payload 0 6) 39 16 ∧ c = bitsOf (fieldAt f.payload 0 6) 15 8 ∧
    h = bitsOf (fieldAt f.payload 0 6) 7 7 ∧ bitsOf (fieldAt f.payload 0 6) 6 6 = 0
  group  : s.rgroup i = some g
  first  : g.axisList.findIdx? (fun a => decide (a = portAxis p)) = some 0
  owner  : s.chainPlace (portAxis p) (s.bucketOwner g (portAxis p) b) h + 1 = s.runLen (portAxis p)
  values : ∃ q, s.contribution i g 0 b h c = some q ∧ addSums (payloadSums f) q = some sums

/-- Nothing that this speaks of is changed by the taking of a flit. -/
theorem ReachesOwner.onlyPortAndHost {t : State} {i b h c : Nat} {g : RGroup} {sums : List W32} (hs : ReachesOwner s p f i b h c g sums)
    (ht : OnlyPortAndHost p s t) : ReachesOwner t p f i b h c g sums := by
  refine ⟨hs.type, hs.header, ?_, hs.first, ?_, ?_⟩
  · rw [ht.reads (State.rgroup · i) (fun _ _ _ => rfl), hs.group]
  · rw [ht.reads (fun v => v.chainPlace (portAxis p) (v.bucketOwner g (portAxis p) b) h + 1) (fun _ _ _ => rfl), hs.owner,
      ht.reads (State.runLen · (portAxis p)) (fun _ _ _ => rfl)]
  · rw [ht.reads (State.contribution · i g 0 b h c) (fun _ _ _ => rfl)]
    exact hs.values

theorem ReachesOwner.actRed {i b h c : Nat} {g : RGroup} {sums : List W32} (hs : ReachesOwner s p f i b h c g sums) :
    s.actRed p f = some (s.sumsChunk i b h c (portAxis p) sums) := by
  obtain ⟨htype, ⟨hi, hb, hc, hh, hph⟩, hgroup, hfirst, howner, q, hq, hsums⟩ := hs
  rw [hi] at hgroup hq
  rw [hb, hh] at howner
  rw [hb, hh, hc] at hq
  unfold State.actRed
  dsimp only
  rw [hgroup]
  dsimp only
  rw [if_neg (by rw [htype]; decide), hfirst]
  dsimp only
  rw [if_neg (by rw [hph]; decide), hq]
  dsimp only
  rw [hsums]
  dsimp only
  rw [completeAxis_first, hi, hb, hh, hc]
  have hplace : s.phase1.chainPlace (portAxis p) (s.bucketOwner g (portAxis p) (bitsOf (fieldAt f.payload 0 6) 39 16))
      (bitsOf (fieldAt f.payload 0 6) 7 7) + 1 = s.phase1.runLen (portAxis p) := by
    obtain ⟨d, hphase⟩ := phase1_eq s
    rw [hphase]
    exact howner
  rw [if_pos hplace]

/-- REDUCE at the owner: the sums of a chunk are complete. -/
theorem reduce_owner {i b h c : Nat} {g : RGroup} {sums : List W32} (hr : Receives s p f 3) (hvc : 3 ≤ f.vc ∧ f.vc ≤ 6) (hres : residuesOk f = true)
    (hwork : s.reducing = true) (he : BuffersEmpty s) (hp : p < 2 * s.variant) (hs : ReachesOwner s p f i b h c g sums) :
    Completes (.reduce p f none) s (((s.holdsFlit p f).sumsChunk i b h c (portAxis p) sums).slotFreed p f) := by
  obtain ⟨-, -, hlink, -, -⟩ := sumsChunk_spec (s.holdsFlit p f) i b h c (portAxis p) sums
  have hports : ∀ q, ((s.holdsFlit p f).sumsChunk i b h c (portAxis p) sums).port q = (s.holdsFlit p f).port q := fun q => by
    rw [State.port, hlink]
    rfl
  rw [Completes, reduce_received hr hvc hres, takeRed_acts _ he hp hvc hwork (hs.onlyPortAndHost (onlyPortAndHost_holdsFlit s p f)).actRed
    (fun q => congrArg Port.rxbuf (hports q))]

/-- What it leaves: the sums and the chain, SEQ, memory and tiles. -/
theorem reduce_owner_spec (i b h c axis : Nat) (sums : List W32) {u : State}
    (hu : u = ((s.holdsFlit p f).sumsChunk i b h c axis sums).slotFreed p f) :
    ⟨i, b, h, c, 1, sums⟩ ∈ u.redn.sums ∧ (axis, i, b, 256 * h + c) ∈ u.redn.chains ∧
      (u.port p).rxSeq = ((s.port p).rxSeq + 1) % 4096 ∧ u.mem = s.mem ∧ u.tiles = s.tiles := by
  obtain ⟨hsums, hchain, hlink, hmem, htiles⟩ := sumsChunk_spec (s.holdsFlit p f) i b h c axis sums
  have hheld := onlyPortAndHost_holdsFlit s p f
  have hseq : (u.port p).rxSeq = ((s.port p).rxSeq + 1) % 4096 := by
    rw [hu, rxSeq_slotFreed, State.port, hlink]
    exact rxSeq_holdsFlit s p f
  generalize (s.holdsFlit p f).sumsChunk i b h c axis sums = v at hsums hchain hmem htiles hu
  rw [hheld.reads State.mem fun _ _ _ => rfl] at hmem
  rw [hheld.reads State.tiles fun _ _ _ => rfl] at htiles
  have hredn : u.redn = v.redn := by rw [hu]; rfl
  refine ⟨hredn ▸ hsums, hredn ▸ hchain, hseq, ?_, ?_⟩
  · rw [hu]
    exact hmem
  · rw [hu]
    exact htiles

end

/-! ## Exponent agreement (R294) -/

section
variable (i : Nat) (g : RGroup)

theorem reductionWork_sendVector (axis : Nat) (s : State) : ReductionWork s (s.sendVector i g axis) :=
  .forEach _ (fun u _ => .startRed u _ _ _ _) s

theorem reductionWork_agreeOn (n : Nat) : ∀ s : State, ReductionWork s (State.agreeOn i g n s) := by
  induction n with
  | zero => exact .refl
  | succ n ih =>
    intro s
    unfold State.agreeOn
    split
    · exact .refl s
    · split
      · exact .refl s
      · refine .ite (.refl s) ?_
        dsimp only
        split
        · exact .setRedn s _
        · exact ((ReductionWork.setRedn s _).trans (.ite (reductionWork_sendVector i g _ _) (.refl _))).trans (ih _)

end

/-- The greater of two exponent bytes, one by one. -/
def greaterBytes (xs ys : List Byte) : List Byte := (xs.zip ys).map (fun x => if x.1.toNat < x.2.toNat then x.2 else x.1)

theorem length_greaterBytes {xs ys : List Byte} {n : Nat} (hx : xs.length = n) (hy : n ≤ ys.length) : (greaterBytes xs ys).length = n := by
  simp [greaterBytes, hx, hy]

/-- An AGREE flit comes on the axis in progress of its group's agreement. -/
structure Agrees (s : State) (p : Nat) (f : Flit) (g : RGroup) : Prop where
  type  : f.type = 4
  group : s.rgroup (bitsOf (fieldAt f.payload 0 6) 47 40) = some g
  axis  : ∃ k, s.redn.agreeing.find? (fun a => decide (a.group = bitsOf (fieldAt f.payload 0 6) 47 40)) = some k ∧ g.axisList[k.axis]? = some (portAxis p)

/-- The buckets that an AGREE flit speaks of: where their agreed bytes lie, and how many. -/
def agreeAt (f : Flit) (g : RGroup) : Nat := g.agree + g.buckets + bitsOf (fieldAt f.payload 0 6) 39 16
def agreeCount (f : Flit) : Nat := min (fieldAt f.payload 0 6 % 65536) 224

/-- The state in which the greater exponents have been written. -/
def State.agreesBytes (s : State) (f : Flit) (g : RGroup) : State :=
  s.devWrite (agreeAt f g) (greaterBytes (s.devRead (agreeAt f g) (agreeCount f)) (bytesAt f.payload 6 (agreeCount f)))

/-- An AGREE flit is acted on: the greater exponents are written, and the reduction goes on with them. -/
theorem Agrees.actRed {s : State} {p : Nat} {f : Flit} {g : RGroup} (h : Agrees s p f g) :
    ∃ v, s.actRed p f = some v ∧ ReductionWork (s.agreesBytes f g) v := by
  obtain ⟨htype, hgroup, k, hk, haxis⟩ := h
  unfold State.actRed
  dsimp only
  rw [hgroup]
  dsimp only
  rw [if_pos htype, hk]
  dsimp only
  rw [if_neg (not_not_intro haxis)]
  exact ⟨_, rfl, ((ReductionWork.setRedn _ _).trans (.ite (.queueFlit _ _ _) (.refl _))).trans (reductionWork_agreeOn _ g 4 _)⟩

section
variable {s : State} {p : Nat} {f : Flit} {g : RGroup}

theorem agree_received (h : Receives s p f 4) (hvc : 3 ≤ f.vc ∧ f.vc ≤ 6) (ue : Option Nat) :
    exec (.agree p f ue) s = .next ((s.received p f).takeRed p f ue (fun g => [(g.agree + g.buckets, g.buckets)])) := by
  show execAgree p f ue s = _
  unfold execAgree
  rw [rxSequenced_received h (decide_eq_true hvc)]

theorem Agrees.onlyPortAndHost {t : State} (h : Agrees s p f g) (ht : OnlyPortAndHost p s t) : Agrees t p f g := by
  refine ⟨h.type, ?_, ?_⟩
  · rw [ht.reads (State.rgroup · (bitsOf (fieldAt f.payload 0 6) 47 40)) (fun _ _ _ => rfl), h.group]
  · rw [ht.reads State.redn (fun _ _ _ => rfl)]
    exact h.axis

/-- AGREE: the greater exponents stand in the agreed bytes of its buckets. -/
theorem agree_agrees (hr : Receives s p f 4) (hvc : 3 ≤ f.vc ∧ f.vc ≤ 6) (hwork : s.reducing = true) (he : BuffersEmpty s)
    (hp : p < 2 * s.variant) (h : Agrees s p f g) (hlen : f.payload.length = 240) :
    ∃ u, Completes (.agree p f none) s u ∧ (u.port p).rxSeq = ((s.port p).rxSeq + 1) % 4096 ∧
      u.devRead (agreeAt f g) (agreeCount f) =
        greaterBytes (s.devRead (agreeAt f g) (agreeCount f)) (bytesAt f.payload 6 (agreeCount f)) := by
  have hheld := onlyPortAndHost_holdsFlit s p f
  obtain ⟨v, hact, hv⟩ := (h.onlyPortAndHost hheld).actRed
  have hports : ∀ q, ((s.holdsFlit p f).agreesBytes f g).port q = (s.holdsFlit p f).port q := fun q => devWrite_congr _ _ _ (State.port · q)
  have hbytes : v.devRead (agreeAt f g) (agreeCount f) = ((s.holdsFlit p f).agreesBytes f g).devRead (agreeAt f g) (agreeCount f) :=
    hv.reads (State.devRead · (agreeAt f g) (agreeCount f)) (fun _ _ _ => rfl)
  refine ⟨v.slotFreed p f, ?_, ?_, ?_⟩
  · rw [Completes, agree_received hr hvc, takeRed_acts _ he hp hvc hwork hact (fun q => by rw [hv.sends.rxbuf, hports])]
  · rw [rxSeq_slotFreed]
    exact (hv.sends.rxSeq p).trans ((congrArg Port.rxSeq (hports p)).trans (rxSeq_holdsFlit s p f))
  · show v.devRead (agreeAt f g) (agreeCount f) = _
    have hn : agreeCount f ≤ (bytesAt f.payload 6 (agreeCount f)).length := by
      simp only [bytesAt, List.length_take, List.length_drop, hlen, agreeCount]
      omega
    rw [hbytes, State.agreesBytes, devRead_devWrite_of_length _ _ _ (length_greaterBytes (length_devRead _ _ _) hn),
      hheld.reads (State.devRead · (agreeAt f g) (agreeCount f)) (fun _ _ _ => rfl)]

end

/-! ## WEIGHT (R306) -/

/-- The state in which a port has taken a flit and freed its slot at once. -/
def State.taken (s : State) (p : Nat) (f : Flit) : State := (s.received p f).modPort p (fun x => x.free f.vc)

theorem onlyPortAndHost_taken (s : State) (p : Nat) (f : Flit) : OnlyPortAndHost p s (s.taken p f) :=
  (received_received s p f).only.trans (onlyPortAndHost_modPort _ p _)

theorem rxSeq_taken (s : State) (p : Nat) (f : Flit) : ((s.taken p f).port p).rxSeq = ((s.port p).rxSeq + 1) % 4096 := by
  rw [State.taken, port_modPort_same, rxSeq_free, (received_received s p f).rxSeq]

/-- Where the weights of a WEIGHT flit lie in their group's image, and how many bytes they are. -/
def weightAt (f : Flit) (g : RGroup) : Nat :=
  g.wimage + 32768 * bitsOf (fieldAt f.payload 0 6) 39 16 +
    2 * (8192 * bitsOf (fieldAt f.payload 0 6) 7 7 + 112 * bitsOf (fieldAt f.payload 0 6) 15 8)
def weightBytes (f : Flit) : Nat := 2 * min (fieldAt f.payload 0 6 % 128) 112

/-- The state in which a flit's weights stand in the image and its chunk is known to have come. -/
def State.takesWeights (s : State) (f : Flit) (g : RGroup) : State :=
  (s.devWrite (weightAt f g) (bytesAt f.payload 6 (weightBytes f))).setRedn { s.redn with weights := s.redn.weights ++
    [(bitsOf (fieldAt f.payload 0 6) 47 40, bitsOf (fieldAt f.payload 0 6) 39 16,
      128 * bitsOf (fieldAt f.payload 0 6) 7 7 + bitsOf (fieldAt f.payload 0 6) 15 8)] }

theorem devRead_takesWeights (s : State) {f : Flit} (g : RGroup) (hlen : f.payload.length = 240) :
    (s.takesWeights f g).devRead (weightAt f g) (weightBytes f) = bytesAt f.payload 6 (weightBytes f) := by
  refine devRead_devWrite_of_length s _ _ ?_
  simp only [bytesAt, List.length_take, List.length_drop, hlen, weightBytes]
  omega

theorem port_takesWeights (s : State) (f : Flit) (g : RGroup) (q : Nat) : (s.takesWeights f g).port q = s.port q :=
  devWrite_congr s _ _ (State.port · q)

/-- WEIGHT: its weights are written, and it may be sent on. -/
theorem weight_next {s : State} {p : Nat} {f : Flit} {g : RGroup} (h : Receives s p f 5) (hvc : 3 ≤ f.vc ∧ f.vc ≤ 6)
    (hg : s.rgroup (bitsOf (fieldAt f.payload 0 6) 47 40) = some g) :
    ∃ u, Completes (.weight p f) s u ∧ u.redn = ((s.taken p f).takesWeights f g).redn ∧ ReductionWork ((s.taken p f).takesWeights f g) u := by
  have hg' : (s.taken p f).rgroup (bitsOf (fieldAt f.payload 0 6) 47 40) = some g :=
    ((onlyPortAndHost_taken s p f).reads (State.rgroup · (bitsOf (fieldAt f.payload 0 6) 47 40)) fun _ _ _ => rfl).trans hg
  have hredn : ∀ a bs, ((s.taken p f).devWrite a bs).redn = (s.taken p f).redn := fun a bs => devWrite_congr _ a bs State.redn
  show ∃ u, execWeight p f s = .next u ∧ _
  unfold execWeight
  rw [rxSequenced_received h (decide_eq_true hvc)]
  dsimp only
  rw [← State.taken, hg']
  dsimp only
  rw [hredn]
  refine ⟨_, rfl, ?_, ?_⟩
  · split <;> rfl
  · exact .ite (.queueFlit _ _ _) (.refl _)

/-! ## BARRIER (R308) -/

/-- A flit for the next waypoint is combined with what has been heard for it. -/
theorem hear_next (b : Barrier) (w axis dir : Nat) (nf : Bool) : b.hear w (w, axis, dir, nf) =
    { b with heard := tmod 0 b.heard (heardKey w axis dir) (· + 1), nf := b.nf || nf } := if_pos rfl

/-- The port that faces the other way on its axis is another one. -/
theorem xor_one_ne (p : Nat) : p ^^^ 1 ≠ p := fun h => by
  have h0 : p ^^^ 1 = p ^^^ 0 := h.trans (Nat.xor_zero p).symm
  exact absurd (Nat.xor_right_injective h0) (by decide)

/-- The state in which a port has taken a BARRIER flit for the next waypoint and heard it. -/
def State.barrierHeard (s : State) (p : Nat) (f : Flit) : State :=
  (s.taken p f).setRedn
    { s.redn with barrier := s.redn.barrier.hear s.nextWpt (s.nextWpt, portAxis p, 1 - p % 2, decide (fieldAt f.payload 9 1 = 1)) }

/-- The flit by which a BARRIER flit for waypoint `w` is passed on while hops are left. -/
def passedOn (f : Flit) (w axis : Nat) : Flit :=
  mkFlit 6 0 (leBytes 8 w ++ leBytes 1 axis ++ leBytes 1 (if fieldAt f.payload 9 1 = 1 then 1 else 0) ++ leBytes 1 (fieldAt f.payload 0xA 1 - 1))

theorem barrier_next {s : State} {p : Nat} {f : Flit} (h : Receives s p f 6) (hvc : f.vc = 0) (hlen : 2 ≤ s.runLen (portAxis p))
    (haxis : fieldAt f.payload 8 1 = portAxis p) (hw : fieldAt f.payload 0 8 = s.nextWpt) :
    Completes (.barrier p f) s (if fieldAt f.payload 0xA 1 = 0 then s.barrierHeard p f
      else (s.barrierHeard p f).queueFlit (p ^^^ 1) (passedOn f s.nextWpt (portAxis p))) := by
  have htaken := onlyPortAndHost_taken s p f
  have hears : (s.taken p f).hears s.nextWpt (portAxis p) = true := by
    rw [htaken.reads (State.hears · s.nextWpt (portAxis p)) fun _ _ _ => rfl]
    exact decide_eq_true ⟨hlen, .inl rfl⟩
  have hheard : (s.taken p f).hearBarrier (s.nextWpt, portAxis p, 1 - p % 2, decide (fieldAt f.payload 9 1 = 1)) = s.barrierHeard p f := by
    rw [hearBarrier_eq hears, htaken.reads State.redn fun _ _ _ => rfl, htaken.reads State.nextWpt fun _ _ _ => rfl, State.barrierHeard]
  show execBarrier p f s = _
  unfold execBarrier
  rw [rxSequenced_received h (decide_eq_true hvc)]
  dsimp only
  rw [if_pos haxis, haxis, hw, ← hvc, ← State.taken, hheard, hvc, passedOn]
  simp only [decide_eq_true_eq]

theorem rxSeq_barrierHeard (s : State) (p : Nat) (f : Flit) : ((s.barrierHeard p f).port p).rxSeq = ((s.port p).rxSeq + 1) % 4096 := by
  rw [State.barrierHeard, State.port_setRedn, rxSeq_taken]

theorem port_barrierHeard_opposite (s : State) (p : Nat) (f : Flit) : (s.barrierHeard p f).port (p ^^^ 1) = s.port (p ^^^ 1) := by
  rw [State.barrierHeard, State.port_setRedn, (onlyPortAndHost_taken s p f).2 _ (xor_one_ne p)]

/-- The flit's bit and its hearing, in its direction, are in the barrier. -/
theorem barrier_barrierHeard (s : State) (p : Nat) (f : Flit) :
    (s.barrierHeard p f).redn.barrier.nf = (s.redn.barrier.nf || decide (fieldAt f.payload 9 1 = 1)) ∧
      tget 0 (s.barrierHeard p f).redn.barrier.heard (heardKey s.nextWpt (portAxis p) (1 - p % 2)) =
        tget 0 s.redn.barrier.heard (heardKey s.nextWpt (portAxis p) (1 - p % 2)) + 1 := by
  rw [State.barrierHeard, State.redn_setRedn]
  dsimp only
  rw [hear_next]
  exact ⟨rfl, tget_tmod_same 0 s.redn.barrier.heard _ (· + 1)⟩

/-- What a flit that waits behind others on the port facing the other way leaves. -/
theorem queueFlit_opposite_spec (s : State) (p : Nat) (f : Flit) (hf : f.vc = 0) :
    (s.queueFlit (p ^^^ 1) f).redn = s.redn ∧ ((s.queueFlit (p ^^^ 1) f).port p) = s.port p ∧
      tget [] ((s.queueFlit (p ^^^ 1) f).port (p ^^^ 1)).sendq 0 = tget [] (s.port (p ^^^ 1)).sendq 0 ++ [f] := by
  refine ⟨rfl, port_modPort_other s _ (xor_one_ne p).symm, ?_⟩
  rw [State.queueFlit, port_modPort_same, hf]
  exact tget_tmod_same [] (s.port (p ^^^ 1)).sendq 0 (· ++ [f])

end Sys2Proof.Machine
end

section
/-! The statement of 09 about the flits of the reduction and of the barrier. -/

namespace Sys2Proof.Proofs

open Sys2Proof.Machine

/-- Settles O57: where no other flit is held, a flit of the reduction that can proceed is acted on and its slot is freed
(`HoldsOnly.drainRed`), so each clause reads what its action makes of the state that has taken it. -/
theorem reductionFlits : Obligations.ReductionFlits := by
  refine fun s p f => ⟨⟨?owner, ?reduceError, ?retry, ?again, ?agree, ?weight⟩, ?barrier⟩
  case owner =>
    intro g q sums hr hlo hhi hres hwork hempty hp hgroup hfirst hph hq hsums howner
    exact ⟨_, reduce_owner hr ⟨hlo, hhi⟩ hres hwork hempty hp ⟨hr.2.2.2.2.1, ⟨rfl, rfl, rfl, rfl, hph⟩, hgroup, hfirst, howner, q, hq, hsums⟩,
      reduce_owner_spec _ _ _ _ _ sums rfl⟩
  case reduceError =>
    intro g ue a hr hlo hhi hres hgroup hue
    have hnext := reduce_received hr ⟨hlo, hhi⟩ hres ue
    rw [takeRed_ue hgroup hue] at hnext
    exact ⟨_, hnext, (onlyPortAndHost_holdsFlit s p f).records (raisedS_stackUe _ a).records⟩
  case retry =>
    intro hr hres hfirst ue
    exact ⟨_, reduce_badResidue hr hres ue, badResidue_first s p f hfirst⟩
  case again =>
    intro hr hres hagain ue
    exact ⟨_, reduce_badResidue hr hres ue, badResidue_again s p f hagain⟩
  case agree =>
    intro g k hr hlo hhi hwork hempty hp hgroup hlen hk haxis
    refine ⟨fun ue a hue => ?_, agree_agrees hr ⟨hlo, hhi⟩ hwork hempty hp ⟨hr.2.2.2.2.1, hgroup, k, hk, haxis⟩ hlen⟩
    have hnext := agree_received hr ⟨hlo, hhi⟩ ue
    rw [takeRed_ue hgroup hue] at hnext
    exact ⟨_, hnext, (onlyPortAndHost_holdsFlit s p f).records (raisedS_stackUe _ a).records⟩
  case weight =>
    intro g hr hlo hhi hgroup hlen
    obtain ⟨u, hnext, hredn, hwork⟩ := weight_next hr ⟨hlo, hhi⟩ hgroup
    refine ⟨u, hnext, ?_, ?_, ?_⟩
    · rw [hwork.sends.rxSeq, port_takesWeights, rxSeq_taken]
    · rw [hredn, ← (onlyPortAndHost_taken s p f).reads State.redn fun _ _ _ => rfl]
      rfl
    · exact (hwork.reads (State.devRead · (weightAt f g) (weightBytes f)) fun _ _ _ => rfl).trans (devRead_takesWeights _ g hlen)
  case barrier =>
    intro hr hvc hlen haxis hw
    have hnext := barrier_next hr hvc hlen haxis hw
    obtain ⟨hnf, hheard⟩ := barrier_barrierHeard s p f
    have hseq := rxSeq_barrierHeard s p f
    have hother := port_barrierHeard_opposite s p f
    by_cases hleft : fieldAt f.payload 0xA 1 = 0
    · rw [if_pos hleft] at hnext
      refine ⟨s.barrierHeard p f, hnext, hseq, hnf, hheard, ?_⟩
      rw [hother, if_pos hleft, List.append_nil]
    · rw [if_neg hleft] at hnext
      obtain ⟨hredn, hport, hsendq⟩ := queueFlit_opposite_spec (s.barrierHeard p f) p (passedOn f s.nextWpt (portAxis p)) rfl
      refine ⟨_, hnext, ?_, ?_, ?_, ?_⟩
      · rw [hport, hseq]
      · rw [hredn, hnf]
      · rw [hredn, hheard]
      · rw [hsendq, hother, if_neg hleft, passedOn]

end Sys2Proof.Proofs
end

section
/-! SUPPORT. What begins the reduction: scans, the machine barrier and its agreement record, exponent agreement, chains and gathers (09 R291, R293,
R294, R303, R305, R306, R308; 15 R433). -/

namespace Sys2Proof.Machine

/-! ## GRADIENT_SCAN (R291) -/

/-- A bucket waits to be scanned. -/
structure ScanDue (s : State) (grp b : Nat) (g : RGroup) : Prop where
  group     : s.rgroup grp = some g
  running   : s.running = true
  cwpt      : s.cwptNext = true
  step      : s.commitStep = true
  idle      : s.rcv.phase = .idle
  bucket    : b < g.buckets
  unscanned : (grp, b) ∉ s.redn.scanned
  ready     : s.placedRegions.all (fun r => (s.region r).ready) = true

/-- The local exponent byte of a bucket. -/
def State.localExponent (s : State) (g : RGroup) (b : Nat) : Nat := exponentByte ((List.range 16384).map (fun e => ofF32 (s.gradElem g b e)))

/-- The state in which a bucket has been scanned and found to have exponent byte `x`. -/
def State.scans (s : State) (grp b : Nat) (g : RGroup) (x : Nat) : State :=
  (s.devWrite (g.agree + b) (leBytes 1 x)).setRedn
    { s.redn with scanned := s.redn.scanned ++ [(grp, b)], scanBad := s.redn.scanBad || decide (x = 0xFF) }

@[simp] theorem redn_devWrite (s : State) (a : Nat) (bs : List Byte) : (s.devWrite a bs).redn = s.redn := devWrite_congr s a bs State.redn

section
variable {s : State} {grp b : Nat} {g : RGroup} (h : ScanDue s grp b g) {ue : Option Nat}
include h

theorem ScanDue.conditions : s.running ∧ s.cwptNext ∧ s.commitStep ∧ decide (s.rcv.phase = .idle) ∧ b < g.buckets ∧
    ¬ s.redn.scanned.contains (grp, b) ∧ s.placedRegions.all (fun r => (s.region r).ready) :=
  ⟨h.running, h.cwpt, h.step, by simp [h.idle], h.bucket, by simp [h.unscanned], h.ready⟩

theorem gradientScan_ue {a : Nat} (hu : ueIn ue [(s.gradCopy g + 65536 * b, 65536)] = some a) :
    Completes (.gradientScan grp b ue) s (s.stackUe a) := by
  show execGradientScan grp b ue s = _
  unfold execGradientScan
  rw [h.group]
  dsimp only
  rw [if_pos h.conditions, hu]

theorem gradientScan_next (hu : ueIn ue [(s.gradCopy g + 65536 * b, 65536)] = none) :
    Completes (.gradientScan grp b ue) s (s.scans grp b g (s.localExponent g b)) := by
  show execGradientScan grp b ue s = _
  unfold execGradientScan
  rw [h.group]
  dsimp only
  rw [if_pos h.conditions, hu]
  dsimp only
  rw [redn_devWrite, ← State.localExponent, ← State.scans]

end

/-- The byte stands in the local vector; beside memory the reduction's state alone differs. -/
theorem scans_spec (s : State) (grp b : Nat) (g : RGroup) (x : Nat) : (s.scans grp b g x).devRead (g.agree + b) 1 = [BitVec.ofNat 8 x] ∧
    { s.scans grp b g x with mem := s.mem, jmem := s.jmem, redn := s.redn } = s := by
  refine ⟨devRead_devWrite s (g.agree + b) (leBytes 1 x), ?_⟩
  obtain ⟨m, j, e⟩ := devWrite_eq (leBytes 1 x) s (g.agree + b)
  rw [State.scans, e]
  rfl

/-! ## MACHINE_BARRIER_COMPLETE (R293, R308) -/

theorem redSec_of_commitStep {s : State} (h : s.commitStep = true) : ∃ r, s.redSec = some r := by
  unfold State.commitStep at h
  split at h
  · exact ⟨_, ‹_›⟩
  · cases h

/-- The agreement record is written, and the flag that it holds is kept and shown. -/
theorem writeAgreement_spec {s : State} {r : RedSec} (h : s.redSec = some r) (flag : Bool) :
    ∃ m j d, s.writeAgreement flag = { s with mem := m, jmem := j, dict := d, redn := { s.redn with flag := flag, flagSet := true } } ∧
      (s.writeAgreement flag).obj 0x5100 3 = if flag then 1 else 0 := by
  unfold State.writeAgreement
  rw [h]
  dsimp only
  obtain ⟨m, j, e⟩ := devWrite_eq (leBytes 1 (if flag then 1 else 0) ++ zeros 7 ++ leBytes 8 (s.commitNat 0x18 8) ++ zeros 48) s r.arec
  rw [e]
  exact ⟨m, j, _, rfl, tget_tset_same (objDflt s.variant (okey 0x5100 3)) s.dict.objs (okey 0x5100 3) _⟩

/-- The barrier's counts and its longest time, in a machine of more than one module. -/
def State.countBarrier (s : State) (since : Nat) : State :=
  if s.multi then (s.setObj 0x9060 5 (max (s.obj 0x9060 5) (min (s.now - since) (2 ^ 32 - 1)))).bump 0x9050 4 64 1 else s

theorem countBarrier_eq (s : State) (since : Nat) : ∃ d, s.countBarrier since = { s with dict := d } := by
  unfold State.countBarrier
  split
  · exact ⟨_, rfl⟩
  · exact ⟨_, rfl⟩

/-- The state in which the barrier of a module that has gone over every axis is complete. -/
def State.completesBarrier (s : State) : State :=
  let t := (s.setRedn { s.redn with barrier := { s.redn.barrier with complete := true } }).countBarrier s.redn.barrier.since
  if t.cwptNext && t.commitStep then t.writeAgreement s.redn.barrier.nf else t

/-- The barrier has been reported, gone over every axis and not yet completed, in a RUN where no fault is handled. -/
structure BarrierDone (s : State) : Prop where
  running    : s.running = true
  idle       : s.rcv.phase = .idle
  incomplete : s.redn.barrier.complete = false
  reported   : s.redn.barrier.reported = true
  axes       : s.redn.barrier.axis = 4

theorem machineBarrierComplete_next {s t : State} (ht : s.report.barrierOn 5 = t) (h : BarrierDone t) :
    Completes .machineBarrierComplete s t.completesBarrier := by
  show execMachineBarrierComplete s = _
  unfold execMachineBarrierComplete
  rw [ht]
  exact if_pos ⟨h.reported, by simp [h.incomplete], h.axes, h.running, h.idle⟩

/-- A completed barrier leaves links and tiles; at the commit waypoint of a commit step its flag stands, and elsewhere memory does. -/
structure BarrierCompleted (s u : State) : Prop where
  complete : u.redn.barrier.complete = true
  reported : u.redn.barrier.reported = s.redn.barrier.reported
  link     : u.link = s.link
  tiles    : u.tiles = s.tiles
  agreed   : (s.cwptNext && s.commitStep) = true → u.redn.flag = s.redn.barrier.nf ∧ u.redn.flagSet = true ∧
    u.obj 0x5100 3 = if s.redn.barrier.nf then 1 else 0
  mem      : (s.cwptNext && s.commitStep) = false → u.mem = s.mem

theorem barrierCompleted_completesBarrier (s : State) : BarrierCompleted s s.completesBarrier := by
  obtain ⟨d, hcount⟩ := countBarrier_eq (s.setRedn { s.redn with barrier := { s.redn.barrier with complete := true } }) s.redn.barrier.since
  unfold State.completesBarrier
  dsimp only
  generalize ht : (s.setRedn { s.redn with barrier := { s.redn.barrier with complete := true } }).countBarrier s.redn.barrier.since = t at hcount ⊢
  have hcommit : (t.cwptNext && t.commitStep) = (s.cwptNext && s.commitStep) := by rw [hcount]; rfl
  by_cases hc : (s.cwptNext && s.commitStep) = true
  · rw [hcommit, if_pos hc]
    obtain ⟨r, hr⟩ := redSec_of_commitStep (Bool.and_eq_true_iff.1 hc).2
    have hr' : t.redSec = some r := by rw [hcount]; exact hr
    obtain ⟨m, j, d', hwrite, hobj⟩ := writeAgreement_spec hr' s.redn.barrier.nf
    refine ⟨?_, ?_, ?_, ?_, fun _ => ⟨?_, ?_, hobj⟩, fun hn => absurd hc (by simp [hn])⟩ <;> rw [hwrite, hcount] <;> rfl
  · rw [hcommit, if_neg hc]
    refine ⟨?_, ?_, ?_, ?_, fun hp => absurd hp hc, fun _ => ?_⟩ <;> rw [hcount] <;> rfl

/-! ### A module that reports -/

theorem report_of_reported {s : State} (h : s.redn.barrier.reported = true) : s.report = s := if_pos (.inl h)

theorem barrierOn_of_done {s : State} (h : 4 ≤ s.redn.barrier.axis) (n : Nat) : State.barrierOn n s = s := by
  cases n with
  | zero => rfl
  | succ n => exact if_pos h

theorem sendBarrier_of_short {s : State} {axis : Nat} (h : s.runLen axis < 2) : s.sendBarrier axis = s := if_pos h

/-- The state whose barrier stands at an axis. -/
def State.atAxis (s : State) (axis : Nat) : State := s.setRedn { s.redn with barrier := { s.redn.barrier with axis := axis } }

/-- The barrier of a machine of one module goes over every axis. -/
theorem barrierOn_alone (n : Nat) : ∀ {s : State}, (∀ a, a < 4 → s.runLen a < 2) → s.redn.barrier.axis ≤ 4 → 4 ≤ s.redn.barrier.axis + n →
    State.barrierOn n s = s.atAxis 4 := by
  have hstay : ∀ s : State, s.redn.barrier.axis = 4 → s = s.atAxis 4 := fun s h => by
    rw [State.atAxis, ← h]
    rfl
  induction n with
  | zero => exact fun _ hle hge => hstay _ (Nat.le_antisymm hle hge)
  | succ n ih =>
    intro s hlen hle hge
    by_cases hdone : 4 ≤ s.redn.barrier.axis
    · rw [barrierOn_of_done hdone]
      exact hstay s (Nat.le_antisymm hle hdone)
    · have hgo : (if s.redn.barrier.axis + 1 < 4 then (s.atAxis (s.redn.barrier.axis + 1)).sendBarrier (s.redn.barrier.axis + 1)
          else s.atAxis (s.redn.barrier.axis + 1)) = s.atAxis (s.redn.barrier.axis + 1) := by
        split
        · exact sendBarrier_of_short (hlen _ ‹_›)
        · rfl
      unfold State.barrierOn
      dsimp only
      rw [if_neg hdone, if_pos (.inl (hlen _ (by omega))), ← State.atAxis, hgo]
      exact ih (s := s.atAxis (s.redn.barrier.axis + 1)) hlen (by show s.redn.barrier.axis + 1 ≤ 4; omega)
        (by show 4 ≤ s.redn.barrier.axis + 1 + n; omega)

/-- The state in which a module has reported ready, with its non-finite bit at the commit waypoint of a commit step. -/
def State.reports (s : State) : State :=
  s.setRedn { s.redn with barrier := { s.redn.barrier with
    reported := true, axis := 0, nf := s.redn.barrier.nf || (s.cwptNext && s.commitStep && s.nonfinBit), since := s.now, limit := s.obj 0x5101 0 } }

/-- A module that is ready, has no taps and is alone on axis A reports, and sends nothing. -/
theorem report_alone {s : State} (hrun : s.running = true) (hidle : s.rcv.phase = .idle) (hfirst : s.redn.barrier.reported = false)
    (hready : s.othersReady = true) (hlen : s.runLen 0 < 2) (htaps : ∀ c, s.chart = some c → c.taps = []) : s.report = s.reports := by
  unfold State.report
  rw [if_neg (by simp [hfirst, hrun, hidle, hready])]
  dsimp only
  rw [← State.reports]
  have hchart : s.reports.chart = s.chart := rfl
  rw [hchart]
  cases hc : s.chart with
  | none => exact sendBarrier_of_short hlen
  | some c =>
    dsimp only
    rw [htaps c hc]
    exact sendBarrier_of_short hlen

/-! ## BARRIER_TIMEOUT (R309) -/

theorem barrierTimeout_next {s : State} (p : Nat) (hrun : s.running = true) (hmulti : s.multi = true) (hrep : s.redn.barrier.reported = true)
    (hinc : s.redn.barrier.complete = false) (hdue : s.redn.barrier.since + 1000 * s.redn.barrier.limit ≤ s.now) (hidle : s.rcv.phase = .idle) :
    Completes (.barrierTimeout p) s ((s.event (srcLink p) 0x5A11 []).linkFault p 0x44 (leBytes 8 s.nextWpt)) :=
  if_pos ⟨hrun, hmulti, hrep, by simp [hinc], hdue, hidle⟩

/-- A link engine fault of class S after an event, in a RUN where no fault is handled: its record, and the end of the RUN. -/
theorem event_linkFault_stops {s : State} (p src code cause : Nat) (data detail : List Byte) (hc : causeClass cause = clsS) (hrun : s.running = true)
    (hidle : s.rcv.phase = .idle) :
    let u := (s.event src code data).linkFault p cause detail
    Records s u cause ∧ u.run = none ∧ u.rcv.phase = .resetOnly ∧ u.chart = s.chart := by
  intro u
  obtain ⟨log, hevent⟩ := event_eq s src code data
  have hrecords := (raisedS_raiseFault (s.event src code data) (f := ⟨cause, causeClass cause, (.link, p), none, none, 7, some p, detail⟩) hc rfl).records
  obtain ⟨hnone, hphase, hchart⟩ := raiseFault_stops (s := s.event src code data)
    (f := ⟨cause, causeClass cause, (.link, p), none, none, 7, some p, detail⟩) hc rfl (by rw [hevent]; exact hrun) (by rw [hevent]; exact hidle)
  have hnumber : (s.event src code data).obj 0x6010 0 = s.obj 0x6010 0 := by rw [hevent]; rfl
  have hnow : (s.event src code data).now = s.now := by rw [hevent]; rfl
  rw [Records, hnumber, hnow] at hrecords
  exact ⟨hrecords, hnone, hphase, hchart.trans (by rw [hevent])⟩

end Sys2Proof.Machine
end

section
/-! SUPPORT. Exponent agreement, the chains of phase 1 and the gathers begin (09 R294, R303, R305, R306; 15 R433). -/

namespace Sys2Proof.Machine

theorem buffersEmpty_of_link {s u : State} (h : u.link = s.link) (he : BuffersEmpty s) : BuffersEmpty u := fun p vc => by
  rw [State.port, h]
  exact he p vc

theorem redn_startRed (s : State) (p type vc : Nat) (payload : List Byte) : (s.startRed p type vc payload).redn = s.redn := rfl

/-! ## EXPONENT_AGREEMENT (R294) -/

section
variable (i : Nat) (g : RGroup)

theorem redn_sendVector (axis : Nat) (s : State) : (s.sendVector i g axis).redn = s.redn :=
  forEach_keeps (fun u => u.redn = s.redn) _ _ (fun u _ _ h => (redn_startRed u _ _ _ _).trans h) s rfl

/-- A group's agreement is done or in progress. -/
def InAgreement (i : Nat) (s : State) : Prop := i ∈ s.redn.agreed ∨ ∃ a ∈ s.redn.agreeing, a.group = i

theorem inAgreement_agreeOn (n : Nat) : ∀ {s : State}, InAgreement i s → InAgreement i (State.agreeOn i g n s) := by
  induction n with
  | zero => exact id
  | succ n ih =>
    intro s h
    unfold State.agreeOn
    split
    · exact h
    · split
      · exact h
      · dsimp only
        split
        · exact h
        · split
          · exact .inl (List.mem_append_right _ List.mem_cons_self)
          · refine ih (.inr ?_)
            split
            · rw [redn_sendVector]
              exact ⟨_, List.mem_append_right _ List.mem_cons_self, rfl⟩
            · exact ⟨_, List.mem_append_right _ List.mem_cons_self, rfl⟩

theorem mem_axisList {g : RGroup} {a : Nat} (h : a ∈ g.axisList) : a < 4 := by
  obtain ⟨x, hx, hax⟩ := List.mem_filterMap.1 h
  dsimp only at hax
  split at hax
  · cases hax
    fin_cases hx <;> decide
  · cases hax

theorem length_axisList_le (g : RGroup) : g.axisList.length ≤ 3 := List.length_filterMap_le _ _

/-- The agreement of a machine of one module goes over every axis of the group. -/
theorem agreeOn_alone (n : Nat) : ∀ {s : State} {k : Nat}, (∀ a, a < 4 → s.runLen a = 1) →
    s.redn.agreeing.find? (fun a => decide (a.group = i)) = some ⟨i, k, []⟩ → k < g.axisList.length → g.axisList.length ≤ k + n →
    (State.agreeOn i g n s).redn.agreed = s.redn.agreed ++ [i] := by
  induction n with
  | zero => exact fun _ _ hk hn => absurd hk (by omega)
  | succ n ih =>
    intro s k hlen hfind hk hn
    have hax : g.axisList[k]? = some g.axisList[k] := List.getElem?_eq_getElem hk
    have hheard : ¬ (List.range (vecFlits g)).any (fun j => decide (tget 0 [] (224 * j) + 1 < s.runLen g.axisList[k])) = true := by
      rw [hlen _ (mem_axisList (List.getElem_mem hk))]
      simp
    unfold State.agreeOn
    rw [hfind]
    dsimp only
    rw [hax]
    dsimp only
    rw [if_neg hheard]
    by_cases hmore : k + 1 < g.axisList.length
    · rw [List.getElem?_eq_getElem hmore]
      dsimp only
      rw [if_neg (by
        show ¬ 2 ≤ s.runLen _
        rw [hlen _ (mem_axisList (List.getElem_mem hmore))]
        decide)]
      refine ih hlen ?_ hmore (by omega)
      show List.find? _ (s.redn.agreeing.filter _ ++ _) = _
      rw [List.find?_append, List.find?_eq_none.2 (by simp)]
      simp
    · rw [List.getElem?_eq_none (Nat.le_of_not_lt hmore)]
      rfl

end

/-- The agreement of a group is due in a module whose receive buffers are empty. -/
structure AgreementDue (s : State) (i : Nat) (g : RGroup) : Prop where
  group  : s.rgroup i = some g
  work   : s.reducing = true
  empty  : BuffersEmpty s
  fresh  : i ∉ s.redn.agreed
  absent : ∀ a ∈ s.redn.agreeing, a.group ≠ i

/-- The state in which a group's local vector stands as the agreed bytes. -/
def State.agreesLocally (s : State) (g : RGroup) : State := s.devWrite (g.agree + g.buckets) (s.devRead g.agree g.buckets)

/-- The state in which a group's agreement is in progress on its first axis. -/
def State.agreementOpen (s : State) (i : Nat) (g : RGroup) : State :=
  (s.agreesLocally g).setRedn { s.redn with agreeing := s.redn.agreeing ++ [⟨i, 0, []⟩] }

/-- The state in which a group's agreement has begun: the vector is sent where axis A has other modules. -/
def State.agreementBegun (s : State) (i : Nat) (g : RGroup) : State :=
  State.agreeOn i g 4 (if 2 ≤ (s.agreementOpen i g).runLen 0 then (s.agreementOpen i g).sendVector i g 0 else s.agreementOpen i g)

section
variable (s : State) (i : Nat) (g : RGroup)

theorem reductionWork_agreementBegun : ReductionWork (s.agreesLocally g) (s.agreementBegun i g) :=
  ((ReductionWork.setRedn _ _).trans (.ite (reductionWork_sendVector i g 0 _) (.refl _))).trans (reductionWork_agreeOn i g 4 _)

/-- The local vector stands as the agreed bytes. -/
theorem devRead_agreementBegun : (s.agreementBegun i g).devRead (g.agree + g.buckets) g.buckets = s.devRead g.agree g.buckets :=
  ((reductionWork_agreementBegun s i g).reads (State.devRead · (g.agree + g.buckets) g.buckets) fun _ _ _ => rfl).trans
    (devRead_devWrite_of_length s _ _ (length_devRead _ _ _))

theorem inAgreement_agreementBegun : InAgreement i (s.agreementBegun i g) := by
  refine inAgreement_agreeOn i g 4 (.inr ⟨⟨i, 0, []⟩, ?_, rfl⟩)
  split
  · rw [redn_sendVector]
    exact List.mem_append_right _ List.mem_cons_self
  · exact List.mem_append_right _ List.mem_cons_self

variable {s i g}

theorem buffersEmpty_agreementBegun (he : BuffersEmpty s) : BuffersEmpty (s.agreementBegun i g) :=
  (reductionWork_agreementBegun s i g).sends.buffersEmpty
    (buffersEmpty_of_link (devWrite_congr s _ _ State.link) he)

/-- A module alone on every axis agrees with itself. -/
theorem agreed_agreementBegun (hlen : ∀ a, a < 4 → s.runLen a = 1) (hax : g.axisList ≠ []) (habsent : ∀ a ∈ s.redn.agreeing, a.group ≠ i) :
    (s.agreementBegun i g).redn.agreed = s.redn.agreed ++ [i] := by
  have hlen' : ∀ a, (s.agreementOpen i g).runLen a = s.runLen a := fun a => devWrite_congr s _ _ (State.runLen · a)
  have hfind : (s.agreementOpen i g).redn.agreeing.find? (fun a => decide (a.group = i)) = some ⟨i, 0, []⟩ := by
    show List.find? _ (s.redn.agreeing ++ _) = _
    rw [List.find?_append, List.find?_eq_none.2 (by simpa using habsent)]
    simp
  rw [State.agreementBegun, if_neg (by rw [hlen', hlen 0 (by decide)]; decide)]
  exact agreeOn_alone i g 4 (fun a ha => (hlen' a).trans (hlen a ha)) hfind (List.length_pos_iff.2 hax)
    (Nat.le_trans (length_axisList_le g) (by decide))

section
variable (h : AgreementDue s i g) {ue : Option Nat}
include h

theorem AgreementDue.conditions : s.reducing ∧ ¬ s.redn.agreed.contains i ∧ ¬ s.redn.agreeing.any (fun a => decide (a.group = i)) :=
  ⟨h.work, by simpa using h.fresh, by simpa using h.absent⟩

theorem exponentAgreement_ue {a : Nat} (hu : ueIn ue [(g.agree, g.buckets)] = some a) : Completes (.exponentAgreement i ue) s (s.stackUe a) := by
  show execExponentAgreement i ue s = _
  unfold execExponentAgreement
  rw [h.group]
  dsimp only
  rw [if_pos h.conditions, hu]

theorem exponentAgreement_next (hu : ueIn ue [(g.agree, g.buckets)] = none) : Completes (.exponentAgreement i ue) s (s.agreementBegun i g) := by
  show execExponentAgreement i ue s = _
  unfold execExponentAgreement
  rw [h.group]
  dsimp only
  rw [if_pos h.conditions, hu]
  dsimp only
  rw [redn_devWrite, ← State.agreesLocally, ← State.agreementOpen, ← State.agreementBegun, drainRed_of_empty (buffersEmpty_agreementBegun h.empty)]

end

end

/-! ## CHAIN_START (R303, R304) -/

/-- A search that accepts the head of a list finds it, at index 0. -/
theorem find?_zipIdx_head {l : List Nat} {x : Nat} (h : l.head? = some x) {p : Nat × Nat → Bool} (hp : p (x, 0) = true) :
    l.zipIdx.find? p = some (x, 0) := by
  cases l with
  | nil => cases h
  | cons y ys =>
    cases h
    exact List.find?_cons_of_pos hp

/-- The chain of a chunk on axis A, the first of its group, is due in a module that has its own values and whose receive buffers are empty: it is
alone on the axis, or begins the chain. -/
structure ChainDue (s : State) (i : Nat) (g : RGroup) (b h c : Nat) : Prop where
  group  : s.rgroup i = some g
  work   : s.reducing = true
  empty  : BuffersEmpty s
  bucket : b < g.buckets
  chunk  : c < 171
  first  : g.axisList.head? = some 0
  undone : (0, i, b, 256 * h + c) ∉ s.redn.chains
  fresh  : (0, i, b, 256 * h + c) ∉ s.redn.begun
  place  : s.runLen 0 = 1 ∨ s.chainPlace 0 (s.bucketOwner g 0 b) h = 0

/-- A module's own values for a chunk. -/
def State.ownValues (s : State) (g : RGroup) (b h c : Nat) : List W32 := (List.range (chunkElems c)).map (fun e => s.qValue g b (8192 * h + 48 * c + e))

theorem contribution_ownValues {s : State} {i : Nat} (h : i ∈ s.redn.agreed) (g : RGroup) (b hf c : Nat) :
    s.contribution i g 0 b hf c = some (s.ownValues g b hf c) := by
  unfold State.contribution
  rw [if_neg (by simpa using h)]
  rfl

/-- The state in which the first flit of a chain waits on its port. -/
def State.chainBegun (s : State) (i : Nat) (g : RGroup) (b h c : Nat) (q : List W32) : State :=
  let t := s.phase1.startRed (s.chunkPort 0 h c) 3 g.vc (reducePayload i b c h 0 q)
  (t.setRedn { t.redn with begun := t.redn.begun ++ [(0, i, b, 256 * h + c)] }).markChain i b h c 0

theorem chainBegun_spec (s : State) (i : Nat) (g : RGroup) (b h c : Nat) (q : List W32) :
    (0, i, b, 256 * h + c) ∈ (s.chainBegun i g b h c q).redn.chains ∧ (0, i, b, 256 * h + c) ∈ (s.chainBegun i g b h c q).redn.begun ∧
      (s.chainBegun i g b h c q).mem = s.mem ∧
      tget [] ((s.chainBegun i g b h c q).port (s.chunkPort 0 h c)).startq g.vc =
        tget [] (s.port (s.chunkPort 0 h c)).startq g.vc ++ [mkFlit 3 g.vc (reducePayload i b c h 0 q)] := by
  obtain ⟨d, hphase⟩ := phase1_eq s
  have hwaits := startq_startRed_same s.phase1 (s.chunkPort 0 h c) 3 g.vc (reducePayload i b c h 0 q)
  rw [State.chainBegun]
  rw [hphase] at hwaits ⊢
  exact ⟨List.mem_append_right _ List.mem_cons_self, List.mem_append_right _ List.mem_cons_self, rfl, hwaits⟩

section
variable {s : State} {i : Nat} {g : RGroup} {b h c : Nat} {q : List W32} (hs : ChainDue s i g b h c) (hq : s.contribution i g 0 b h c = some q)
include hs hq

/-- What CHAIN_START does with the module's own values. -/
theorem chainStart_due (ue : Option Nat) : exec (.chainStart i b h c ue) s = .next (
    match ueIn ue (s.chunkReads g b h c) with
    | some a => s.stackUe a
    | none =>
      if s.runLen 0 = 1 then (s.sumsChunk i b h c 0 q).drainRed
      else if s.twoCredits (s.chunkPort 0 h c) g.vc then s.chainBegun i g b h c q
      else s) := by
  show execChainStart i b h c ue s = _
  unfold execChainStart
  rw [hs.group]
  dsimp only
  rw [if_neg (by simp [hs.work, hs.bucket, hs.chunk]), find?_zipIdx_head hs.first (by simp [hs.undone, hs.fresh, hs.place])]
  dsimp only
  rw [hq]
  dsimp only
  rw [if_pos rfl]
  cases ueIn ue (s.chunkReads g b h c) with
  | some a => rfl
  | none =>
    dsimp only
    rw [completeAxis_first, if_pos rfl, ← State.chainBegun]
    split
    · rfl
    · split <;> rfl

theorem chainStart_ue {ue : Option Nat} {a : Nat} (hu : ueIn ue (s.chunkReads g b h c) = some a) :
    Completes (.chainStart i b h c ue) s (s.stackUe a) := by
  rw [Completes, chainStart_due hs hq, hu]

/-- A module alone on the axis owns the sums. -/
theorem chainStart_alone (hlen : s.runLen 0 = 1) : Completes (.chainStart i b h c none) s (s.sumsChunk i b h c 0 q) := by
  obtain ⟨-, -, hlink, -, -⟩ := sumsChunk_spec s i b h c 0 q
  have hnone : ueIn none (s.chunkReads g b h c) = none := rfl
  rw [Completes, chainStart_due hs hq, hnone]
  dsimp only
  rw [if_pos hlen, drainRed_of_empty (buffersEmpty_of_link hlink hs.empty)]

theorem chainStart_first (hlen : s.runLen 0 ≠ 1) (hcredits : s.twoCredits (s.chunkPort 0 h c) g.vc = true) :
    Completes (.chainStart i b h c none) s (s.chainBegun i g b h c q) := by
  have hnone : ueIn none (s.chunkReads g b h c) = none := rfl
  rw [Completes, chainStart_due hs hq, hnone]
  dsimp only
  rw [if_neg hlen, if_pos hcredits]

end

/-! ## GATHER_START (R306) -/

/-- Flits of one type and virtual channel, each with its port and payload, that wait for two free credits in the order given. -/
def State.startAll (s : State) (type vc : Nat) (fs : List (Nat × List Byte)) : State := forEach fs s (fun s x => s.startRed x.1 type vc x.2)

section
variable (type vc : Nat)

theorem reductionWork_startAll (s : State) (fs : List (Nat × List Byte)) : ReductionWork s (s.startAll type vc fs) :=
  .forEach fs (fun u _ => .startRed u _ _ _ _) s

theorem redn_startAll (s : State) (fs : List (Nat × List Byte)) : (s.startAll type vc fs).redn = s.redn :=
  forEach_keeps (fun u => u.redn = s.redn) _ fs (fun u _ _ h => (redn_startRed u _ _ _ _).trans h) s rfl

/-- Each port has its own of them behind those that wait there. -/
theorem startq_startAll (q : Nat) (fs : List (Nat × List Byte)) : ∀ s : State, tget [] ((s.startAll type vc fs).port q).startq vc =
    tget [] (s.port q).startq vc ++ (fs.filter (fun x => decide (x.1 = q))).map (fun x => mkFlit type vc x.2) := by
  induction fs with
  | nil => exact fun s => (List.append_nil _).symm
  | cons x xs ih =>
    intro s
    show tget [] (((s.startRed x.1 type vc x.2).startAll type vc xs).port q).startq vc = _
    rw [ih]
    by_cases hq : x.1 = q
    · rw [← hq, startq_startRed_same, List.filter_cons_of_pos (by simp), List.map_cons, List.append_assoc]
      rfl
    · rw [startq_startRed_other s type vc x.2 (Ne.symm hq), List.filter_cons_of_neg (by simpa using hq)]

/-- Flits whose port and payload the reduction's own work leaves may be read at once. -/
theorem forEach_startRed {α : Type} {s : State} {read : State → α → Nat × List Byte} (hread : ∀ t, ReductionWork s t → read t = read s)
    (xs : List α) : ∀ {t : State}, ReductionWork s t →
    forEach xs t (fun t x => t.startRed (read t x).1 type vc (read t x).2) = t.startAll type vc (xs.map (read s)) := by
  induction xs with
  | nil => exact fun _ => rfl
  | cons x xs ih =>
    intro t ht
    rw [forEach_cons, hread t ht, ih (ht.trans (.startRed t _ _ _ _))]
    rfl

end

/-- A bucket's committed weights are due to be gathered from this module, their owner. -/
structure GatherDue (s : State) (i : Nat) (g : RGroup) (b : Nat) : Prop where
  group     : s.rgroup i = some g
  work      : s.reducing = true
  bucket    : b < g.buckets
  owner     : s.ownsBucket g b = true
  length    : 2 ≤ s.runLen 0
  fresh     : (i, b) ∉ s.redn.gathered
  started   : s.upd.started = true
  step      : s.commitNat 0 1 = 1
  committed : s.bucketCommitted i b = true

/-- The payload of a WEIGHT flit. -/
def State.weightPayload (s : State) (i : Nat) (g : RGroup) (b h c : Nat) : List Byte :=
  redHeader i b c h (weightElems c) ++ s.devRead (g.wimage + 32768 * b + 2 * (8192 * h + 112 * c)) (2 * weightElems c)

/-- A chunk's WEIGHT flit, with its port. -/
def State.weightOut (s : State) (i : Nat) (g : RGroup) (b h c : Nat) : Nat × List Byte := (s.chunkPort 0 h c, s.weightPayload i g b h c)

/-- The state in which the WEIGHT flits of both halves of a bucket wait. -/
def State.gathers (s : State) (i : Nat) (g : RGroup) (b : Nat) : State :=
  ((s.setRedn { s.redn with gathered := s.redn.gathered ++ [(i, b)] }).startAll 5 g.vc ((List.range 74).map (s.weightOut i g b 0))).startAll 5 g.vc
    ((List.range 74).map (s.weightOut i g b 1))

section
variable {s : State} {i : Nat} {g : RGroup} {b : Nat}

theorem weightOut_of_work {t : State} (ht : ReductionWork s t) (h : Nat) : t.weightOut i g b h = s.weightOut i g b h :=
  ht.reads (State.weightOut · i g b h) fun _ _ _ => rfl

theorem reductionWork_gathers : ReductionWork s (s.gathers i g b) :=
  ((ReductionWork.setRedn s _).trans (reductionWork_startAll 5 g.vc _ _)).trans (reductionWork_startAll 5 g.vc _ _)

theorem redn_gathers : (s.gathers i g b).redn = { s.redn with gathered := s.redn.gathered ++ [(i, b)] } :=
  (redn_startAll 5 g.vc _ _).trans (redn_startAll 5 g.vc _ _)

/-- The flits of a half that leave by a port. -/
theorem filter_weightOut (h q : Nat) :
    (((List.range 74).map (s.weightOut i g b h)).filter (fun x => decide (x.1 = q))).map (fun x => mkFlit 5 g.vc x.2) =
      ((List.range 74).filter (fun c => decide (s.chunkPort 0 h c = q))).map (fun c => mkFlit 5 g.vc (s.weightPayload i g b h c)) := by
  rw [List.filter_map, List.map_map]
  rfl

theorem startq_gathers (q : Nat) : tget [] ((s.gathers i g b).port q).startq g.vc = tget [] (s.port q).startq g.vc ++
    [0, 1].flatMap (fun h => ((List.range 74).filter (fun c => decide (s.chunkPort 0 h c = q))).map
      (fun c => mkFlit 5 g.vc (s.weightPayload i g b h c))) := by
  rw [State.gathers, startq_startAll, startq_startAll, filter_weightOut, filter_weightOut, List.append_assoc, List.flatMap_cons, List.flatMap_cons,
    List.flatMap_nil, List.append_nil]
  rfl

variable (h : GatherDue s i g b) {ue : Option Nat}
include h

theorem GatherDue.conditions : s.reducing ∧ b < g.buckets ∧ s.ownsBucket g b ∧ 2 ≤ s.runLen 0 ∧ ¬ s.redn.gathered.contains (i, b) ∧
    s.upd.started ∧ (s.commitNat 0 1 = 1 ∨ s.upd.finished = 1) ∧ s.bucketCommitted i b :=
  ⟨h.work, h.bucket, h.owner, h.length, by simpa using h.fresh, h.started, .inl h.step, h.committed⟩

theorem gatherStart_ue {a : Nat} (hu : ueIn ue [(g.wimage + 32768 * b, 32768)] = some a) : Completes (.gatherStart i b ue) s (s.stackUe a) := by
  show execGatherStart i b ue s = _
  unfold execGatherStart
  rw [h.group]
  dsimp only
  rw [if_pos h.conditions, hu]

theorem gatherStart_next (hu : ueIn ue [(g.wimage + 32768 * b, 32768)] = none) : Completes (.gatherStart i b ue) s (s.gathers i g b) := by
  have half : ∀ hf {t : State}, ReductionWork s t → forEach (List.range 74) t (fun t c =>
      t.startRed (t.weightOut i g b hf c).1 5 g.vc (t.weightOut i g b hf c).2) = t.startAll 5 g.vc ((List.range 74).map (s.weightOut i g b hf)) :=
    fun hf _ ht => forEach_startRed 5 g.vc (read := fun t => t.weightOut i g b hf) (fun _ hw => weightOut_of_work hw hf) _ ht
  have hopen := ReductionWork.setRedn s { s.redn with gathered := s.redn.gathered ++ [(i, b)] }
  show execGatherStart i b ue s = _
  unfold execGatherStart
  rw [h.group]
  dsimp only
  rw [if_pos h.conditions, hu]
  dsimp only
  rw [State.gathers, ← half 0 hopen, ← half 1 (by rw [half 0 hopen]; exact hopen.trans (reductionWork_startAll 5 g.vc _ _))]
  simp only [forEach_cons, forEach_nil, State.weightOut, State.weightPayload]

end

end Sys2Proof.Machine
end

section
/-! The statement of what begins the reduction: scans, the machine barrier, agreement, chains and gathers (09 R291, R293, R294, R303, R305, R306,
R308, R309; 15 R433). -/

namespace Sys2Proof.Proofs

open Sys2Proof.Machine

/-- Settles O56, clause by clause: what each command makes of a state where it is due. The barrier of a machine of one module goes over
every axis at its report (`barrierOn_alone`), and its agreement over every axis of the group (`agreeOn_alone`). -/
theorem reductionBegins : Obligations.ReductionBegins := by
  refine fun s => ⟨?scan, fun hrun hidle hinc => ⟨?reported, ?alone⟩, ?timeout, fun i g hgroup hwork hempty => ⟨?agreement, ?chain, ?gather⟩⟩
  case scan =>
    intro i g b hgroup hrun hcwpt hstep hidle hb hnew hready
    have hdue : ScanDue s i b g := ⟨hgroup, hrun, hcwpt, hstep, hidle, hb, hnew, hready⟩
    refine ⟨fun ue a hue => ⟨_, gradientScan_ue hdue hue, (raisedS_stackUe s a).records⟩, fun ue hue => ?_⟩
    obtain ⟨hbyte, hframe⟩ := scans_spec s i b g (s.localExponent g b)
    exact ⟨_, gradientScan_next hdue hue, hbyte, rfl, hframe⟩
  case reported =>
    intro hrep haxis
    have hstay : s.report.barrierOn 5 = s := by rw [report_of_reported hrep, barrierOn_of_done haxis.ge]
    obtain ⟨hcomplete, -, hlink, htiles, hagreed, hmem⟩ := barrierCompleted_completesBarrier s
    exact ⟨_, machineBarrierComplete_next hstay ⟨hrun, hidle, hinc, hrep, haxis⟩, hcomplete, hlink, htiles, hagreed, hmem⟩
  case alone =>
    intro hfirst hready hlen htaps
    have hover : s.report.barrierOn 5 = s.reports.atAxis 4 := by
      rw [report_alone hrun hidle hfirst hready (hlen 0 (by decide)) htaps]
      exact barrierOn_alone 5 hlen (Nat.zero_le 4) (show 4 ≤ 0 + 5 by decide)
    obtain ⟨hcomplete, hrep, hlink, -, hagreed, -⟩ := barrierCompleted_completesBarrier (s.reports.atAxis 4)
    refine ⟨_, machineBarrierComplete_next hover ⟨hrun, hidle, hinc, rfl, rfl⟩, hrep, hcomplete, hlink, fun hcommit => ?_⟩
    obtain ⟨hflag, hset, -⟩ := hagreed hcommit
    refine ⟨hflag.trans ?_, hset⟩
    show (s.redn.barrier.nf || (s.cwptNext && s.commitStep && s.nonfinBit)) = _
    rw [hcommit, Bool.true_and]
  case timeout =>
    intro p hrun hmulti hrep hinc hdue hidle _
    exact ⟨_, barrierTimeout_next p hrun hmulti hrep hinc hdue hidle, event_linkFault_stops p _ _ _ _ _ rfl hrun hidle⟩
  case agreement =>
    intro hfresh habsent
    have hdue : AgreementDue s i g := ⟨hgroup, hwork, hempty, hfresh, habsent⟩
    exact ⟨fun ue a hue => ⟨_, exponentAgreement_ue hdue hue, (raisedS_stackUe s a).records⟩, fun ue hue =>
      ⟨_, exponentAgreement_next hdue hue, devRead_agreementBegun s i g, inAgreement_agreementBegun s i g,
        fun hlen hax => agreed_agreementBegun hlen hax habsent⟩⟩
  case chain =>
    intro b h c hb hc hax hagreed hundone hfresh
    have hdue : s.runLen 0 = 1 ∨ s.chainPlace 0 (s.bucketOwner g 0 b) h = 0 → ChainDue s i g b h c :=
      fun hplace => ⟨hgroup, hwork, hempty, hb, hc, hax, hundone, hfresh, hplace⟩
    have hown := contribution_ownValues hagreed g b h c
    refine ⟨fun ue a q hq hplace hue => ?_, fun hlen => ?_, fun hlen hplace hcredits => ?_⟩
    · exact ⟨_, chainStart_ue (hdue hplace) hq hue, (raisedS_stackUe s a).records⟩
    · obtain ⟨hsums, hchain, hlink, hmem, -⟩ := sumsChunk_spec s i b h c 0 (s.ownValues g b h c)
      exact ⟨_, chainStart_alone (hdue (.inl hlen)) hown hlen, hsums, hchain, hlink, hmem⟩
    · exact ⟨_, chainStart_first (hdue (.inr hplace)) hown hlen hcredits, chainBegun_spec s i g b h c _⟩
  case gather =>
    intro b hb howner hlen hfresh hstarted hstep hcommitted
    have hdue : GatherDue s i g b := ⟨hgroup, hwork, hb, howner, hlen, hfresh, hstarted, hstep, hcommitted⟩
    exact ⟨fun ue a hue => ⟨_, gatherStart_ue hdue hue, (raisedS_stackUe s a).records⟩, fun ue hue =>
      ⟨_, gatherStart_next hdue hue, redn_gathers, reductionWork_gathers.frame, startq_gathers⟩⟩

end Sys2Proof.Proofs
end

section
/-! SUPPORT. What the operations of a port make of it (10 R318, R320, R331; 11 R353): each reaches one port, at most the host interface beside
it, and leaves a port that is written out. -/

namespace Sys2Proof.Machine

/-! ## Work that leaves a port as given -/

/-- Nothing differs but one port, which is `x` then, and the host interface. -/
structure PutsPort (p : Nat) (x : Port) (s u : State) : Prop where
  only : OnlyPortAndHost p s u
  port : u.port p = x

namespace PutsPort

variable {p : Nat} {x : Port} {s u v : State}

theorem refl (p : Nat) (s : State) : PutsPort p (s.port p) s s := ⟨.refl p s, rfl⟩

theorem trans {y : Port} (h : PutsPort p x s u) (k : PutsPort p y u v) : PutsPort p y s v := ⟨h.only.trans k.only, k.port⟩

theorem withHost (h : PutsPort p x s u) (hi : HostIf) : PutsPort p x s (u.withHost hi) := ⟨h.only.withHost hi, h.port⟩

theorem setPort (h : PutsPort p x s u) (y : Port) : PutsPort p y s (u.setPort p y) :=
  ⟨h.only.trans (onlyPortAndHost_modPort u p fun _ => y), State.port_setPort_same u p y⟩

theorem modPort (h : PutsPort p x s u) (f : Port → Port) : PutsPort p (f x) s (u.modPort p f) := by
  rw [← h.port]
  exact h.setPort _

/-- All but the links and the host interface is as it was. -/
theorem frame (h : PutsPort p x s u) : { u with link := s.link, hi := s.hi } = s := congrArg (fun v : State => { v with link := s.link }) h.only.1

theorem others (h : PutsPort p x s u) : ∀ q, q ≠ p → u.port q = s.port q := h.only.2

theorem reads (h : PutsPort p x s u) {α : Type} (f : State → α)
    (hf : ∀ (v : State) hi ports, f { v with hi := hi, link := { v.link with ports := ports } } = f v) : f u = f s := h.only.reads f hf

theorem tiles (h : PutsPort p x s u) : u.tiles = s.tiles := h.reads State.tiles fun _ _ _ => rfl
theorem chart (h : PutsPort p x s u) : u.chart = s.chart := h.reads State.chart fun _ _ _ => rfl
theorem now (h : PutsPort p x s u) : u.now = s.now := h.reads State.now fun _ _ _ => rfl
theorem obj (h : PutsPort p x s u) (i j : Nat) : u.obj i j = s.obj i j := h.reads (State.obj · i j) fun _ _ _ => rfl

end PutsPort

/-- A change of one port alone. -/
theorem onlyPort_modPort (s : State) (p : Nat) (f : Port → Port) : OnlyPort p s (s.modPort p f) := ⟨rfl, fun _ hq => port_modPort_other s f hq⟩

/-! ## States of a port -/

theorem putsPort_portTo {s : State} {p : Nat} {st : PortSt} (h : (s.port p).st ≠ st) :
    PutsPort p ((s.port p).enters st s.now) s (s.portTo p st) := by
  obtain ⟨hi, e⟩ := portTo_of_ne h
  rw [e]
  exact ((PutsPort.refl p s).modPort _).withHost hi

/-- A port put into a state differs at most in the state and its beginning. -/
theorem putsPort_portTo_any (s : State) (p : Nat) (st : PortSt) :
    ∃ t, PutsPort p { s.port p with st := st, since := t } s (s.portTo p st) := by
  by_cases h : (s.port p).st = st
  · refine ⟨(s.port p).since, ?_⟩
    rw [State.portTo, if_pos h, ← h]
    exact .refl p s
  · exact ⟨s.now, putsPort_portTo h⟩

/-- A port whose copies have ended: their flits are gone with them. -/
def Port.withoutCopies (x : Port) : Port :=
  { x with copies := [], sendq := tset [] x.sendq 7 [], retry := x.retry.filter (fun f => !isBulk f), resend := x.resend.filter (fun f => !isBulk f) }

/-- Commands that end one after another change the host interface alone. -/
theorem forEach_endCmd_eq {α : Type} (xs : List α) (seq code detail result : α → Nat) (s : State) :
    ∃ hi, forEach xs s (fun s c => s.endCmd (seq c) (code c) (detail c) (result c)) = s.withHost hi :=
  forEach_keeps (fun u => ∃ hi, u = s.withHost hi) _ xs (fun u c _ ⟨hi, e⟩ => by
    obtain ⟨hi', e'⟩ := endCmd_eq u (seq c) (code c) (detail c) (result c)
    exact ⟨hi', by rw [e', e]; rfl⟩) s ⟨s.hi, rfl⟩

theorem putsPort_dropCopies (s : State) (p : Nat) : PutsPort p (s.port p).withoutCopies s (s.dropCopies p) := by
  obtain ⟨hi, e⟩ := forEach_endCmd_eq (s.port p).copies (·.1) (fun _ => 0x10) (fun _ => p) (·.2.2) s
  unfold State.dropCopies
  rw [e]
  exact ((PutsPort.refl p s).withHost hi).modPort Port.withoutCopies

/-! ## Ports that go DOWN -/

/-- A port whose attempt has failed tries again after 1 s, and the attempt is counted under its code (10 R320). -/
structure FailsTraining (s : State) (p code : Nat) (u : State) : Prop where
  down  : (u.port p).st = .down
  retry : (u.port p).retryAt = some (s.now + 1000000000)
  code  : u.obj (0x5020 + p) 4 = code
  count : u.obj (0x5020 + p) 0xA = satAdd 32 (s.obj (0x5020 + p) 0xA) 1
  tiles : u.tiles = s.tiles
  chart : u.chart = s.chart

theorem failsTraining_trainFail (s : State) (p code : Nat) : FailsTraining s p code (s.trainFail p code) := by
  have hdrop := putsPort_dropCopies s p
  obtain ⟨t, hdown⟩ := putsPort_portTo_any (s.dropCopies p) p .down
  have hto := hdrop.trans hdown
  unfold State.trainFail
  dsimp only
  have hput := hto.modPort (fun x => { x.fallen with retryAt := some (((s.dropCopies p).portTo p .down).now + 1000000000) })
  rw [hto.now] at hput ⊢
  generalize ((s.dropCopies p).portTo p .down).modPort p (fun x => { x.fallen with retryAt := some (s.now + 1000000000) }) = v at hput ⊢
  obtain ⟨log, hevent⟩ := event_eq ((v.setObj (0x5020 + p) 4 code).bump (0x5020 + p) 0xA 32 1) (srcLink p) 0x5B03 (leBytes 1 p ++ leBytes 1 code)
  have hport : ((v.setObj (0x5020 + p) 4 code).bump (0x5020 + p) 0xA 32 1).port p = v.port p := rfl
  rw [hevent]
  refine ⟨?_, ?_, ?_, ?_, hput.tiles, hput.chart⟩
  · exact (congrArg Port.st (hport.trans hput.port)).trans rfl
  · exact (congrArg Port.retryAt (hport.trans hput.port)).trans rfl
  · show ((v.setObj (0x5020 + p) 4 code).bump (0x5020 + p) 0xA 32 1).obj (0x5020 + p) 4 = code
    rw [obj_bump_other _ 32 1 (by unfold okey; omega), State.obj_setObj_same]
  · show ((v.setObj (0x5020 + p) 4 code).bump (0x5020 + p) 0xA 32 1).obj (0x5020 + p) 0xA = _
    rw [obj_bump_same, State.obj_setObj_other _ _ (by unfold okey; omega), hput.obj]

/-- What of a port the loss of its link settles: state, next attempt and copies. -/
def Port.standing (x : Port) : PortSt × Option Nat × List (Nat × Nat × Nat) := (x.st, x.retryAt, x.copies)

/-- A port that goes DOWN trains afresh with no copy; beside it only the host interface and the Logbook differ (10 R331). -/
theorem portDown_spec (s : State) (p cause : Nat) :
    { s.portDown p cause with hi := s.hi, log := s.log, link := { (s.portDown p cause).link with ports := s.link.ports } } = s ∧
      ((s.portDown p cause).port p).standing = (.down, none, []) ∧ ∀ q, q ≠ p → (s.portDown p cause).port q = s.port q := by
  obtain ⟨t, hdown⟩ := putsPort_portTo_any s p .down
  unfold State.portDown
  dsimp only
  obtain ⟨log, hevent⟩ := event_eq (s.portTo p .down) (srcLink p) 0x5B01
    (leBytes 1 p ++ leBytes 1 (portStNum (s.port p).st) ++ [Config.eventField 0x5B01 cause])
  rw [hevent]
  generalize s.portTo p .down = v at hdown ⊢
  have hput := (putsPort_dropCopies { v with log := log } p).modPort (fun x => { x.fallen with retryAt := none, again := false })
  generalize (State.dropCopies { v with log := log } p).modPort p (fun x => { x.fallen with retryAt := none, again := false }) = u at hput ⊢
  have hframe : { u with hi := v.hi, link := { u.link with ports := v.link.ports } } = { v with log := log } := hput.only.1
  refine ⟨?_, ?_, fun q hq => (hput.others q hq).trans (hdown.others q hq)⟩
  · exact (congrArg (fun w : State => { w with hi := s.hi, log := s.log, link := { w.link with ports := s.link.ports } }) hframe).trans
      (congrArg (fun w : State => { w with log := s.log }) hdown.only.1)
  · rw [hput.port]
    show ((v.port p).st, none, []) = _
    rw [hdown.port]

/-! ## What a header brings (10 R318, R323, R328) -/

/-- A port that has taken the news of a header: what is acknowledged, what is asked for again, and credits. -/
def Port.hearsHeader (x : Port) (f : Flit) : Port :=
  let acked := x.retry.filter (fun g => decide (1 ≤ seqDiff f.ack g.seq ∧ seqDiff f.ack g.seq ≤ 2048))
  let keep := x.retry.filter (fun g => !(decide (1 ≤ seqDiff f.ack g.seq ∧ seqDiff f.ack g.seq ≤ 2048)))
  { x with
    retry := keep, resend := (if f.nak then keep else x.resend.filter (fun g => keep.contains g)),
    credits := tmod 0 x.credits f.cvc (· + seqDiff f.cfree (tget 0 x.seenFree f.cvc)), seenFree := tset 0 x.seenFree f.cvc f.cfree,
    copies := ackCopies acked x.copies }

/-- A port whose copies have ended where their every flit is acknowledged. -/
def Port.copiesEnded (x : Port) : Port := { x with copies := x.copies.filter (fun c => decide (c.2.1 ≠ 0)) }

/-- A port that expects the next SEQ. -/
def Port.nextSeq (x : Port) : Port := { x with rxSeq := (x.rxSeq + 1) % 4096, nakFor := none, nakRun := 0, resFor := none }

/-- A port that has taken a flit of the expected SEQ. -/
def Port.takesFlit (x : Port) (f : Flit) : Port := (x.hearsHeader f).copiesEnded.nextSeq

theorem putsPort_endCopies (s : State) (p : Nat) : PutsPort p (s.port p).copiesEnded s (s.endCopies p) := by
  obtain ⟨hi, e⟩ := forEach_endCmd_eq ((s.port p).copies.filter (fun c : Nat × Nat × Nat => decide (c.2.1 = 0))) (·.1) (fun _ => 0) (fun _ => 0)
    (·.2.2) s
  unfold State.endCopies
  dsimp only
  rw [e]
  exact ((PutsPort.refl p s).withHost hi).modPort Port.copiesEnded

theorem putsPort_rxHeader (s : State) (p : Nat) (f : Flit) : PutsPort p ((s.port p).hearsHeader f).copiesEnded s (s.rxHeader p f) := by
  have hset := (PutsPort.refl p s).setPort ((s.port p).hearsHeader f)
  rw [← hset.port]
  exact hset.trans (putsPort_endCopies _ p)

theorem putsPort_received (s : State) (p : Nat) (f : Flit) : PutsPort p ((s.port p).takesFlit f) s (s.received p f) :=
  (putsPort_rxHeader s p f).modPort Port.nextSeq

end Sys2Proof.Machine
end

section
/-! SUPPORT. What a fault of class R of a unit outside the regions leaves alone: all but fabric, records, doors, resets and the flits that wait to
be sent (15 R433, R439, R441, R445, R455); and how long its record stands among the newest 256 (15 R435). -/

namespace Sys2Proof.Machine

/-! ## The frame -/

/-- Nothing differs but what faults and ports that fall reach: tiles, host interface, dictionary, Logbook, recovery and the ports themselves. -/
def FaultFrame (s u : State) : Prop :=
  { u with freeCount := s.freeCount, tiles := s.tiles, hi := s.hi, dict := s.dict, log := s.log, rcv := s.rcv,
           link := { u.link with ports := s.link.ports } } = s

namespace FaultFrame

variable {s u v : State}

theorem refl (s : State) : FaultFrame s s := rfl

theorem trans (h : FaultFrame s u) (k : FaultFrame u v) : FaultFrame s v := by
  unfold FaultFrame at h k ⊢
  exact (congrArg (fun x : State => { x with
    freeCount := s.freeCount, tiles := s.tiles, hi := s.hi, dict := s.dict, log := s.log, rcv := s.rcv,
    link := { x.link with ports := s.link.ports } }) k).trans h

/-- The same where the recovery stands otherwise before and after. -/
theorem withRcv (h : FaultFrame s u) (r r' : Recovery) : FaultFrame { s with rcv := r } { u with rcv := r' } := by
  unfold FaultFrame at h ⊢
  exact congrArg (fun x : State => { x with rcv := r }) h

/-- A function that reads nothing of what may differ has the same value. -/
theorem reads (h : FaultFrame s u) {α : Type} (f : State → α) (hf : ∀ (v : State) freeCount tiles hi dict log rcv ports,
    f { v with freeCount := freeCount, tiles := tiles, hi := hi, dict := dict, log := log, rcv := rcv, link := { v.link with ports := ports } } = f v) :
    f u = f s :=
  (hf u s.freeCount s.tiles s.hi s.dict s.log s.rcv s.link.ports).symm.trans (congrArg f h)

theorem forEach {α : Type} {f : State → α → State} (xs : List α) (h : ∀ s x, FaultFrame s (f s x)) (s : State) :
    FaultFrame s (Machine.forEach xs s f) :=
  forEach_keeps (FaultFrame s) f xs (fun u x _ k => k.trans (h u x)) s (refl s)

theorem now (h : FaultFrame s u) : u.now = s.now := h.reads State.now fun _ _ _ _ _ _ _ _ => rfl
theorem chart (h : FaultFrame s u) : u.chart = s.chart := h.reads State.chart fun _ _ _ _ _ _ _ _ => rfl
theorem mem (h : FaultFrame s u) : u.mem = s.mem := h.reads State.mem fun _ _ _ _ _ _ _ _ => rfl
theorem hostMem (h : FaultFrame s u) : u.hostMem = s.hostMem := h.reads State.hostMem fun _ _ _ _ _ _ _ _ => rfl
theorem refclk (h : FaultFrame s u) : u.link.refclk = s.link.refclk := h.reads (·.link.refclk) fun _ _ _ _ _ _ _ _ => rfl

end FaultFrame

/-- What a fault's handling does short of a replay: within its frame the ports get flits to send, and a replay in hand goes on. -/
structure FaultWork (s u : State) : Prop where
  frame  : FaultFrame s u
  sends  : OnlySends s u
  phase  : u.rcv.phase = s.rcv.phase
  resume : u.rcv.resumeWpt = s.rcv.resumeWpt

namespace FaultWork

variable {s u v : State}

theorem refl (s : State) : FaultWork s s := ⟨rfl, fun _ => rfl, rfl, rfl⟩

theorem trans (h : FaultWork s u) (k : FaultWork u v) : FaultWork s v :=
  ⟨h.frame.trans k.frame, h.sends.trans k.sends, k.phase.trans h.phase, k.resume.trans h.resume⟩

theorem forEach {α : Type} {f : State → α → State} (xs : List α) (h : ∀ s x, FaultWork s (f s x)) (s : State) :
    FaultWork s (Machine.forEach xs s f) :=
  forEach_keeps (FaultWork s) f xs (fun u x _ k => k.trans (h u x)) s (refl s)

/-- The same work where the recovery stands otherwise before and after it. -/
theorem withRcv (h : FaultWork s u) {r r' : Recovery} (hp : r'.phase = r.phase) (hr : r'.resumeWpt = r.resumeWpt) :
    FaultWork { s with rcv := r } { u with rcv := r' } := ⟨h.frame.withRcv r r', h.sends, hp, hr⟩

theorem rcv (h : FaultWork s u) (r : Recovery) (hp : r.phase = u.rcv.phase) (hr : r.resumeWpt = u.rcv.resumeWpt) :
    FaultWork s { u with rcv := r } := ⟨h.frame, h.sends, hp.trans h.phase, hr.trans h.resume⟩

end FaultWork

section
variable (s : State)

theorem faultWork_setObj (i j v : Nat) : FaultWork s (s.setObj i j v) := ⟨rfl, fun _ => rfl, rfl, rfl⟩
theorem faultWork_bump (i j b k : Nat) : FaultWork s (s.bump i j b k) := faultWork_setObj s _ _ _

theorem faultWork_event (src code : Nat) (data : List Byte) : FaultWork s (s.event src code data) := by
  obtain ⟨log, e⟩ := event_eq s src code data
  rw [e]
  exact ⟨rfl, fun _ => rfl, rfl, rfl⟩

theorem faultWork_setCause (n : Nat) : FaultWork s (s.setCause n) := by
  obtain ⟨hi, e⟩ := setCause_eq s n
  rw [e]
  exact ⟨rfl, fun _ => rfl, rfl, rfl⟩

theorem faultWork_traceRec (src kind : Nat) (data : List Byte) : FaultWork s (s.traceRec src kind data) := by
  obtain ⟨traceq, shed, e⟩ := traceRec_eq s src kind data
  rw [e]
  exact ⟨rfl, fun _ => rfl, rfl, rfl⟩

theorem faultWork_queueFlit (p : Nat) (f : Flit) : FaultWork s (s.queueFlit p f) := ⟨rfl, .modPort s p fun _ => rfl, rfl, rfl⟩

/-! ## Doors, resets and records -/

theorem faultWork_stopTiles (d : DomKind × Nat) : FaultWork s (s.stopTiles d) := by
  have hsame : ∀ (u : State) tiles n, FaultWork u { u with tiles := tiles, freeCount := n } := fun _ _ _ => ⟨rfl, fun _ => rfl, rfl, rfl⟩
  unfold State.stopTiles
  split
  · split
    · exact (FaultWork.forEach (regionTiles _) (fun u t => hsame u _ u.freeCount) s).trans (hsame _ _ _)
    · exact .refl s
  · exact .refl s

theorem faultWork_closeDoors (ds : List (DomKind × Nat)) : FaultWork s (s.closeDoors ds) := by
  refine .forEach ds (fun s d => ?_) s
  split
  · exact .refl s
  · have habandon : FaultWork (s.stopTiles d) ((s.stopTiles d).abandon d) := ⟨rfl, fun _ => rfl, rfl, rfl⟩
    refine FaultWork.trans ?_ (faultWork_traceRec _ _ _ _)
    exact ((faultWork_stopTiles s d).trans habandon).rcv _ rfl rfl

theorem faultWork_issueResets (ds : List (DomKind × Nat)) : FaultWork s (s.issueResets ds) := by
  refine .forEach ds (fun s d => ?_) s
  split
  · exact .refl s
  · dsimp only
    have hissued := ((faultWork_traceRec s srcHelm trReset (leBytes 2 (domKey d.1 d.2))).trans (faultWork_bump _ 0x6401 (domLevel d.1) 32 1)).trans
      (faultWork_event _ srcHelm (0x6A03 + domLevel d.1) [])
    exact (hissued.trans (faultWork_closeDoors _ _)).rcv _ rfl rfl

theorem faultWork_recordFault (f : FaultIn) (cls outcome domain more : Nat) : FaultWork s (s.recordFault f cls outcome domain more) := by
  have hlost : ∀ c : Prop, ∀ _ : Decidable c, FaultWork s (if c then s.bump 0x6404 0 32 1 else s) := fun c _ => by
    split
    · exact faultWork_bump s _ _ _ _
    · exact .refl s
  unfold State.recordFault
  dsimp only
  refine ((FaultWork.trans ?_ (faultWork_setObj _ _ _ _)).trans (faultWork_setCause _ _)).trans (faultWork_event _ _ _ _)
  exact (hlost _ _).rcv _ rfl rfl

theorem faultWork_sendReplay (w : W64) : FaultWork s (s.sendReplay w) :=
  .forEach _ (fun u a => by
    split
    · exact .forEach _ (fun v p => faultWork_queueFlit v p _) u
    · exact .refl u) s

theorem faultWork_issueModule (cause : Nat) : FaultWork s (s.issueModule cause) := by
  have hwindow : FaultWork s (if s.rcv.resets.any (fun x => decide (x.kind = DomKind.module)) then s else s.enterWindow cause) := by
    split
    · exact .refl s
    · exact (FaultWork.refl s).rcv _ rfl rfl
  unfold State.issueModule
  dsimp only
  exact (hwindow.trans (faultWork_issueResets _ _)).trans ⟨rfl, fun _ => rfl, rfl, rfl⟩

theorem faultWork_holdForLinks (f : FaultIn) : FaultWork s (s.holdForLinks f) := by
  unfold State.holdForLinks
  split
  · exact (FaultWork.refl s).rcv _ rfl rfl
  · exact .refl s

/-! ## A replay begins -/

/-- The same work from a state in which a replay to the waypoint register has begun. -/
def ReplayWork (s u : State) : Prop :=
  ∃ r, FaultWork { s with rcv := r } u ∧ r.phase = .replaying ∧ r.resumeWpt = s.wp.reg

theorem replayWork_haltForReplay : ReplayWork s s.haltForReplay := by
  have hstep : FaultWork s (s.traceStep 1) := faultWork_traceRec s _ _ _
  have hreg : (s.traceStep 1).wp.reg = s.wp.reg := hstep.frame.reads (·.wp.reg) fun _ _ _ _ _ _ _ _ => rfl
  unfold State.haltForReplay
  dsimp only
  generalize s.traceStep 1 = a at hstep hreg ⊢
  have hbegun := hstep.withRcv
    (r := { a.rcv with phase := .replaying, resumeWpt := a.wp.reg, replays := a.replaysSoFar + 1, replayOf := a.wp.reg }) rfl rfl
  refine ⟨_, hbegun.trans ?_, rfl, hreg⟩
  generalize ({ a with rcv := _ } : State) = b
  have hclosed : FaultWork b ((b.closeDoors b.replayDomains).traceStep 2) := (faultWork_closeDoors b _).trans (faultWork_traceRec _ _ _ _)
  split
  · exact (hclosed.trans (faultWork_sendReplay _ _)).trans (faultWork_traceRec _ _ _ _)
  · exact hclosed

theorem ReplayWork.trans {s u v : State} (h : ReplayWork s u) (k : FaultWork u v) : ReplayWork s v := by
  obtain ⟨r, hr, hphase, hresume⟩ := h
  exact ⟨r, hr.trans k, hphase, hresume⟩

theorem replayWork_startReplay (own : DomKind × Nat) : ReplayWork s (s.startReplay own) := by
  have hhalt := replayWork_haltForReplay s
  unfold State.startReplay
  dsimp only
  split
  · exact ((hhalt.trans (faultWork_recordFault _ _ _ _ _ _)).trans (faultWork_traceRec _ _ _ _)).trans (faultWork_issueModule _ _)
  · exact (hhalt.trans (faultWork_traceRec _ _ _ _)).trans (faultWork_issueResets _ _)

end

/-! ## A fault of class R -/

/-- What comes of a fault of class R of a unit outside the regions: its record, and beside it the wait of a replay in hand for the links; in a RUN
a replay; without one a reset. -/
theorem raiseFault_classR_cases (s : State) {f : FaultIn} (hc : f.cls = clsR) (hr : f.region = none) :
    ∃ outcome domain more, let a := s.recordFault f clsR outcome domain more
      (s.rcv.phase ≠ .idle ∧ (s.raiseFault f = a ∨ s.raiseFault f = a.holdForLinks f)) ∨
        (s.running = true ∧ s.raiseFault f = (a.startReplay f.dom).holdForLinks f) ∨
        (s.running = false ∧ ∃ r, r.faults = (a.issueResets [f.dom]).rcv.faults ∧ s.raiseFault f = { a.issueResets [f.dom] with rcv := r }) := by
  have hcls : s.effClass f = clsR := (effClass_noRegion s f hr).trans hc
  have hstamp : s.stampR { f with cls := clsR } = s := by simp [State.stampR, hr]
  unfold State.raiseFault State.raiseAs
  rw [hcls, hstamp]
  dsimp only
  by_cases hopen : s.rcv.phase = .replaying ∨ (s.rcv.phase = .resetOnly ∧ s.rcv.incident ≠ 0)
  · have hidle : s.rcv.phase ≠ .idle := by
      rintro h
      rw [h] at hopen
      simp at hopen
    rw [if_pos hopen]
    unfold State.joinIncident
    dsimp only
    rw [if_neg (by decide), if_neg (by decide)]
    generalize (if clsR = clsS ∧ s.running then 1 else 0) = domain
    refine ⟨6, domain, 0, .inl ⟨hidle, ?_⟩⟩
    split
    · exact .inr rfl
    · exact .inl rfl
  · rw [if_neg hopen]
    by_cases hrun : s.running = true
    · rw [if_pos hrun]
      unfold State.openInRun
      dsimp only
      rw [if_neg (by decide), if_neg (by decide)]
      generalize (if s.limitHit then 4 else 0) = outcome
      generalize (if s.limitHit then 3 else 1) = domain
      exact ⟨outcome, domain, 1, .inr (.inl ⟨hrun, rfl⟩)⟩
    · rw [if_neg hrun]
      unfold State.openIdle
      rw [if_neg (by decide)]
      exact ⟨3, 1, 0, .inr (.inr ⟨by simpa using hrun, { ((s.recordFault f clsR 3 1).issueResets [f.dom]).rcv with phase := .resetOnly }, rfl, rfl⟩)⟩

/-- What a fault of class R leaves alone; in a RUN that replays for it, it begins the replay. -/
theorem faultWork_raiseFault (s : State) {f : FaultIn} (hc : f.cls = clsR) (hr : f.region = none) :
    ∃ r, FaultWork { s with rcv := r } (s.raiseFault f) ∧
      (s.rcv.phase = .idle → s.running = true → r.phase = .replaying ∧ r.resumeWpt = s.wp.reg) := by
  obtain ⟨o, d, m, h⟩ := raiseFault_classR_cases s hc hr
  have hrecord := faultWork_recordFault s f clsR o d m
  dsimp only at h
  generalize s.recordFault f clsR o d m = a at h hrecord
  obtain ⟨hphase, e | e⟩ | ⟨hrun, e⟩ | ⟨hrun, r, -, e⟩ := h <;> rw [e]
  · exact ⟨s.rcv, hrecord, fun hidle => absurd hidle hphase⟩
  · exact ⟨s.rcv, hrecord.trans (faultWork_holdForLinks a f), fun hidle => absurd hidle hphase⟩
  · obtain ⟨r, hr, hreplay, hresume⟩ := replayWork_startReplay a f.dom
    refine ⟨r, ((hrecord.withRcv rfl rfl).trans hr).trans (faultWork_holdForLinks _ f), fun _ _ => ⟨hreplay, hresume.trans ?_⟩⟩
    exact hrecord.frame.reads (·.wp.reg) fun _ _ _ _ _ _ _ _ => rfl
  · exact ⟨r, (hrecord.trans (faultWork_issueResets a [f.dom])).withRcv rfl rfl, fun _ h => by simp [hrun] at h⟩

/-! ## How long a record stands -/

/-- A fault record stands with at most `n` newer ones. -/
def StandsBefore (r : FaultRec) (n : Nat) (s : State) : Prop := ∃ older newer, s.rcv.faults = older ++ r :: newer ∧ newer.length ≤ n

namespace StandsBefore

variable {r : FaultRec} {n : Nat} {s u : State}

theorem mem (h : StandsBefore r n s) : r ∈ s.rcv.faults := by
  obtain ⟨older, newer, e, -⟩ := h
  rw [e]
  exact List.mem_append_right _ List.mem_cons_self

theorem mono {m : Nat} (h : StandsBefore r n s) (hm : n ≤ m) : StandsBefore r m s := by
  obtain ⟨older, newer, e, hn⟩ := h
  exact ⟨older, newer, e, hn.trans hm⟩

theorem keeps (h : StandsBefore r n s) (k : KeepsReports s u) : StandsBefore r n u := by
  rwa [StandsBefore, k.faults]

/-- A further record pushes out none but the oldest of 256. -/
theorem recordFault (h : StandsBefore r n s) (hn : n ≤ 254) (f : FaultIn) (cls outcome domain more : Nat) :
    StandsBefore r (n + 1) (s.recordFault f cls outcome domain more) := by
  obtain ⟨older, newer, e, hlen⟩ := h
  obtain ⟨r', hfaults, -⟩ := faults_recordFault s f cls outcome domain more
  refine ⟨older.drop (older.length + newer.length + 2 - 256), newer ++ [r'], ?_, by simpa using hlen⟩
  have hcount : (older ++ r :: newer ++ [r']).length - 256 = older.length + newer.length + 2 - 256 := by simp; omega
  rw [hfaults, e, hcount, List.append_assoc, List.drop_append_of_le_length (by omega), List.cons_append]

theorem startReplay (h : StandsBefore r n s) (hn : n ≤ 254) (own : DomKind × Nat) : StandsBefore r (n + 1) (s.startReplay own) := by
  have hhalt := h.keeps (keepsReports_haltForReplay s)
  unfold State.startReplay
  dsimp only
  split
  · exact ((hhalt.recordFault hn _ _ _ _ _).keeps (keepsReports_traceRec _ _ _ _)).keeps (keepsReports_issueModule _ _)
  · exact ((hhalt.keeps (keepsReports_traceRec _ _ _ _)).keeps (keepsReports_issueResets _ _)).mono n.le_succ

/-- What follows the record of a fault of class R is at most one record, that of REPLAY_LIMIT. -/
theorem raiseFault_of_record {Q : FaultRec → Prop} {f : FaultIn} (hc : f.cls = clsR) (hr : f.region = none) (hn : n ≤ 254)
    (h : ∀ outcome domain more, ∃ r, Q r ∧ StandsBefore r n (s.recordFault f clsR outcome domain more)) :
    ∃ r, Q r ∧ StandsBefore r (n + 1) (s.raiseFault f) := by
  obtain ⟨o, d, m, hcases⟩ := raiseFault_classR_cases s hc hr
  obtain ⟨r, hq, hrecord⟩ := h o d m
  refine ⟨r, hq, ?_⟩
  dsimp only at hcases
  generalize s.recordFault f clsR o d m = a at hcases hrecord
  obtain ⟨-, e | e⟩ | ⟨-, e⟩ | ⟨-, q, hq, e⟩ := hcases <;> rw [e]
  · exact hrecord.mono n.le_succ
  · exact (hrecord.keeps (keepsReports_holdForLinks a f)).mono n.le_succ
  · exact (hrecord.startReplay hn f.dom).keeps (keepsReports_holdForLinks _ f)
  · exact ((hrecord.keeps (keepsReports_issueResets a [f.dom])).keeps (keepsReports_rcv _ q hq)).mono n.le_succ

/-- An older record has at most two newer ones more after a fault of class R. -/
theorem raiseFault (h : StandsBefore r n s) (hn : n ≤ 253) {f : FaultIn} (hc : f.cls = clsR) (hr : f.region = none) :
    StandsBefore r (n + 2) (s.raiseFault f) := by
  obtain ⟨_, rfl, hr'⟩ := raiseFault_of_record (Q := (· = r)) (n := n + 1) hc hr (by omega)
    fun o d m => ⟨r, rfl, h.recordFault (by omega) f clsR o d m⟩
  exact hr'

end StandsBefore

/-- A record reports a fault at a time: its cause, its unit and index, and that time within 1 µs (14 R408). -/
def Reports (f : FaultIn) (now : Nat) (r : FaultRec) : Prop :=
  r.cause = f.cause ∧ r.unit = f.unit ∧ (∀ i, f.index = some i → r.index = i) ∧ now ≤ r.time + 1000 ∧ r.time ≤ now + 1000

theorem recordFault_reports (s : State) (f : FaultIn) (cls outcome domain more : Nat) :
    ∃ r, Reports f s.now r ∧ StandsBefore r 0 (s.recordFault f cls outcome domain more) := by
  unfold State.recordFault
  dsimp only
  generalize hr : FaultRec.mk _ _ _ _ _ _ _ _ _ _ _ _ _ _ _ _ _ _ _ _ _ _ _ = r
  refine ⟨r, ?_, s.rcv.faults.drop (s.rcv.faults.length + 1 - 256), [], ?_, le_rfl⟩
  · rw [← hr]
    exact ⟨rfl, rfl, fun i hi => by simp [hi], stampAt_bounds s _⟩
  · rw [(setCause_event_spec _ _ _ _ _).1, State.setObj_rcv]
    dsimp only
    rw [List.length_append, List.length_singleton, List.drop_append_of_le_length (by omega)]

/-- The record of a link fault of class R names its port. -/
theorem linkFault_reports (s : State) (p : Nat) {cause : Nat} (detail : List Byte) (hc : causeClass cause = clsR) :
    ∃ r, Reports ⟨cause, causeClass cause, (.link, p), none, none, 7, some p, detail⟩ s.now r ∧ StandsBefore r 1 (s.linkFault p cause detail) :=
  StandsBefore.raiseFault_of_record hc rfl (by omega) fun o d m => recordFault_reports s _ clsR o d m

end Sys2Proof.Machine
end

section
/-! SUPPORT. The loss of the reference clock, port by port, its return, and the PCI Express link (10 R331, R337; 11 R339). -/

namespace Sys2Proof.Machine

/-! ## A port that falls with the reference (R337) -/

/-- What the loss of the reference does to one port: nothing where it is DOWN, else LINK_DOWN. -/
def State.losesClock (s : State) (p : Nat) : State := if (s.port p).st = .down then s else (s.portDown p 1).linkFault p 0x43 []

/-- A state with the reference as given, and another Logbook. -/
def State.withClock (s : State) (on : Bool) (log : Logbook) : State := { s with link := { s.link with refclk := on }, log := log }

theorem refclkLost_next {s : State} (hvsb : s.pw.vsb = true) (hclk : s.link.refclk = true) :
    ∃ log, Completes .refclkLost s (forEach s.ports (s.withClock false log) State.losesClock) := by
  obtain ⟨log, hevent⟩ := event_eq ({ s with link := { s.link with refclk := false } } : State) srcHelm 0x5B04 (leBytes 8 s.now)
  refine ⟨log, ?_⟩
  show execRefclkLost s = _
  unfold execRefclkLost
  rw [if_pos ⟨hvsb, hclk⟩]
  dsimp only
  rw [hevent]
  rfl

/-- Where each port of a module of this state stands; a fault's flits that wait to be sent leave it there. -/
theorem OnlySends.standing {s u : State} (h : OnlySends s u) (p : Nat) : (u.port p).standing = (s.port p).standing := by rw [h p]; rfl

/-- What one port's loss leaves: the frame of faults, every other port where it stood, and every record that 253 newer ones follow at most. -/
structure ClockLoss (p : Nat) (s u : State) : Prop where
  frame  : FaultFrame s u
  others : ∀ q, q ≠ p → (u.port q).standing = (s.port q).standing
  older  : ∀ r n, n ≤ 253 → StandsBefore r n s → StandsBefore r (n + 2) u

/-- A port that falls stands DOWN and trains afresh, and its fault is the newest record but one. -/
structure Falls (p : Nat) (s u : State) : Prop where
  standing : (u.port p).standing = (.down, none, [])
  record   : ∃ r, StandsBefore r 1 u ∧ r.cause = 0x43 ∧ r.unit = 7 ∧ r.index = p ∧ s.now ≤ r.time + 1000 ∧ r.time ≤ s.now + 1000

theorem falls_linkDown (s : State) (p cause : Nat) :
    ClockLoss p s ((s.portDown p cause).linkFault p 0x43 []) ∧ Falls p s ((s.portDown p cause).linkFault p 0x43 []) := by
  obtain ⟨hframe, hstanding, hothers⟩ := portDown_spec s p cause
  have hdown : FaultFrame s (s.portDown p cause) := by
    unfold FaultFrame
    exact congrArg (fun v : State => { v with freeCount := s.freeCount, tiles := s.tiles, dict := s.dict, rcv := s.rcv }) hframe
  have hfaults : (s.portDown p cause).rcv.faults = s.rcv.faults := congrArg (·.rcv.faults) hframe
  generalize s.portDown p cause = v at hdown hfaults hstanding hothers ⊢
  obtain ⟨r, hwork, -⟩ := faultWork_raiseFault v (f := ⟨0x43, causeClass 0x43, (.link, p), none, none, 7, some p, []⟩) rfl rfl
  obtain ⟨k, ⟨hcause, hunit, hindex, htime⟩, hk⟩ := linkFault_reports v p (cause := 0x43) [] rfl
  rw [hdown.now] at htime
  refine ⟨⟨hdown.trans ?_, fun q hq => ?_, fun r n hn hr => ?_⟩, ?_, k, hk, hcause, hunit, hindex p rfl, htime⟩
  · exact ((FaultFrame.refl v).withRcv v.rcv r).trans hwork.frame
  · exact (hwork.sends.standing q).trans (congrArg Port.standing (hothers q hq))
  · rw [StandsBefore, ← hfaults] at hr
    exact StandsBefore.raiseFault hr hn rfl rfl
  · exact (hwork.sends.standing p).trans hstanding

theorem clockLoss_losesClock (s : State) (p : Nat) : ClockLoss p s (s.losesClock p) := by
  unfold State.losesClock
  split
  · exact ⟨.refl s, fun _ _ => rfl, fun r n _ h => h.mono (by omega)⟩
  · exact (falls_linkDown s p 1).1

theorem losesClock_of_down {s : State} {p : Nat} (h : (s.port p).st = .down) : s.losesClock p = s := if_pos h

/-! ## All ports in turn -/

theorem faultFrame_losesClocks (ps : List Nat) (s : State) : FaultFrame s (forEach ps s State.losesClock) :=
  .forEach ps (fun s p => (clockLoss_losesClock s p).frame) s

theorem standing_losesClocks {p : Nat} {ps : List Nat} (h : p ∉ ps) (s : State) :
    ((forEach ps s State.losesClock).port p).standing = (s.port p).standing :=
  forEach_keeps (fun u => (u.port p).standing = (s.port p).standing) _ ps (fun u q hq hu =>
    ((clockLoss_losesClock u q).others p (fun e => h (e ▸ hq))).trans hu) s rfl

theorem standsBefore_losesClocks {r : FaultRec} (ps : List Nat) : ∀ {s : State} {n : Nat}, StandsBefore r n s → n + 2 * ps.length ≤ 255 →
    StandsBefore r (n + 2 * ps.length) (forEach ps s State.losesClock) := by
  induction ps with
  | nil => exact fun h _ => h
  | cons p ps ih =>
    intro s n h hn
    rw [List.length_cons] at hn ⊢
    rw [forEach_cons]
    exact (ih ((clockLoss_losesClock s p).older r n (by omega) h) (by omega)).mono (by omega)

theorem forEach_append {α : Type} (xs ys : List α) (s : State) (f : State → α → State) : forEach (xs ++ ys) s f = forEach ys (forEach xs s f) f :=
  List.foldl_append

/-- Of the ports of a list of at most 127, each once, one that was up or trained falls, and its record stands. -/
theorem losesClocks_falls {p : Nat} {ps : List Nat} (hp : p ∈ ps) (hd : ps.Nodup) (hlen : ps.length ≤ 127) (s : State) :
    ((forEach ps s State.losesClock).port p).st = .down ∧ ((s.port p).st ≠ .down →
      ((forEach ps s State.losesClock).port p).standing = (.down, none, []) ∧
        ∃ r ∈ (forEach ps s State.losesClock).rcv.faults, r.cause = 0x43 ∧ r.unit = 7 ∧ r.index = p ∧ s.now ≤ r.time + 1000 ∧ r.time ≤ s.now + 1000) := by
  obtain ⟨before, after, rfl⟩ := List.append_of_mem hp
  obtain ⟨-, hafter, hdisj⟩ := List.nodup_append.1 hd
  have hpb : p ∉ before := fun h => hdisj p h p List.mem_cons_self rfl
  have hpa : p ∉ after := (List.nodup_cons.1 hafter).1
  have hst : ((forEach before s State.losesClock).port p).standing = (s.port p).standing := standing_losesClocks hpb s
  have hnow := (faultFrame_losesClocks before s).now
  rw [forEach_append, forEach_cons]
  generalize forEach before s State.losesClock = t at hst hnow ⊢
  have hend := standing_losesClocks hpa (t.losesClock p)
  by_cases hdown : (s.port p).st = .down
  · have ht : (t.port p).st = .down := (congrArg Prod.fst hst).trans hdown
    rw [losesClock_of_down ht] at hend ⊢
    exact ⟨(congrArg Prod.fst hend).trans ht, fun h => absurd hdown h⟩
  · have ht : (t.port p).st ≠ .down := fun h => hdown ((congrArg Prod.fst hst).symm.trans h)
    have hfall : Falls p t (t.losesClock p) := by
      rw [State.losesClock, if_neg ht]
      exact (falls_linkDown t p 1).2
    obtain ⟨r, hr, hcause, hunit, hindex, htime⟩ := hfall.record
    have hlast := hend.trans hfall.standing
    rw [List.length_append, List.length_cons] at hlen
    exact ⟨congrArg Prod.fst hlast, fun _ => ⟨hlast, r, (standsBefore_losesClocks after hr (by omega)).mem, hcause, hunit, hindex, hnow ▸ htime⟩⟩

/-- Where no port is up or trains, none falls. -/
theorem losesClocks_of_down {s : State} {ps : List Nat} (h : ∀ p ∈ ps, (s.port p).st = .down) : forEach ps s State.losesClock = s :=
  forEach_fixed fun p hp => losesClock_of_down (h p hp)

/-! ## The reference is back -/

/-- A port that may train again at once. -/
def Port.retries (x : Port) : Port := { x with retryAt := none }

/-- What the return of the reference does to one port. -/
def State.retriesAt (s : State) (p : Nat) : State := s.modPort p Port.retries

theorem refclkRestored_next {s : State} (hvsb : s.pw.vsb = true) (hclk : s.link.refclk = false) :
    ∃ log, Completes .refclkRestored s (forEach s.ports (s.withClock true log) State.retriesAt) := by
  obtain ⟨log, hevent⟩ := event_eq ({ s with link := { s.link with refclk := true } } : State) srcHelm 0x5B05 (leBytes 8 s.now)
  refine ⟨log, ?_⟩
  show execRefclkRestored s = _
  unfold execRefclkRestored
  rw [if_pos ⟨hvsb, by simp [hclk]⟩]
  dsimp only
  rw [hevent]
  rfl

/-- One port may train again, or stays as it was, at whichever port the reference returns. -/
theorem port_retriesAt (s : State) (p q : Nat) : (s.retriesAt q).port p = if p = q then (s.port p).retries else s.port p := by
  split
  · rename_i h
    rw [h]
    exact port_modPort_same s q _
  · exact port_modPort_other s _ ‹_›

/-- Ports that may train again stay in their states; nothing but the ports differs. -/
theorem forEach_retriesAt_spec (ps : List Nat) (s : State) :
    { forEach ps s State.retriesAt with link := { (forEach ps s State.retriesAt).link with ports := s.link.ports } } = s ∧
    (∀ p, ((forEach ps s State.retriesAt).port p).st = (s.port p).st) ∧ ∀ p ∈ ps, ((forEach ps s State.retriesAt).port p).retryAt = none := by
  refine ⟨?_, fun p => ?_, fun p hp => ?_⟩
  · exact forEach_keeps (fun u : State => { u with link := { u.link with ports := s.link.ports } } = s) State.retriesAt ps (fun u q _ hu => hu) s rfl
  · refine forEach_keeps (fun u => (u.port p).st = (s.port p).st) _ ps (fun u q _ hu => ?_) s rfl
    rw [port_retriesAt, ← hu]
    split <;> rfl
  · refine forEach_reaches (fun u => (u.port p).retryAt = none) hp (fun u => ?_) (fun u q _ hu => ?_) s
    · rw [port_retriesAt, if_pos rfl]
      rfl
    · rw [port_retriesAt]
      split
      · rfl
      · exact hu

/-! ## PCI Express (R339) -/

/-- The state in which the link has come up at a rate and a width. -/
def State.pcieSettled (s : State) (speed width : Nat) : State :=
  let s := (s.setObj 0x1100 1 speed).setObj 0x1100 2 width
  { s with hi := { s.hi with pcieUp := true } }

theorem pcieLinkSettle_next {s : State} {speed width : Nat} (hrun : s.helmRuns = true) (hlo : 1 ≤ speed) (hhi : speed ≤ 7)
    (hw : width = 1 ∨ width = 2 ∨ width = 4 ∨ width = 8) :
    ∃ log, Completes (.pcieLinkSettle speed width) s { s.pcieSettled speed width with log := log } := by
  show ∃ log, execPcieLinkSettle speed width s = _
  unfold execPcieLinkSettle
  rw [if_pos ⟨hrun, hlo, hhi, hw⟩]
  dsimp only
  rw [← State.pcieSettled]
  split
  · obtain ⟨log, e⟩ := event_eq (s.pcieSettled speed width) srcHost 0x1B03 []
    exact ⟨log, congrArg Host.Outcome.next e⟩
  · exact ⟨s.log, rfl⟩

theorem obj_pcieSettled (s : State) (speed width : Nat) :
    (s.pcieSettled speed width).obj 0x1100 1 = speed ∧ (s.pcieSettled speed width).obj 0x1100 2 = width := by
  refine ⟨?_, State.obj_setObj_same (s.setObj 0x1100 1 speed) 0x1100 2 width⟩
  exact (State.obj_setObj_other (s.setObj 0x1100 1 speed) width (by decide)).trans (State.obj_setObj_same s 0x1100 1 speed)

end Sys2Proof.Machine
end

section
/-! The statement of 10 and 11 about the reference clock and the PCI Express link. -/

namespace Sys2Proof.Proofs

open Sys2Proof.Machine

/-- Settles O32: the ports fall in turn, each leaving at most two records, so that of 16 ports' records none is among those pushed out
(`losesClocks_falls`). -/
theorem clockAndPcieLink : Obligations.ClockAndPcieLink := by
  refine fun s => ⟨?lost, ?lostIdle, ?restoredIdle, ?restored, ?settles, ?settlesNot⟩
  case lost =>
    intro hvsb hclk hvariant
    obtain ⟨log, hnext⟩ := refclkLost_next hvsb hclk
    have hframe := faultFrame_losesClocks s.ports (s.withClock false log)
    have hlen : s.ports.length ≤ 127 := by
      rw [State.ports, List.length_range]
      obtain h | h | h := hvariant <;> omega
    refine ⟨_, hnext, hframe.refclk, fun p hp => ?_, hframe.chart, hframe.mem, hframe.hostMem, fun hdown => ?_⟩
    · obtain ⟨hst, hfalls⟩ := losesClocks_falls (List.mem_range.2 hp) List.nodup_range hlen (s.withClock false log)
      refine ⟨hst, fun hup => ?_⟩
      obtain ⟨hstanding, hrecord⟩ := hfalls hup
      exact ⟨congrArg (·.2.1) hstanding, congrArg (·.2.2) hstanding, hrecord⟩
    · have hstay : forEach s.ports (s.withClock false log) State.losesClock = s.withClock false log :=
        losesClocks_of_down fun p hp => hdown p (List.mem_range.1 hp)
      rw [hstay, ← hclk]
      rfl
  case lostIdle =>
    intro h
    refine if_neg fun ⟨hvsb, hclk⟩ => ?_
    obtain h | h := h
    · exact Bool.false_ne_true (h.symm.trans hvsb)
    · exact Bool.false_ne_true (h.symm.trans hclk)
  case restoredIdle =>
    intro h
    refine if_neg fun ⟨hvsb, hclk⟩ => ?_
    obtain h | h := h
    · exact Bool.false_ne_true (h.symm.trans hvsb)
    · exact hclk h
  case restored =>
    intro hvsb hclk
    obtain ⟨log, hnext⟩ := refclkRestored_next hvsb hclk
    obtain ⟨hframe, hst, hretry⟩ := forEach_retriesAt_spec s.ports (s.withClock true log)
    exact ⟨_, hnext, congrArg (·.link.refclk) hframe, fun p hp => ⟨hretry p (List.mem_range.2 hp), hst p⟩,
      congrArg (fun u : State => { u with link := s.link, log := s.log }) hframe⟩
  case settles =>
    intro n w hrun hlo hhi hw
    obtain ⟨log, hnext⟩ := pcieLinkSettle_next hrun hlo hhi hw
    obtain ⟨hspeed, hwidth⟩ := obj_pcieSettled s n w
    exact ⟨_, hnext, rfl, hspeed, hwidth, rfl⟩
  case settlesNot =>
    intro n w h
    refine if_neg fun ⟨hrun, hlo, hhi, hw⟩ => ?_
    obtain h | h | h | ⟨h1, h2, h4, h8⟩ := h
    · exact Bool.false_ne_true (h.symm.trans hrun)
    · omega
    · omega
    · omega

end Sys2Proof.Proofs
end

section
/-! SUPPORT. What the commands of a port's training do: start, states, IDENT, bounds, generation exchange, RETRAIN and LINK_DOWN (10 R313, R320, R321,
R330, R331, R333; 15 R444). -/

namespace Sys2Proof.Machine

/-! ## PORT_TRAIN_START (R313, R320) -/

theorem down_of_canTrain {s : State} {p : Nat} (h : s.canTrain p = true) : (s.port p).st = .down := by
  simp only [State.canTrain, Bool.and_eq_true, decide_eq_true_eq] at h
  obtain ⟨⟨⟨⟨⟨-, hdown⟩, -⟩, -⟩, -⟩, -⟩ := h
  exact hdown

/-- The stored torus values meet the rules and are those in effect. -/
structure TorusStands (s : State) : Prop where
  ok  : torusOk s.variant s.storedLen s.storedPos = true
  len : s.storedLen = s.link.len
  pos : s.storedPos = s.link.pos

section
variable {s : State} (ht : TorusStands s)
include ht

theorem TorusStands.effect : s.torusEffect = s := by
  unfold State.torusEffect
  dsimp only
  rw [if_pos ht.ok, if_pos ⟨ht.len, ht.pos⟩]

theorem TorusStands.not_blocked (p : Nat) : s.torusBlocked p = false := by simp [State.torusBlocked, ht.ok]

variable {p : Nat} (hc : s.canTrain p = true)
include hc

/-- A port that begins its training: lanes as they come, the rate that is set. -/
theorem portTrainStart_detects (hlen : 2 ≤ s.axisLen (portAxis p)) : ∃ u, Completes (.portTrainStart p) s u ∧
    PutsPort p { (s.port p).enters .detect s.now with retryAt := none, reversed := false, inverted := 0, rate := s.obj 0x5011 0 } s u := by
  have hdown := down_of_canTrain hc
  refine ⟨(s.portTo p .detect).modPort p (fun x => { x with retryAt := none, reversed := false, inverted := 0, rate := s.obj 0x5011 0 }), ?_, ?_⟩
  · show execPortTrainStart p s = _
    unfold execPortTrainStart
    rw [if_pos hc, ht.effect]
    dsimp only
    rw [if_pos ⟨hdown, by simp [ht.not_blocked]⟩, if_pos hlen]
  · exact (putsPort_portTo (by rw [hdown]; decide)).modPort (fun x => { x with retryAt := none, reversed := false, inverted := 0, rate := s.obj 0x5011 0 })

theorem portTrainStart_alone (hlen : s.axisLen (portAxis p) < 2) : Completes (.portTrainStart p) s (s.modPort p Port.retries) := by
  show execPortTrainStart p s = _
  unfold execPortTrainStart
  rw [if_pos hc, ht.effect]
  dsimp only
  rw [if_pos ⟨down_of_canTrain hc, by simp [ht.not_blocked]⟩, if_neg (by omega)]
  rfl

end

/-! ## The states in order (R320, Table LINK-7) -/

section
variable {s : State} {p : Nat}

theorem detect_next {lanes : Nat} (reversed : Bool) (inverted : Nat) (h : (s.port p).st = .detect) (hl : lanes % 16 = 15) :
    ∃ u, Completes (.detect p lanes reversed inverted) s u ∧
      PutsPort p { (s.port p).enters .equalise s.now with rxMask := 15, txMask := 15, reversed := reversed, inverted := inverted } s u :=
  ⟨_, if_pos ⟨h, hl⟩, (putsPort_portTo (by rw [h]; decide)).modPort
    (fun x => { x with rxMask := 15, txMask := 15, reversed := reversed, inverted := inverted })⟩

theorem equalise_next (precoded : Nat) (h : (s.port p).st = .equalise) : ∃ u, Completes (.equalise p precoded) s u ∧
    PutsPort p { ((s.port p).enters .align s.now).unframed with precoded := precoded % 16 } s u :=
  ⟨_, if_pos h, (putsPort_portTo (by rw [h]; decide)).modPort (fun x => { x.unframed with precoded := precoded % 16 })⟩

theorem align_next (h : (s.port p).st = .align) :
    ∃ u, Completes (.align p) s u ∧ PutsPort p ((s.port p).enters .fecLock s.now) s u :=
  ⟨_, if_pos h, putsPort_portTo (by rw [h]; decide)⟩

theorem fecLock_next (h : (s.port p).st = .fecLock) :
    ∃ u, Completes (.fecLock p) s u ∧ PutsPort p ((s.port p).enters .identify s.now) s u :=
  ⟨_, if_pos h, putsPort_portTo (by rw [h]; decide)⟩

end

/-! ## IDENT (R321) -/

/-- A replay that waits for the ports goes on, where they are back, and nothing else comes of it (15 R444). -/
theorem linkRelease_eq (s : State) : ∃ hold, s.linkRelease = { s with rcv := { s.rcv with linkHold := hold } } ∧
    (s.rcv.linkHold = true → s.established = true → hold = false) := by
  unfold State.linkRelease
  split
  · exact ⟨false, rfl, fun _ _ => rfl⟩
  · rename_i h
    exact ⟨s.rcv.linkHold, rfl, fun hold hback => absurd ⟨hold, hback⟩ h⟩

/-- A port that has taken its partner's IDENT begins an exchange. -/
def Port.identified (x : Port) (d : List Byte) : Port := { x.restart with ident := d, genSend := some false }

section
variable {s : State} {p : Nat} (h : (s.port p).st = .identify) (d : List Byte)
include h

theorem identify_passes (hok : s.identFail p d = 0) : ∃ u, Completes (.identify p d d) s u ∧ (u.port p).st = .active ∧ (u.port p).ident = d ∧
    (u.port p).genOpen = true ∧ ∀ q, q ≠ p → u.port q = s.port q := by
  have hput := (putsPort_portTo (st := .active) (by rw [h]; decide)).modPort (Port.identified · d)
  have hnext : ∃ data, Completes (.identify p d d) s
      (((s.portTo p .active).modPort p (Port.identified · d)).event (srcLink p) 0x5B00 data).linkRelease := by
    show ∃ data, execIdentify p d d s = _
    unfold execIdentify
    rw [if_pos ⟨h, rfl⟩]
    dsimp only
    rw [if_pos hok]
    exact ⟨_, rfl⟩
  obtain ⟨data, hnext⟩ := hnext
  generalize (s.portTo p .active).modPort p (Port.identified · d) = v at hput hnext
  obtain ⟨log, hevent⟩ := event_eq v (srcLink p) 0x5B00 data
  rw [hevent] at hnext
  obtain ⟨hold, hrelease, -⟩ := linkRelease_eq { v with log := log }
  rw [hrelease] at hnext
  have hport : v.port p = _ := hput.port
  exact ⟨_, hnext, congrArg Port.st hport, congrArg Port.ident hport, congrArg Port.genOpen hport, hput.others⟩

theorem identify_fails (hbad : s.identFail p d ≠ 0) : Completes (.identify p d d) s (s.trainFail p (s.identFail p d)) := by
  show execIdentify p d d s = _
  unfold execIdentify
  rw [if_pos ⟨h, rfl⟩]
  exact if_neg hbad

end

/-- Two IDENT flits that differ have no effect. -/
theorem identify_differs {p : Nat} {d d' : List Byte} (s : State) (h : d' ≠ d) : Completes (.identify p d' d) s s := if_neg fun h' => h h'.2

/-! ## Bounds of the states (Table LINK-7) -/

theorem trainStateTimeout_fails {s : State} {p b code : Nat} (hb : trainBound (s.port p).st = some (b, code)) (hdue : (s.port p).since + b < s.now) :
    ∃ u n, Completes (.trainStateTimeout p) s u ∧ FailsTraining s p n u ∧ (code ≠ 0 → n = code) := by
  have hnext : execTrainStateTimeout p s = if code = 0 then
      .next (({ s with freeCount := s.freeCount + 1 } : State).trainFail p ((Config.freeValue s.freeCount).toNat % 256))
      else .next (s.trainFail p code) := by
    unfold execTrainStateTimeout
    rw [hb]
    exact if_pos hdue
  by_cases hcode : code = 0
  · rw [if_pos hcode] at hnext
    obtain ⟨hdown, hretry, hread, hcount, htiles, hchart⟩ :=
      failsTraining_trainFail { s with freeCount := s.freeCount + 1 } p ((Config.freeValue s.freeCount).toNat % 256)
    exact ⟨_, _, hnext, ⟨hdown, hretry, hread, hcount, htiles, hchart⟩, fun h => absurd hcode h⟩
  · rw [if_neg hcode] at hnext
    exact ⟨_, _, hnext, failsTraining_trainFail s p code, fun _ => rfl⟩

/-! ## Generations (R330) -/

/-- A port that asks for its expected SEQ again. -/
def Port.asksAgain (x : Port) : Port := { x with nakPend := true, nakFor := some x.rxSeq }

/-- A SEQ is asked for again where that is forced, or where it was not asked for before. -/
theorem sendNak_asks {s : State} {p : Nat} {again : Bool} (h : again = true ∨ (s.port p).nakFor ≠ some (s.port p).rxSeq) :
    s.sendNak p again = s.modPort p Port.asksAgain := by
  refine congrArg (s.setPort p) (if_neg fun ⟨hfor, hnot⟩ => ?_)
  obtain h | h := h
  · exact Bool.false_ne_true (hnot.symm.trans h)
  · exact h hfor

section
variable {s : State} {p : Nat} (hst : (s.port p).st = .active) (hreset : s.linkReset p = false)
include hst hreset

theorem generationExchange_next (hopen : (s.port p).genOpen = true) : Completes (.generationExchange p) s
    (s.modPort p (fun x => { x.restart with genSend := some false })) := if_pos ⟨hst, hopen, by simp [hreset]⟩

variable {f : Flit} (htype : f.type = 0x0E)
include htype

/-- On another virtual channel than VC0 GEN is asked for again (R328). -/
theorem gen_wrongChannel (hvc : f.vc ≠ 0) : Completes (.gen p f) s (s.modPort p Port.asksAgain) := by
  show execGen p f s = _
  unfold execGen
  dsimp only
  rw [if_pos ⟨hst, by simp [hreset], htype⟩, if_pos hvc, sendNak_asks (.inl rfl)]

/-- The partner's answer ends the exchange. -/
theorem gen_answer (hvc : f.vc = 0) (hecho : fieldAt f.payload 1 1 = 1) (hopen : (s.port p).genOpen = true) :
    Completes (.gen p f) s (s.modPort p (fun x => x.exchanged (fieldAt f.payload 0 1))) := by
  show execGen p f s = _
  unfold execGen
  dsimp only
  rw [if_pos ⟨hst, by simp [hreset], htype⟩, if_neg (by simp [hvc]), if_pos hecho, if_pos hopen]
  rfl

/-- A partner that begins an exchange is answered. -/
theorem gen_begun (hvc : f.vc = 0) (hecho : fieldAt f.payload 1 1 ≠ 1) : Completes (.gen p f) s
    (s.modPort p (fun x => { (if x.genOpen then x else x.restart).exchanged (fieldAt f.payload 0 1) with genSend := some true })) := by
  show execGen p f s = _
  unfold execGen
  dsimp only
  rw [if_pos ⟨hst, by simp [hreset], htype⟩, if_neg (by simp [hvc]), if_neg hecho]
  rfl

end

/-- After an exchange every virtual channel has its full credits. -/
theorem credits_exchanged (x : Port) (tag : Nat) : ∀ vc, vc < 8 → tget 0 (x.exchanged tag).credits vc = vcSlots vc := by
  show ∀ vc, vc < 8 → tget 0 ((List.range 8).foldl (fun t vc => tset 0 t vc (vcSlots vc)) []) vc = vcSlots vc
  decide

/-! ## RETRAIN (R331, R333) -/

theorem degrade_eq (s : State) (p dir was new : Nat) : ∃ dict log, s.degrade p dir was new = { s with dict := dict, log := log } := by
  unfold State.degrade
  split
  · exact ⟨s.dict, s.log, rfl⟩
  · obtain ⟨log, e⟩ := event_eq s (srcLink p) 0x5B02 (leBytes 1 p ++ [Config.eventField 0x5B02 dir] ++ leBytes 1 new)
    rw [e]
    exact ⟨_, log, rfl⟩

/-- A port that begins to retrain at a moment, `again` where the last RETRAIN was less than 1 s before. -/
def Port.retrains (x : Port) (now : Nat) (again : Bool) : Port := { x.unframed with retrainAt := some now, again := again, nakRun := 0, nakTimes := [] }

/-- A port whose lanes are narrowed to those that are healthy. -/
def Port.narrowed (x : Port) (tx rx : Nat) : Port := { x with txMask := tx, rxMask := rx }

/-- The last RETRAIN of a port was at most 1 s ago. -/
def State.retrainsAgain (s : State) (p : Nat) : Bool := match (s.port p).retrainAt with | some t => inWindow 1000000000 s.now t | none => false

/-- The state in which a port begins to retrain. -/
def State.beginsRetrain (s : State) (p : Nat) : State := (s.portTo p .retrain).modPort p (Port.retrains · s.now (s.retrainsAgain p))

theorem execRetrain_active {s : State} {p : Nat} {cause : RetrainCause} (hst : (s.port p).st = .active) (hwhy : s.retrainWhy p cause = true) (tx rx : Nat) :
    execRetrain p cause tx rx s = if cause = .naks then .next (s.beginsRetrain p) else
      .next ((((s.beginsRetrain p).degrade p 0 (s.port p).txMask (narrowTo (s.port p).txMask tx)).degrade p 1 (s.port p).rxMask
        (narrowTo (s.port p).rxMask rx)).modPort p (Port.narrowed · (narrowTo (s.port p).txMask tx) (narrowTo (s.port p).rxMask rx))) :=
  if_pos ⟨hst, hwhy⟩

theorem retrain_next {s : State} {p : Nat} {cause : RetrainCause} (hst : (s.port p).st = .active) (hwhy : s.retrainWhy p cause = true) (tx rx : Nat) :
    ∃ u x, Completes (.retrain p cause tx rx) s u ∧ x = ((s.port p).enters .retrain s.now).retrains s.now (s.retrainsAgain p) ∧
      u.port p = (if cause = .naks then x else x.narrowed (narrowTo (s.port p).txMask tx) (narrowTo (s.port p).rxMask rx)) ∧
      u.tiles = s.tiles ∧ ∀ q, q ≠ p → u.port q = s.port q := by
  have hput : PutsPort p (((s.port p).enters .retrain s.now).retrains s.now (s.retrainsAgain p)) s (s.beginsRetrain p) :=
    (putsPort_portTo (by rw [hst]; decide)).modPort (Port.retrains · s.now (s.retrainsAgain p))
  show ∃ u x, execRetrain p cause tx rx s = _ ∧ _
  rw [execRetrain_active hst hwhy]
  generalize s.beginsRetrain p = v at hput ⊢
  by_cases hcause : cause = .naks
  · simp only [if_pos hcause]
    exact ⟨v, _, rfl, rfl, hput.port, hput.tiles, hput.others⟩
  · simp only [if_neg hcause]
    obtain ⟨dict, log, htx⟩ := degrade_eq v p 0 (s.port p).txMask (narrowTo (s.port p).txMask tx)
    obtain ⟨dict', log', hrx⟩ := degrade_eq { v with dict := dict, log := log } p 1 (s.port p).rxMask (narrowTo (s.port p).rxMask rx)
    rw [htx, hrx]
    refine ⟨_, _, rfl, rfl, ?_, hput.tiles, fun q hq => (port_modPort_other _ _ hq).trans (hput.others q hq)⟩
    rw [port_modPort_same]
    exact congrArg (Port.narrowed · (narrowTo (s.port p).txMask tx) (narrowTo (s.port p).rxMask rx)) hput.port

theorem retrainComplete_next {s : State} {p : Nat} (hst : (s.port p).st = .retrain) (hok : s.retrainFailed p = false) :
    ∃ v, Completes (.retrainComplete p) s v.linkRelease ∧ PutsPort p ((s.port p).enters .active s.now).asksAgain s v :=
  ⟨(s.portTo p .active).modPort p Port.asksAgain, if_pos ⟨hst, by simp [hok]⟩, (putsPort_portTo (by rw [hst]; decide)).modPort Port.asksAgain⟩

/-! ## LINK_DOWN (R331) -/

/-- A record is the next one of a state with the same number of records and time. -/
theorem Records.of_same {s t u : State} {cause : Nat} (h : Records t u cause) (hnumber : t.obj 0x6010 0 = s.obj 0x6010 0) (hnow : t.now = s.now) :
    Records s u cause := by
  rwa [Records, hnumber, hnow] at h

/-- A link fault of class R is recorded. -/
theorem records_linkFault (s : State) (p : Nat) {cause : Nat} (detail : List Byte) (hc : causeClass cause = clsR) :
    Records s (s.linkFault p cause detail) cause :=
  records_raiseFault_classR s (f := ⟨cause, causeClass cause, (.link, p), none, none, 7, some p, detail⟩) hc rfl

theorem linkDown_next {s : State} {p : Nat} (h : s.retrainFailed p = true) : Completes (.linkDown p) s ((s.portDown p 0).linkFault p 0x43 []) :=
  if_pos h

theorem records_linkDown (s : State) (p cause : Nat) : Records s ((s.portDown p cause).linkFault p 0x43 []) 0x43 := by
  obtain ⟨hframe, -, -⟩ := portDown_spec s p cause
  exact (records_linkFault (s.portDown p cause) p [] rfl).of_same (congrArg (State.obj · 0x6010 0) hframe :) (congrArg State.now hframe :)

end Sys2Proof.Machine
end

section
/-! The statement of 10 about the training of ports. -/

namespace Sys2Proof.Proofs

open Sys2Proof.Machine

/-- Settles O58: each command leaves a port that is written out (`PutsPort`), and each clause reads it off. -/
theorem portsTrain : Obligations.PortsTrain := by
  refine fun s p => ⟨?starts, ?alone, ?startsNot, ?detect, ?equalise, ?align, ?fecLock, ?identify, ?timeout, ?generation, ?retrain, ?complete, ?down⟩
  case starts =>
    intro hc hok hlen hpos haxis
    obtain ⟨u, hnext, hput⟩ := portTrainStart_detects ⟨hok, hlen, hpos⟩ hc haxis
    exact ⟨u, hnext, congrArg Port.st hput.port, congrArg Port.since hput.port, congrArg Port.rate hput.port, hput.frame, hput.others⟩
  case alone =>
    intro hc hok hlen hpos haxis
    exact ⟨_, portTrainStart_alone ⟨hok, hlen, hpos⟩ hc haxis, onlyPort_modPort s p _, port_modPort_same s p _⟩
  case startsNot => exact fun hc => if_neg (by simp [hc])
  case detect =>
    refine fun lanes rev inv h => ⟨fun hl => ?_, fun hl => if_neg fun h' => hl h'.2⟩
    obtain ⟨u, hnext, hput⟩ := detect_next rev inv h hl
    exact ⟨u, hnext, congrArg Port.st hput.port, congrArg Port.rxMask hput.port, congrArg Port.txMask hput.port, congrArg Port.reversed hput.port,
      congrArg Port.inverted hput.port, hput.frame⟩
  case equalise =>
    intro pre h
    obtain ⟨u, hnext, hput⟩ := equalise_next pre h
    exact ⟨u, hnext, hput.port, hput.frame⟩
  case align =>
    intro h
    obtain ⟨u, hnext, hput⟩ := align_next h
    exact ⟨u, hnext, hput.port, hput.frame⟩
  case fecLock =>
    intro h
    obtain ⟨u, hnext, hput⟩ := fecLock_next h
    exact ⟨u, hnext, hput.port, hput.frame⟩
  case identify =>
    refine fun d h => ⟨fun d' hd => identify_differs s hd, identify_passes h d, fun hbad => ?_⟩
    obtain ⟨hdown, hretry, hcode, hcount, -, -⟩ := failsTraining_trainFail s p (s.identFail p d)
    exact ⟨_, identify_fails h d hbad, hdown, hretry, hcode, hcount⟩
  case timeout =>
    intro b code hb hdue
    obtain ⟨u, n, hnext, hfails, hn⟩ := trainStateTimeout_fails hb hdue
    exact ⟨u, hnext, hfails.down, hfails.retry, fun hcode => hfails.code.trans (hn hcode), hfails.tiles, hfails.chart⟩
  case generation =>
    refine fun hst hreset => ⟨fun hopen => ⟨_, generationExchange_next hst hreset hopen, onlyPort_modPort s p _, port_modPort_same s p _⟩,
      fun f htype => ⟨fun hvc => ?_, fun hvc hecho hopen => ?_, fun hvc hecho => ?_⟩⟩
    · refine ⟨_, gen_wrongChannel hst hreset htype hvc, onlyPort_modPort s p _, ?_⟩
      rw [port_modPort_same]
      exact ⟨rfl, rfl, rfl⟩
    · refine ⟨_, gen_answer hst hreset htype hvc hecho hopen, onlyPort_modPort s p _, ?_⟩
      rw [port_modPort_same]
      exact ⟨rfl, rfl, credits_exchanged _ _⟩
    · refine ⟨_, gen_begun hst hreset htype hvc hecho, onlyPort_modPort s p _, ?_⟩
      rw [port_modPort_same]
      exact ⟨rfl, rfl, rfl⟩
  case retrain =>
    intro cause tx rx hst hwhy
    obtain ⟨u, x, hnext, rfl, hport, htiles, hothers⟩ := retrain_next hst hwhy tx rx
    refine ⟨u, hnext, ?_, ?_, fun hnaks => ?_, fun hother => ?_, htiles, hothers⟩
    · rw [hport]
      split <;> rfl
    · rw [hport]
      split <;> rfl
    · rw [hport, if_pos hnaks]
      exact ⟨rfl, rfl⟩
    · rw [hport, if_neg hother]
      exact ⟨rfl, rfl⟩
  case complete =>
    intro hst hok
    obtain ⟨v, hnext, hput⟩ := retrainComplete_next hst hok
    obtain ⟨hold, hrelease, hback⟩ := linkRelease_eq v
    have hrcv : v.rcv = s.rcv := hput.reads State.rcv fun _ _ _ => rfl
    rw [hrelease] at hnext
    refine ⟨_, hnext, congrArg Port.st hput.port, congrArg Port.nakPend hput.port, ?_, fun hwaits hup => hback (hrcv ▸ hwaits) hup⟩
    exact congrArg (fun w : State => { w with rcv := { w.rcv with linkHold := s.rcv.linkHold } }) hput.frame
  case down =>
    intro h
    have hstanding := (falls_linkDown s p 0).2.standing
    exact ⟨_, linkDown_next h, congrArg Prod.fst hstanding, congrArg (·.2.2) hstanding, records_linkDown s p 0⟩

end Sys2Proof.Proofs
end

section
/-! SUPPORT. What a port puts on the lanes (10 R317, R318, R321, R324). -/

namespace Sys2Proof.Machine

/-- What of a port is in hand to be sent: its queues, the next SEQ, the flits kept for a retry and the credits. -/
def Port.inHand (x : Port) : Tab (List Flit) × Nat × List Flit × Tab Nat := (x.sendq, x.txSeq, x.retry, x.credits)

/-- A flit as it goes on the lanes of a port: with ACK, NAK, CVC, CFREE and GEN of the moment (10 Table LINK-5). -/
def State.onLanes (s : State) (p : Nat) (f : Flit) : Flit :=
  { f with ack := (s.port p).rxSeq, nak := (s.port p).nakPend, cvc := (s.port p).nextCvc, cfree := tget 0 (s.port p).freed (s.port p).nextCvc,
           gen := if f.type = 0 then 0 else s.tag .link p }

/-- A port has sent a flit last: the flit stands last in its frame; no other port differs, nor what the port has in hand, nor a count of the
reduction. -/
structure Emits (s : State) (p : Nat) (g : Flit) (u : State) : Prop where
  lastTx : (u.port p).lastTx = some g
  last   : (u.port p).frame.getLast? = some g
  inHand : (u.port p).inHand = (s.port p).inHand
  count  : u.obj 0x9060 2 = s.obj 0x9060 2
  others : ∀ q, q ≠ p → u.port q = s.port q

/-- A flit takes the last place of the frame being sent, and what is in hand stays. -/
theorem frameNext_spec (x : Port) (g : Flit) : (x.frameNext g).frame.getLast? = some g ∧ (x.frameNext g).inHand = x.inHand := by
  unfold Port.frameNext
  split
  · exact ⟨rfl, rfl⟩
  · split
    · exact ⟨rfl, rfl⟩
    · exact ⟨List.getLast?_concat, rfl⟩

theorem emits_emit (s : State) (p : Nat) (f : Flit) : Emits s p (s.onLanes p f) (s.emit p f) := by
  obtain ⟨hlast, hhand⟩ := frameNext_spec (s.port p) (s.onLanes p f)
  have hnak : ∀ c : Prop, ∀ _ : Decidable c, (if c then s.bump (0x5020 + p) 7 64 1 else s).obj 0x9060 2 = s.obj 0x9060 2 ∧
      ∀ q, (if c then s.bump (0x5020 + p) 7 64 1 else s).port q = s.port q := fun c _ => by
    split
    · exact ⟨obj_bump_other s 64 1 (by unfold okey; omega), fun _ => rfl⟩
    · exact ⟨rfl, fun _ => rfl⟩
  obtain ⟨hcount, hports⟩ := hnak ((s.port p).nakPend = true) inferInstance
  unfold State.emit
  dsimp only
  generalize (if (s.port p).nakPend = true then s.bump (0x5020 + p) 7 64 1 else s) = v at hcount hports
  refine ⟨?_, ?_, ?_, hcount, fun q hq => (State.port_setPort_other v _ hq).trans (hports q)⟩ <;> rw [State.port_setPort_same]
  · rfl
  · exact hlast
  · exact hhand

/-- Chains that begin move flits among the queues of a port, and nothing else of it differs. -/
theorem beginChains_eq (x : Port) : ∃ sendq startq, x.beginChains = { x with sendq := sendq, startq := startq } := by
  unfold Port.beginChains
  refine List.foldlRecOn (motive := fun y : Port => ∃ sendq startq, y = { x with sendq := sendq, startq := startq }) _ _ ⟨x.sendq, x.startq, rfl⟩ ?_
  rintro y ⟨sendq, startq, rfl⟩ vc -
  dsimp only
  split
  · split
    · exact ⟨_, _, rfl⟩
    · exact ⟨_, _, rfl⟩
  · exact ⟨_, _, rfl⟩

/-- What reads nothing of those queues reads the same after chains have begun. -/
theorem beginChains_reads {α : Type} (x : Port) (f : Port → α) (hf : ∀ sendq startq, f { x with sendq := sendq, startq := startq } = f x) :
    f x.beginChains = f x := by
  obtain ⟨sendq, startq, h⟩ := beginChains_eq x
  rw [h, hf]

/-! ## FLIT_TRANSMIT -/

section
variable {s : State} {p : Nat}

/-- While a port trains it sends IDLE flits (10 R317). -/
theorem flitTransmit_idle (hreset : s.linkReset p = false) (hst : (s.port p).st = .align ∨ (s.port p).st = .fecLock) :
    Completes (.flitTransmit p) s (s.emit p (mkFlit 0 0 [])) := by
  show execFlitTransmit p s = _
  unfold execFlitTransmit
  rw [if_neg (by simp [hreset])]
  obtain hst | hst := hst <;> rw [hst]

/-- From IDENTIFY on the transmitter chooses what to send (10 R324). -/
theorem flitTransmit_transmits (hreset : s.linkReset p = false) (hst : (s.port p).st = .identify ∨ (s.port p).st = .active) :
    Completes (.flitTransmit p) s (s.transmit p) := by
  show execFlitTransmit p s = _
  unfold execFlitTransmit
  rw [if_neg (by simp [hreset])]
  obtain hst | hst := hst <;> rw [hst]

/-- In IDENTIFY a port sends its IDENT (10 R321). -/
theorem transmit_ident (hst : (s.port p).st = .identify) : s.transmit p = s.emit p (mkFlit 0x0F 0 (s.ownIdent p)) := by
  have hst' : (s.port p).beginChains.st = .identify := (beginChains_reads _ Port.st fun _ _ => rfl).trans hst
  cases hon : s.onward p <;> simp [State.transmit, hon, hst, hst']

/-- IDENT fills the payload of its flit (10 Table LINK-8). -/
theorem payload_ident : (mkFlit 0x0F 0 (s.ownIdent p)).payload = s.ownIdent p := by
  have hfour : ∀ f : Nat → Nat, ((List.range 4).flatMap (fun i => leBytes 1 (f i))).length = 4 := fun _ => rfl
  have hlen : (s.ownIdent p).length = 240 := by
    simp only [State.ownIdent, List.length_append, hfour, length_leBytes, zeros, List.length_replicate, List.length_singleton]
  exact (List.take_append_of_le_length hlen.ge).trans (List.take_of_length_le hlen.le)

/-- A port that sends a flit from the head of a virtual channel's queue: the flit, under the next SEQ, is kept for a retry and takes a credit
(10 R323, R324). -/
def Port.sends (x : Port) (vc : Nat) (g : Flit) (rest : List Flit) : Port :=
  { x with sendq := tset [] x.sendq vc rest, txSeq := (x.txSeq + 1) % 4096, retry := x.retry ++ [{ g with seq := x.txSeq }],
           credits := tmod 0 x.credits vc (· - 1), rotation := (if 1 ≤ vc ∧ vc ≤ 6 then vc % 6 + 1 else x.rotation) }

/-- The state in which a port has taken a flit from the head of a virtual channel's queue to send it, and the flit is counted. -/
def State.sending (s : State) (p vc : Nat) (g : Flit) (rest : List Flit) : State :=
  (s.setPort p ((s.port p).beginChains.sends vc g rest)).countRed { g with seq := (s.port p).txSeq }

/-- With nothing to forward, to exchange or to send again, a port sends from the virtual channel that is chosen. -/
theorem transmit_chosen {vc : Nat} {g : Flit} {rest : List Flit} (hst : (s.port p).st = .active) (hopen : (s.port p).genOpen = false)
    (hon : s.onward p = none) (hgen : (s.port p).genSend = none) (hresend : (s.port p).resend = []) (hretry : (s.port p).retry.length < 512)
    (hvc : (s.port p).beginChains.choose = some vc) (hq : tget [] (s.port p).beginChains.sendq vc = g :: rest) :
    s.transmit p = (s.sending p vc g rest).emit p { g with seq := (s.port p).txSeq } := by
  have hst' : (s.port p).beginChains.st = .active := (beginChains_reads _ Port.st fun _ _ => rfl).trans hst
  have hopen' : (s.port p).beginChains.genOpen = false := (beginChains_reads _ Port.genOpen fun _ _ => rfl).trans hopen
  have hgen' : (s.port p).beginChains.genSend = none := (beginChains_reads _ Port.genSend fun _ _ => rfl).trans hgen
  have hresend' : (s.port p).beginChains.resend = [] := (beginChains_reads _ Port.resend fun _ _ => rfl).trans hresend
  have hretry' : (s.port p).beginChains.retry = (s.port p).retry := beginChains_reads _ Port.retry fun _ _ => rfl
  have hseq : (s.port p).beginChains.txSeq = (s.port p).txSeq := beginChains_reads _ Port.txSeq fun _ _ => rfl
  unfold State.transmit State.sending Port.sends
  rw [← hseq]
  rw [hon]
  dsimp only
  rw [hst', if_neg (by decide), hgen', hopen', if_neg (by decide), hresend', if_neg (by rw [hretry']; omega), hvc]
  dsimp only
  rw [hq]

end

/-- A flit of the reduction that is sent is counted, and nothing else comes of that (09 Table REDN-11). -/
theorem countRed_spec (s : State) (f : Flit) : { s.countRed f with dict := s.dict } = s ∧
    (s.countRed f).obj 0x9060 2 = if 3 ≤ f.type ∧ f.type ≤ 5 then satAdd 64 (s.obj 0x9060 2) 1 else s.obj 0x9060 2 := by
  unfold State.countRed
  split
  · exact ⟨rfl, obj_bump_same s 0x9060 2 64 1⟩
  · exact ⟨rfl, rfl⟩

/-- What a port that sends a flit has in hand then; the other ports and the tags stay. -/
structure Sending (s : State) (p vc : Nat) (g : Flit) (rest : List Flit) (u : State) : Prop where
  sendq   : tget [] (u.port p).sendq vc = rest
  txSeq   : (u.port p).txSeq = ((s.port p).txSeq + 1) % 4096
  retry   : (u.port p).retry = (s.port p).retry ++ [{ g with seq := (s.port p).txSeq }]
  credits : tget 0 (u.port p).credits vc = tget 0 (s.port p).credits vc - 1
  rxSeq   : (u.port p).rxSeq = (s.port p).rxSeq
  tag     : u.tag .link p = s.tag .link p
  count   : u.obj 0x9060 2 = if 3 ≤ g.type ∧ g.type ≤ 5 then satAdd 64 (s.obj 0x9060 2) 1 else s.obj 0x9060 2
  others  : ∀ q, q ≠ p → u.port q = s.port q

theorem sending_sending (s : State) (p vc : Nat) (g : Flit) (rest : List Flit) : Sending s p vc g rest (s.sending p vc g rest) := by
  obtain ⟨sendq, startq, hchains⟩ := beginChains_eq (s.port p)
  obtain ⟨hframe, hcount⟩ := countRed_spec (s.setPort p ((s.port p).beginChains.sends vc g rest)) { g with seq := (s.port p).txSeq }
  have hports : ∀ q, (s.sending p vc g rest).port q = (s.setPort p ((s.port p).beginChains.sends vc g rest)).port q :=
    fun q => (congrArg (State.port · q) hframe :)
  have hport : (s.sending p vc g rest).port p = (s.port p).beginChains.sends vc g rest := (hports p).trans (State.port_setPort_same s p _)
  rw [hchains] at hport
  refine ⟨?_, ?_, ?_, ?_, ?_, (congrArg (State.tag · .link p) hframe :), hcount, fun q hq => (hports q).trans (State.port_setPort_other s _ hq)⟩ <;>
    rw [hport]
  · exact tget_tset_same [] sendq vc rest
  · rfl
  · rfl
  · exact tget_tmod_same 0 (s.port p).credits vc (· - 1)
  · rfl

end Sys2Proof.Machine
end

section
/-! SUPPORT. What comes of errors of reception and of IDLE, and what a tap sends (08 R254-R256; 10 R318, R319, R328, R338). -/

namespace Sys2Proof.Machine

/-! ## Errors of reception (R328) -/

/-- Codewords that are counted change the dictionary alone (10 R338). -/
theorem countFec_frame (s : State) (p : Nat) (e : FlitError) : { s.countFec p e with dict := s.dict } = s := by
  unfold State.countFec
  split
  · split <;> rfl
  · split <;> rfl
  · rfl

section
variable {s : State} {p : Nat} (hst : (s.port p).st = .active)
include hst

theorem countFec_uncorrected (n : Nat) : (s.countFec p (.fec n)).obj (0x5020 + p) 6 = satAdd 64 (s.obj (0x5020 + p) 6) n := by
  have hdec : (s.port p).decodes = true := by simp [Port.decodes, hst]
  show (if (s.port p).decodes then s.bump (0x5020 + p) 6 64 n else s).obj (0x5020 + p) 6 = _
  rw [if_pos hdec, obj_bump_same]

theorem countFec_corrected (n : Nat) : (s.countFec p (.corrected n)).obj (0x5020 + p) 5 = satAdd 64 (s.obj (0x5020 + p) 5) n := by
  have hdec : (s.port p).decodes = true := by simp [Port.decodes, hst]
  show (if (s.port p).decodes then s.bump (0x5020 + p) 5 64 n else s).obj (0x5020 + p) 5 = _
  rw [if_pos hdec, obj_bump_same]

end

theorem flitReceiveError_corrected (s : State) (p : Nat) (f : Flit) (n : Nat) : Completes (.flitReceiveError p (.corrected n) f) s (s.countFec p (.corrected n)) := by
  show execFlitReceiveError p (.corrected n) f s = _
  unfold execFlitReceiveError
  dsimp only
  split <;> rfl

/-- The errors for which the expected SEQ is asked for again. -/
inductive LosesFlit (x : Port) (f : Flit) : FlitError → Prop
  | badType : LosesFlit x f .badType
  | crc {c : Nat} (h : c ≠ flitCrc f) : LosesFlit x f (.crc c)
  | fec (n : Nat) : LosesFlit x f (.fec n)
  | late (h : 1 ≤ seqDiff f.seq x.rxSeq ∧ seqDiff f.seq x.rxSeq ≤ 2048) (hfor : x.nakFor ≠ some x.rxSeq) : LosesFlit x f .seqLate

section
variable {s : State} {p : Nat} (hst : (s.port p).st = .active) (hreset : s.linkReset p = false) (hopen : (s.port p).genOpen = false) (f : Flit)
include hst hreset hopen

theorem flitReceiveError_asks {e : FlitError} (he : LosesFlit (s.port p) f e) :
    Completes (.flitReceiveError p e f) s ((s.countFec p e).modPort p Port.asksAgain) := by
  have hframe := countFec_frame s p e
  have hport : (s.countFec p e).port p = s.port p := (congrArg (State.port · p) hframe :)
  have hreset' : (s.countFec p e).linkReset p = false := (congrArg (State.linkReset · p) hframe :).trans hreset
  show execFlitReceiveError p e f s = _
  unfold execFlitReceiveError
  dsimp only
  rw [if_pos ⟨hst, by simp [hreset'], by simp [hopen]⟩]
  cases he with
  | badType => exact congrArg _ (sendNak_asks (.inl rfl))
  | crc h => exact (if_neg h).trans (congrArg _ (sendNak_asks (.inl rfl)))
  | fec n => exact congrArg _ (sendNak_asks (.inl rfl))
  | late h hfor => exact (if_pos h).trans (congrArg _ (sendNak_asks (.inr hfor)))

theorem flitReceiveError_residue : Completes (.flitReceiveError p .residue f) s (s.badResidue p f) :=
  if_pos ⟨hst, by simpa [State.countFec] using hreset, by simp [hopen]⟩

theorem flitReceiveError_none {e : FlitError} (he : e = .seqDup ∨ e = .crc (flitCrc f)) : Completes (.flitReceiveError p e f) s s := by
  have hon : (s.port p).st = .active ∧ ¬ s.linkReset p ∧ ¬ (s.port p).genOpen := ⟨hst, by simp [hreset], by simp [hopen]⟩
  obtain rfl | rfl := he
  · exact if_pos hon
  · exact (if_pos hon).trans (if_pos rfl)

/-! ## IDLE (R318) -/

variable {f} (htype : f.type = 0)
include htype

theorem idle_wrongChannel (hvc : f.vc ≠ 0) : Completes (.idle p f) s (s.modPort p Port.asksAgain) :=
  (if_pos ⟨hst, by simp [hreset], by simp [hopen], htype⟩).trans ((if_neg hvc).trans (congrArg _ (sendNak_asks (.inl rfl))))

theorem idle_hears (hvc : f.vc = 0) : Completes (.idle p f) s (s.rxHeader p f) :=
  (if_pos ⟨hst, by simp [hreset], by simp [hopen], htype⟩).trans (if_pos hvc)

end

/-- A header's CFREE gives credits to the virtual channel that it names (10 R323). -/
theorem credits_hearsHeader (x : Port) (f : Flit) : tget 0 (x.hearsHeader f).credits f.cvc =
    tget 0 x.credits f.cvc + seqDiff f.cfree (tget 0 x.seenFree f.cvc) :=
  tget_tmod_same 0 x.credits f.cvc (· + seqDiff f.cfree (tget 0 x.seenFree f.cvc))

/-- The first difference of a residue reaches the links and the counters alone. -/
theorem badResidue_frame {s : State} {p : Nat} (f : Flit) (h : (s.port p).resFor ≠ some (s.port p).rxSeq) :
    { s.badResidue p f with link := s.link, dict := s.dict } = s := by
  unfold State.badResidue
  dsimp only
  rw [if_neg h]
  rfl

/-! ## TAP_SEND (08 R255; 10 R319) -/

/-- A tap that sends: the tokens are off its tile's output queue and in a flit that waits, and they are counted. -/
structure TapSends (s : State) (p vc : Nat) (r : TapRec) (k : Nat) (f : Flit) (u : State) : Prop where
  waiting : u.tapWaiting r = (s.tapWaiting r).drop k
  sendq   : tget [] (u.port p).sendq f.vc = tget [] (s.port p).sendq f.vc ++ [f]
  sent    : ((u.port p).tap vc).sent = ((s.port p).tap vc).sent + k
  count   : u.obj 0x9050 1 = satAdd 64 (s.obj 0x9050 1) k

/-- A tap that has sent tokens. -/
def Port.tapSent (x : Port) (vc k : Nat) : Port := x.setTap vc { x.tap vc with sent := (x.tap vc).sent + k, passSent := (x.tap vc).passSent + k }

/-- A port with a flit more that waits to be sent. -/
def Port.queues (x : Port) (f : Flit) : Port := { x with sendq := tmod [] x.sendq f.vc (· ++ [f]) }

theorem sendq_queues (x : Port) (f : Flit) : tget [] (x.queues f).sendq f.vc = tget [] x.sendq f.vc ++ [f] :=
  tget_tmod_same [] x.sendq f.vc (· ++ [f])

@[simp] theorem tap_setTap_same (x : Port) (vc : Nat) (t : Tap) : (x.setTap vc t).tap vc = t :=
  tget_tset_same ({} : Tap) x.taps vc t

/-- A tile of whose output queue on a side the first tokens have been taken. -/
def Tile.outTaken (x : Tile) (d : Dir) (k : Nat) : Tile := { x with outq := tset [] x.outq (dirIx d) ((tget [] x.outq (dirIx d)).drop k) }

/-- The state in which a tap has taken the tokens that it sends. -/
def State.tapTaken (s : State) (p vc : Nat) (r : TapRec) (k : Nat) : State :=
  (s.modTile (s.tapTile r).1 (·.outTaken (s.tapTile r).2 k)).modPort p (·.tapSent vc k)

theorem tapEmit_eq (s : State) (p vc : Nat) (r : TapRec) (k : Nat) (f : Flit) :
    s.tapEmit p vc r k f = ((s.tapTaken p vc r k).queueFlit p f).countTap 1 k := rfl

theorem tapSends_tapEmit (s : State) (p vc : Nat) (r : TapRec) (k : Nat) (f : Flit) : TapSends s p vc r k f (s.tapEmit p vc r k f) := by
  have hport : ((s.tapTaken p vc r k).queueFlit p f).port p = ((s.port p).tapSent vc k).queues f := by
    rw [State.queueFlit, port_modPort_same, State.tapTaken, port_modPort_same]
    rfl
  have htile : (s.tapTaken p vc r k).tile (s.tapTile r).1 = (s.tile (s.tapTile r).1).outTaken (s.tapTile r).2 k := State.tile_modTile_same s _ (·.outTaken (s.tapTile r).2 k)
  have hobj : ((s.tapTaken p vc r k).queueFlit p f).obj 0x9050 1 = s.obj 0x9050 1 := rfl
  have hwait : ((s.tapTaken p vc r k).queueFlit p f).tapWaiting r = tget [] ((s.tapTaken p vc r k).tile (s.tapTile r).1).outq (dirIx (s.tapTile r).2) := rfl
  rw [tapEmit_eq]
  generalize (s.tapTaken p vc r k).queueFlit p f = v at hport hobj hwait
  refine ⟨?_, ?_, ?_, ?_⟩
  · rw [htile] at hwait
    exact hwait.trans (tget_tset_same _ _ _ _)
  · exact (congrArg (fun x : Port => tget [] x.sendq f.vc) hport).trans (sendq_queues _ f)
  · exact (congrArg (fun x : Port => (x.tap vc).sent) hport).trans (congrArg Tap.sent (tap_setTap_same _ vc _))
  · rw [State.countTap, obj_bump_same, hobj]

/-- A tap of TOKEN flits sends up to three tokens at a time. -/
theorem tapSend_tokens {s : State} {p : Nat} {r : TapRec} (hst : (s.port p).st = .active) (hopen : (s.port p).genOpen = false)
    (hr : s.tapRec p 2 = some r) (huse : r.use ≠ 3) (hwait : s.tapWaiting r ≠ []) (hmay : s.tapMay p 2 r = true) (hdoor : s.linkDoor p = false)
    (hflow : s.doorClosed .dataflow (s.physOf (tileRegion (s.tapTile r).1)) = false) :
    Completes (.tapSend p 2) s (s.tapEmit p 2 r (min 3 (s.tapWaiting r).length)
      (mkFlit 1 2 (tokenPayload ((s.tapWaiting r).take (min 3 (s.tapWaiting r).length))))) := by
  have hleft : s.tapRoundLeft p r = 3 := if_pos huse
  have hhops : s.tapHops p r = 0 := if_pos huse
  show execTapSend p 2 s = _
  unfold execTapSend
  rw [hr]
  dsimp only
  rw [if_neg (by simp [hst, hopen, hwait, hmay, hdoor, hflow]), if_neg (by decide), hleft, hhops]
  rfl

end Sys2Proof.Machine
end

section
/-! SUPPORT. What a sequenced flit brings that a port receives: tokens, start and count records, REPLAY, BULK (08 R255, R262, R265, R277;
10 R319, R326; 11 R353; 15 R441). -/

namespace Sys2Proof.Machine

/-! ## Tokens (08 R255, R277) -/

/-- A port whose tap has received tokens, when the module has reported ready for its waypoint or before. -/
def Port.tapTakes (x : Port) (vc : Nat) (ts : List Token) (reported : Bool) : Port :=
  x.setTap vc { (x.tap vc).count ts.length reported with queue := (x.tap vc).queue ++ markLast ts }

/-- A port has taken a flit whose tokens its tap then holds, and no tile differs. -/
structure TakesTokens (s : State) (p vc : Nat) (f : Flit) (u : State) : Prop where
  rxSeq : (u.port p).rxSeq = ((s.port p).rxSeq + 1) % 4096
  queue : ((u.port p).tap vc).queue = ((s.port p).tap vc).queue ++ markLast (flitTokens f)
  tiles : u.tiles = s.tiles

theorem takesTokens_tapReceive {s t : State} {p : Nat} {f : Flit} (h : PutsPort p ((s.port p).takesFlit f) s t) (vc : Nat) :
    TakesTokens s p vc f ((t.tapReceive p vc (flitTokens f)).countTap 2 (flitTokens f).length) := by
  have hput : PutsPort p (((s.port p).takesFlit f).tapTakes vc (flitTokens f) t.redn.barrier.reported) s (t.tapReceive p vc (flitTokens f)) :=
    h.modPort (·.tapTakes vc (flitTokens f) t.redn.barrier.reported)
  exact ⟨congrArg Port.rxSeq hput.port, (congrArg (fun x : Port => (x.tap vc).queue) hput.port).trans (congrArg Tap.queue (tap_setTap_same _ vc _)),
    hput.tiles⟩

/-- A port that holds a flit in the receive buffer of a virtual channel. -/
def Port.holds (x : Port) (vc : Nat) (f : Flit) : Port := { x with rxbuf := tmod [] x.rxbuf vc (· ++ [f]) }

theorem rxbuf_holds (x : Port) (vc : Nat) (f : Flit) : tget [] (x.holds vc f).rxbuf vc = tget [] x.rxbuf vc ++ [f] :=
  tget_tmod_same [] x.rxbuf vc (· ++ [f])

section
variable {s : State} {p : Nat} {f : Flit}

/-- Tokens of 0 hops reach the tap that a record binds. -/
theorem token_taken {r : TapRec} (h : Receives s p f 1) (hvc : f.vc = 2) (hhops : f.hops = 0) (hr : s.tapRec p 2 = some r) :
    ∃ u, Completes (.token p f) s u ∧ TakesTokens s p 2 f u := by
  have hput := putsPort_received s p f
  have hr' : (s.received p f).tapRec p 2 = some r := (hput.reads (State.tapRec · p 2) fun _ _ _ => rfl).trans hr
  refine ⟨_, ?_, takesTokens_tapReceive hput 2⟩
  show execToken p f s = _
  unfold execToken
  rw [rxSequenced_received h (decide_eq_true hvc), if_pos hhops, hr']

/-- Tokens that have hops to go are held to be forwarded (10 R326). -/
theorem token_held (h : Receives s p f 1) (hvc : f.vc = 2) (hhops : f.hops ≠ 0) :
    ∃ u, Completes (.token p f) s u ∧ PutsPort p (((s.port p).takesFlit f).holds 2 f) s u := by
  refine ⟨(s.received p f).modPort p (·.holds 2 f), ?_, (putsPort_received s p f).modPort (·.holds 2 f)⟩
  show execToken p f s = _
  unfold execToken
  rw [rxSequenced_received h (decide_eq_true hvc), if_neg hhops]
  rfl

section
variable (h : Receives s p f 2) (hvc : f.vc = 1) {t : TapRec} (ht : s.tapRec p 1 = some t)
include h hvc ht

theorem kvtoken_eq : execKvtoken p f s = .next
    (if (match s.ringOf p with | some r => decide (s.kvExpect p r t.rtokens = (f.ring, f.kind, f.round, f.origin)) | none => true) then
      ((s.received p f).tapReceive p 1 (flitTokens f)).countTap 2 (flitTokens f).length
    else ((s.received p f).modPort p (fun x => x.free 1)).linkFault p 0x41 []) := by
  have hput := putsPort_received s p f
  have ht' : (s.received p f).tapRec p 1 = some t := (hput.reads (State.tapRec · p 1) fun _ _ _ => rfl).trans ht
  have hring : (s.received p f).ringOf p = s.ringOf p := hput.reads (State.ringOf · p) fun _ _ _ => rfl
  have htap : ((s.received p f).port p).tap 1 = (s.port p).tap 1 := (congrArg (Port.tap · 1) hput.port :)
  have hexpect : ∀ r n, (s.received p f).kvExpect p r n = s.kvExpect p r n := fun r n => by
    unfold State.kvExpect
    rw [htap, hput.reads (State.runLen · 2) fun _ _ _ => rfl, hput.reads (State.runPos · 2) fun _ _ _ => rfl,
      hput.reads State.stepEndNext fun _ _ _ => rfl, hput.reads (·.redn.barrier.reported) fun _ _ _ => rfl]
  unfold execKvtoken
  rw [rxSequenced_received h (decide_eq_true hvc), ht']
  dsimp only
  rw [hring]
  cases s.ringOf p with
  | none => rfl
  | some r =>
    simp only [hexpect]

/-- A block's tokens reach the tap, where no ring names tags to check. -/
theorem kvtoken_noRing (hring : s.ringOf p = none) : ∃ u, Completes (.kvtoken p f) s u ∧ TakesTokens s p 1 f u := by
  refine ⟨_, (kvtoken_eq h hvc ht).trans ?_, takesTokens_tapReceive (putsPort_received s p f) 1⟩
  rw [hring]
  rfl

theorem kvtoken_matches {r : RingRec} (hring : s.ringOf p = some r) (htags : s.kvExpect p r t.rtokens = (f.ring, f.kind, f.round, f.origin)) :
    ∃ u, Completes (.kvtoken p f) s u ∧ TakesTokens s p 1 f u := by
  refine ⟨_, (kvtoken_eq h hvc ht).trans ?_, takesTokens_tapReceive (putsPort_received s p f) 1⟩
  rw [hring]
  dsimp only
  rw [if_pos (decide_eq_true htags)]

/-- Tags that differ from those expected are a fault. -/
theorem kvtoken_differs {r : RingRec} (hring : s.ringOf p = some r) (htags : s.kvExpect p r t.rtokens ≠ (f.ring, f.kind, f.round, f.origin)) :
    ∃ u, Completes (.kvtoken p f) s u ∧ Records s u 0x41 := by
  have hput := (putsPort_received s p f).modPort (·.free 1)
  refine ⟨_, (kvtoken_eq h hvc ht).trans ?_, hput.only.records (records_linkFault _ p [] rfl)⟩
  rw [hring]
  dsimp only
  rw [if_neg (by simp [htags])]

end

/-! ## Start records (08 R262) -/

/-- A port that keeps its partner's start record for the tap that it names. -/
def Port.keepsStart (x : Port) (f : Flit) : Port :=
  (x.setTap (fieldAt f.payload 9 1) { x.tap (fieldAt f.payload 9 1) with
    startRec := some (fieldAt f.payload 0 8, fieldAt f.payload 8 1, fieldAt f.payload 9 1, fieldAt f.payload 0x10 8) }).free 0

theorem checkStarts_of_noRun {s : State} (h : s.run = none) : s.checkStarts = s := by
  unfold State.checkStarts
  rw [h]

/-- With no RUN to compare it with, a start record is kept. -/
theorem start_kept (h : Receives s p f 7) (hvc : f.vc = 0) (hrun : s.run = none) :
    ∃ u, Completes (.start p f) s u ∧ PutsPort p (((s.port p).takesFlit f).keepsStart f) s u := by
  have hput := (putsPort_received s p f).modPort (·.keepsStart f)
  have hrun' : ((s.received p f).modPort p (·.keepsStart f)).run = none := (hput.reads State.run fun _ _ _ => rfl).trans hrun
  refine ⟨_, ?_, hput⟩
  show execStart p f s = _
  unfold execStart
  rw [rxSequenced_received h (decide_eq_true hvc)]
  exact congrArg _ (checkStarts_of_noRun hrun')

end

/-- Nothing differs between two states but the links. -/
def OnlyLinks (s u : State) : Prop := { u with link := s.link } = s

/-- A function that does not read the links has the same value. -/
theorem OnlyLinks.reads {s u : State} (h : OnlyLinks s u) {α : Type} (f : State → α) (hf : ∀ (v : State) l, f { v with link := l } = f v) :
    f u = f s := (hf u s.link).symm.trans (congrArg f h)

theorem onlyLinks_clearStarts (s : State) : OnlyLinks s s.clearStarts := by
  refine forEach_keeps (OnlyLinks s) _ s.boundTaps (fun u r _ h => ?_) s rfl
  exact h

/-- A RUN whose start records have not all come in time ends with the first tap that lacks one. -/
theorem startTimeout_ends {s : State} {run : Run} {r : TapRec} (hrun : s.run = some run) (hwait : run.waiting = true)
    (hdue : run.since + run.limit * 1000000 ≤ s.now)
    (hr : s.boundTaps.find? (fun r => decide (s.startMatches r run.steps ≠ some true)) = some r) :
    ∃ u, Completes .startTimeout s u ∧ u.run = none ∧ u.chart = s.chart ∧ u.tiles = s.tiles ∧
      ∀ k, s.cmd run.seq = some k → k.ended = false → Ended u run.seq 0x0B r.port run.done := by
  obtain ⟨log, hevent⟩ := event_eq s srcHelm 0x4C11 []
  have hnext : Completes .startTimeout s (((s.event srcHelm 0x4C11 []).clearStarts).endRun 0x0B r.port) := by
    show execStartTimeout s = _
    unfold execStartTimeout
    rw [hrun]
    dsimp only
    rw [if_pos ⟨hwait, hdue⟩, hr]
  have hlinks := onlyLinks_clearStarts (s.event srcHelm 0x4C11 [])
  rw [hevent] at hnext hlinks
  generalize State.clearStarts { s with log := log } = v at hnext hlinks
  have hvrun : v.run = some run := (hlinks.reads State.run fun _ _ => rfl).trans hrun
  have hvcmd : v.cmd run.seq = s.cmd run.seq := hlinks.reads (State.cmd · run.seq) fun _ _ => rfl
  obtain ⟨hi, hend⟩ := endRun_eq v 0x0B r.port
  refine ⟨_, hnext, endRun_run v _ _, ?_, ?_, fun k hk hopen => ?_⟩
  · rw [hend]
    exact hlinks.reads State.chart fun _ _ => rfl
  · rw [hend]
    exact hlinks.reads State.tiles fun _ _ => rfl
  · rw [State.endRun, hvrun]
    exact endCmd_ended v run.seq 0x0B r.port run.done k (hvcmd.trans hk) hopen

/-! ## Count records (08 R265) -/

/-- A port whose partner has reported the counts of an interval for a tap. -/
def Port.keepsCounts (x : Port) (vc : Nat) (c : Option (Nat × Nat × Nat)) : Port := x.setTap vc { x.tap vc with pcount := c }

theorem tap_keepsCounts (x : Port) (vc : Nat) (c : Option (Nat × Nat × Nat)) : (x.keepsCounts vc c).tap vc = { x.tap vc with pcount := c } :=
  tap_setTap_same x vc { x.tap vc with pcount := c }

/-- The counts of an interval that a TAPCOUNT flit reports: its waypoint, sent, received. -/
def reportedCounts (f : Flit) : Nat × Nat × Nat := (fieldAt f.payload 0 8, fieldAt f.payload 8 4, fieldAt f.payload 0xC 4)

section
variable {s : State} {p vc w sent recv : Nat} (hc : ((s.port p).tap vc).pcount = some (w, sent, recv))
include hc

/-- Counts of another interval than those that have closed wait. -/
theorem compareTap_waits (hrep : s.redn.barrier.reported = false) (hw : w ≠ s.wp.count) : s.compareTap p vc = s := by
  unfold State.compareTap
  dsimp only
  rw [hc]
  exact if_neg (by simp [hrep, hw])

/-- Counts of the interval that has closed are compared with the module's own. -/
theorem compareTap_closed (hw : w = s.wp.count) : ∃ detail, s.compareTap p vc =
    if sent = ((s.port p).tap vc).lastRecvd ∧ recv = ((s.port p).tap vc).lastSent then s.modPort p (·.keepsCounts vc none)
    else (s.modPort p (·.keepsCounts vc none)).linkFault p 0x40 detail := by
  unfold State.compareTap
  dsimp only
  rw [hc]
  dsimp only
  rw [if_pos (.inr (decide_eq_true hw)), if_pos (decide_eq_true hw), if_pos (decide_eq_true hw)]
  exact ⟨_, rfl⟩

end

/-- The state in which a port's partner has reported the counts of an interval for a tap. -/
def State.countsTaken (s : State) (p vc : Nat) (f : Flit) : State :=
  ((s.received p f).modPort p (·.free 0)).modPort p (·.keepsCounts vc (some (reportedCounts f)))

theorem putsPort_countsTaken (s : State) (p vc : Nat) (f : Flit) :
    PutsPort p ((((s.port p).takesFlit f).free 0).keepsCounts vc (some (reportedCounts f))) s (s.countsTaken p vc f) :=
  ((putsPort_received s p f).modPort (·.free 0)).modPort (·.keepsCounts vc (some (reportedCounts f)))

theorem tap_countsTaken (s : State) (p vc : Nat) (f : Flit) :
    ((s.countsTaken p vc f).port p).tap vc = { (s.port p).tap vc with pcount := some (reportedCounts f) } := by
  rw [(putsPort_countsTaken s p vc f).port, tap_keepsCounts]
  rfl

section
variable {s : State} {p : Nat} {f : Flit} {r : TapRec} (h : Receives s p f 8) (hvc : f.vc = 0)
  (hr : s.boundTaps.find? (fun r => decide (r.port = p)) = some r)
include h hvc hr

theorem tapcount_taken : Completes (.tapcount p f) s ((s.countsTaken p (tapVc r) f).compareTap p (tapVc r)) := by
  have htaps : ((s.received p f).modPort p (·.free 0)).boundTaps = s.boundTaps :=
    ((putsPort_received s p f).modPort (·.free 0)).reads State.boundTaps fun _ _ _ => rfl
  show execTapcount p f s = _
  unfold execTapcount
  rw [rxSequenced_received h (decide_eq_true hvc)]
  dsimp only
  rw [htaps, hr]
  rfl

/-- Counts of an interval that has not closed are kept. -/
theorem tapcount_waits (hrep : s.redn.barrier.reported = false) (hw : fieldAt f.payload 0 8 ≠ s.wp.count) :
    ∃ u, Completes (.tapcount p f) s u ∧ (u.port p).rxSeq = ((s.port p).rxSeq + 1) % 4096 ∧
      ((u.port p).tap (tapVc r)).pcount = some (fieldAt f.payload 0 8, fieldAt f.payload 8 4, fieldAt f.payload 0xC 4) := by
  have hput := putsPort_countsTaken s p (tapVc r) f
  have htap := tap_countsTaken s p (tapVc r) f
  have hreported : (s.countsTaken p (tapVc r) f).redn.barrier.reported = s.redn.barrier.reported :=
    hput.reads (·.redn.barrier.reported) fun _ _ _ => rfl
  have hcount : (s.countsTaken p (tapVc r) f).wp.count = s.wp.count := hput.reads (·.wp.count) fun _ _ _ => rfl
  have hnext := tapcount_taken h hvc hr
  rw [compareTap_waits (congrArg Tap.pcount htap) (hreported.trans hrep) (hcount ▸ hw)] at hnext
  exact ⟨_, hnext, congrArg Port.rxSeq hput.port, congrArg Tap.pcount htap⟩

/-- Counts of the interval that has closed raise a fault where they differ from the module's own, and nothing where they agree. -/
theorem tapcount_closed (hw : fieldAt f.payload 0 8 = s.wp.count) : ∃ u, Completes (.tapcount p f) s u ∧
    (fieldAt f.payload 8 4 = ((s.port p).tap (tapVc r)).lastRecvd ∧ fieldAt f.payload 0xC 4 = ((s.port p).tap (tapVc r)).lastSent →
      u.rcv = s.rcv) ∧
    (¬ (fieldAt f.payload 8 4 = ((s.port p).tap (tapVc r)).lastRecvd ∧ fieldAt f.payload 0xC 4 = ((s.port p).tap (tapVc r)).lastSent) →
      Records s u 0x40) := by
  have hput := putsPort_countsTaken s p (tapVc r) f
  have htap := tap_countsTaken s p (tapVc r) f
  have hcount : (s.countsTaken p (tapVc r) f).wp.count = s.wp.count := hput.reads (·.wp.count) fun _ _ _ => rfl
  obtain ⟨detail, hcompare⟩ := compareTap_closed (congrArg Tap.pcount htap) (hw.trans hcount.symm)
  have hnext := tapcount_taken h hvc hr
  rw [hcompare, htap] at hnext
  have hdone := hput.modPort (·.keepsCounts (tapVc r) none)
  generalize (s.countsTaken p (tapVc r) f).modPort p (·.keepsCounts (tapVc r) none) = v at hdone hnext
  refine ⟨_, hnext, fun hagree => ?_, fun hdiffer => ?_⟩
  · rw [if_pos hagree]
    exact hdone.reads State.rcv fun _ _ _ => rfl
  · rw [if_neg hdiffer]
    exact hdone.only.records (records_linkFault v p detail rfl)

end

/-! ## REPLAY (15 R441) -/

/-- A state whose replay goes back to a waypoint. -/
def State.resumes (s : State) (w : W64) : State := { s with rcv := { s.rcv with resumeWpt := w } }

theorem keepsReports_resumes (s : State) (w : W64) : KeepsReports s (s.resumes w) := ⟨rfl, rfl, rfl, rfl, rfl⟩

/-- A state that replays and that goes back to the higher of its own waypoint and a partner's, told to its neighbours where that is the
partner's. -/
def State.resumesAt (s : State) (w : W64) : State :=
  if higherWpt s.rcv.resumeWpt w = s.rcv.resumeWpt then s
  else (s.resumes (higherWpt s.rcv.resumeWpt w)).sendReplay (higherWpt s.rcv.resumeWpt w)

theorem resumesAt_spec (s : State) (w : W64) : (s.resumesAt w).rcv.resumeWpt = higherWpt s.rcv.resumeWpt w ∧
    (s.resumesAt w).rcv.phase = s.rcv.phase ∧ KeepsReports s (s.resumesAt w) := by
  unfold State.resumesAt
  generalize higherWpt s.rcv.resumeWpt w = h
  split
  · rename_i e
    exact ⟨e.symm, rfl, .refl s⟩
  · have hwork := faultWork_sendReplay (s.resumes h) h
    exact ⟨hwork.resume, hwork.phase, (keepsReports_resumes s h).trans (keepsReports_sendReplay _ h)⟩

/-- A neighbour's replay begins one here. -/
theorem replay_begins {s : State} {p : Nat} {f : Flit} (h : Receives s p f 9) (hvc : f.vc = 0) (hrun : s.running = true)
    (hidle : s.rcv.phase = .idle) : ∃ u, Completes (.replay p f) s u ∧ Records s u 0x45 ∧ u.rcv.phase = .replaying ∧ u.run = s.run ∧
      u.rcv.resumeWpt = higherWpt s.wp.reg (BitVec.ofNat 64 (fieldAt f.payload 0 8)) := by
  have hput := (putsPort_received s p f).modPort (·.free 0)
  have hnext : execReplay p f s = .next (
      if ((s.received p f).modPort p (·.free 0)).rcv.phase = .replaying then
        ((s.received p f).modPort p (·.free 0)).resumesAt (BitVec.ofNat 64 (fieldAt f.payload 0 8))
      else if ((s.received p f).modPort p (·.free 0)).running then
        (((s.received p f).modPort p (·.free 0)).linkFault p 0x45 (leBytes 8 (BitVec.ofNat 64 (fieldAt f.payload 0 8)).toNat)).resumesAt
          (BitVec.ofNat 64 (fieldAt f.payload 0 8))
      else (s.received p f).modPort p (·.free 0)) := by
    unfold execReplay
    rw [rxSequenced_received h (decide_eq_true hvc)]
    rfl
  generalize (s.received p f).modPort p (·.free 0) = a at hput hnext
  have hidle' : a.rcv.phase = .idle := (hput.reads (·.rcv.phase) fun _ _ _ => rfl).trans hidle
  have hrun' : a.running = true := (hput.reads State.running fun _ _ _ => rfl).trans hrun
  rw [if_neg (by rw [hidle']; decide), if_pos hrun'] at hnext
  have hrecords := hput.only.records (records_linkFault a p (leBytes 8 (BitVec.ofNat 64 (fieldAt f.payload 0 8)).toNat) (cause := 0x45) rfl)
  obtain ⟨r, hwork, hbegins⟩ := faultWork_raiseFault a (f := ⟨0x45, causeClass 0x45, (.link, p), none, none, 7, some p,
    leBytes 8 (BitVec.ofNat 64 (fieldAt f.payload 0 8)).toNat⟩) rfl rfl
  obtain ⟨hphase, hresume⟩ := hbegins hidle' hrun'
  have hwork' : FaultWork { a with rcv := r } (a.linkFault p 0x45 (leBytes 8 (BitVec.ofNat 64 (fieldAt f.payload 0 8)).toNat)) := hwork
  generalize a.linkFault p 0x45 (leBytes 8 (BitVec.ofNat 64 (fieldAt f.payload 0 8)).toNat) = v at hnext hrecords hwork'
  obtain ⟨hwpt, hphase', hkeeps⟩ := resumesAt_spec v (BitVec.ofNat 64 (fieldAt f.payload 0 8))
  refine ⟨_, hnext, hrecords.keeps hkeeps, ?_, ?_, ?_⟩
  · exact hphase'.trans (hwork'.phase.trans hphase)
  · exact hkeeps.run.trans ((hwork'.frame.reads State.run fun _ _ _ _ _ _ _ _ => rfl).trans (hput.reads State.run fun _ _ _ => rfl))
  · rw [hwpt, hwork'.resume, hresume, hput.reads (·.wp.reg) fun _ _ _ => rfl]

/-! ## BULK (11 R353) -/

/-- The entries of the commands and the requests that wait at a stack's door are as they were. -/
structure KeepsEntries (s u : State) : Prop where
  held    : u.hi.held = s.hi.held
  entries : u.hi.cmds.map Cmd.entry = s.hi.cmds.map Cmd.entry

theorem KeepsEntries.trans {s u v : State} (h : KeepsEntries s u) (k : KeepsEntries u v) : KeepsEntries s v :=
  ⟨k.held.trans h.held, k.entries.trans h.entries⟩

theorem keepsEntries_endCmd (s : State) (seq code detail result : Nat) : KeepsEntries s (s.endCmd seq code detail result) := by
  refine ⟨rfl, ?_⟩
  rw [State.endCmd, modCmd_cmds, List.map_map]
  refine List.map_congr_left fun c _ => ?_
  simp only [Function.comp_apply]
  split
  · split <;> rfl
  · rfl

theorem keepsEntries_received (s : State) (p : Nat) (f : Flit) : KeepsEntries s (s.received p f) := by
  have hends : ∀ u : State, KeepsEntries u (u.endCopies p) := fun u =>
    have h := forEach_keeps (KeepsEntries u) (fun v (c : Nat × Nat × Nat) => v.endCmd c.1 0 0 c.2.2)
      ((u.port p).copies.filter (fun c => decide (c.2.1 = 0))) (fun v c _ k => k.trans (keepsEntries_endCmd v _ _ _ _)) u ⟨rfl, rfl⟩
    ⟨h.held, h.entries⟩
  obtain ⟨hheld, hentries⟩ := hends (s.setPort p ((s.port p).hearsHeader f))
  exact ⟨hheld, hentries⟩

/-- No command is a CHART_LOAD. -/
def NoLoads (s : State) : Prop := ∀ k ∈ s.hi.cmds, k.opcode ≠ 1

theorem NoLoads.keeps {s u : State} (h : NoLoads s) (k : KeepsEntries s u) : NoLoads u := fun c hc hop => by
  have hmem : c.entry ∈ s.hi.cmds.map Cmd.entry := k.entries ▸ List.mem_map_of_mem hc
  obtain ⟨d, hd, he⟩ := List.mem_map.1 hmem
  exact h d hd ((congrArg (fieldAt · 0 1) he).trans hop)

/-- Without a CHART_LOAD the loaded chart alone is protected (05 R148). -/
theorem protects_of_noLoads {s : State} (h : NoLoads s) (a n : Nat) :
    s.protects a n = (match s.chart with | some c => overlaps a n c.image c.size | none => false) := by
  have hany : s.hi.cmds.any (fun c => decide (c.opcode = 1 ∧ c.jstate = 2) && !c.ended && s.chart.isNone &&
      overlaps a n (fieldAt c.entry 8 8) (s.devNat (fieldAt c.entry 8 8 + 8) 8)) = false :=
    List.any_eq_false.2 fun c hc => by simp [h c hc]
  exact (congrArg (Bool.or _) hany).trans (Bool.or_false _)

/-- The state in which a port has taken a BULK flit and freed its slot. -/
def State.bulkTaken (s : State) (p : Nat) (f : Flit) : State := (s.received p f).modPort p (·.free 7)

section
variable (s : State) (p : Nat) (f : Flit)

theorem putsPort_bulkTaken : PutsPort p (((s.port p).takesFlit f).free 7) s (s.bulkTaken p f) := (putsPort_received s p f).modPort (·.free 7)

theorem keepsEntries_bulkTaken : KeepsEntries s (s.bulkTaken p f) :=
  (keepsEntries_received s p f).trans ⟨rfl, rfl⟩

theorem rxSeq_bulkTaken : ((s.bulkTaken p f).port p).rxSeq = ((s.port p).rxSeq + 1) % 4096 := congrArg Port.rxSeq (putsPort_bulkTaken s p f).port

variable (a n : Nat)

theorem inDevice_bulkTaken : (s.bulkTaken p f).inDevice a n = s.inDevice a n :=
  (putsPort_bulkTaken s p f).reads (State.inDevice · a n) fun _ _ _ => rfl

theorem stackHeld_bulkTaken : (s.bulkTaken p f).stackHeld 0 a n = s.stackHeld 0 a n :=
  (putsPort_bulkTaken s p f).reads (State.stackHeld · 0 a n) fun _ _ _ => rfl

theorem writeRefused_bulkTaken (h : NoLoads s) : (s.bulkTaken p f).writeRefused a n = s.writeRefused a n := by
  have hput := putsPort_bulkTaken s p f
  have hruns : (s.bulkTaken p f).runProtects a n = s.runProtects a n := hput.reads (State.runProtects · a n) fun _ _ _ => rfl
  unfold State.writeRefused
  rw [protects_of_noLoads h, protects_of_noLoads (h.keeps (keepsEntries_bulkTaken s p f)), hput.chart, hruns]

end

section
variable {s : State} {p : Nat} {f : Flit} (h : Receives s p f 0x0A) (hvc : f.vc = 7)
include h hvc

theorem bulk_eq : execBulk p f s = .next
    (if (s.bulkTaken p f).inDevice (fieldAt f.payload 0 8) (bulkBytes f) ∧
        ¬ (s.bulkTaken p f).writeRefused (fieldAt f.payload 0 8) (bulkBytes f) then
      (s.bulkTaken p f).devSend (.unit .link p) (fieldAt f.payload 0 8) (bytesAt f.payload 0x10 (bulkBytes f))
    else ((s.bulkTaken p f).bump 0x9070 1 64 1).event (srcLink p) 0x5B06 []) := by
  unfold execBulk State.bulkTaken
  rw [rxSequenced_received h (decide_eq_true hvc)]

/-- A BULK flit in device memory that may be written is sent there. -/
theorem bulk_sends (hin : s.inDevice (fieldAt f.payload 0 8) (bulkBytes f) = true)
    (hfree : s.writeRefused (fieldAt f.payload 0 8) (bulkBytes f) = false) (hloads : NoLoads s) : Completes (.bulk p f) s
    ((s.bulkTaken p f).devSend (.unit .link p) (fieldAt f.payload 0 8) (bytesAt f.payload 0x10 (bulkBytes f))) := by
  refine (bulk_eq h hvc).trans ?_
  rw [inDevice_bulkTaken, writeRefused_bulkTaken s p f _ _ hloads, hin, hfree, if_pos (by decide)]

/-- A BULK flit outside device memory is counted and writes nothing. -/
theorem bulk_outside (hout : s.inDevice (fieldAt f.payload 0 8) (bulkBytes f) = false) :
    ∃ u, Completes (.bulk p f) s u ∧ u.mem = s.mem ∧ u.obj 0x9070 1 = satAdd 64 (s.obj 0x9070 1) 1 := by
  have hput := putsPort_bulkTaken s p f
  have hnext : Completes (.bulk p f) s (((s.bulkTaken p f).bump 0x9070 1 64 1).event (srcLink p) 0x5B06 []) := by
    refine (bulk_eq h hvc).trans ?_
    rw [inDevice_bulkTaken, hout, if_neg (by simp)]
  generalize s.bulkTaken p f = t at hput hnext
  obtain ⟨log, hevent⟩ := event_eq (t.bump 0x9070 1 64 1) (srcLink p) 0x5B06 []
  rw [hevent] at hnext
  refine ⟨_, hnext, hput.reads State.mem fun _ _ _ => rfl, ?_⟩
  rw [← hput.obj]
  exact obj_bump_same t 0x9070 1 64 1

end

/-- The bytes of a BULK flit. -/
theorem length_bulk {f : Flit} (hlen : f.payload.length = 240) (hn : bulkBytes f ≤ 224) :
    (bytesAt f.payload 0x10 (bulkBytes f)).length = bulkBytes f := by
  simp only [bytesAt, List.length_take, List.length_drop, hlen]
  omega

section
variable (s : State) (p a : Nat) (f : Flit) {bs : List Byte}

/-- At a stack's closed door the write waits. -/
theorem bulk_waits (hheld : s.stackHeld 0 a bs.length = true) : ∃ u, (s.bulkTaken p f).devSend (.unit .link p) a bs = u ∧
    (u.port p).rxSeq = ((s.port p).rxSeq + 1) % 4096 ∧ u.mem = s.mem ∧ u.hi.held = s.hi.held ++ [⟨.unit .link p, a, bs.length, some bs⟩] := by
  have hmem : (s.bulkTaken p f).mem = s.mem := (putsPort_bulkTaken s p f).reads State.mem fun _ _ _ => rfl
  have hentries := (keepsEntries_bulkTaken s p f).held
  have hseq := rxSeq_bulkTaken s p f
  rw [← stackHeld_bulkTaken s p f] at hheld
  generalize s.bulkTaken p f = t at *
  refine ⟨_, if_pos hheld, hseq, hmem, ?_⟩
  rw [← hentries]
  rfl

/-- At an open door the bytes are written, and no other byte. -/
theorem bulk_writes (hopen : s.stackHeld 0 a bs.length = false) : ∃ u, (s.bulkTaken p f).devSend (.unit .link p) a bs = u ∧
    (u.port p).rxSeq = ((s.port p).rxSeq + 1) % 4096 ∧ u.devRead a bs.length = bs ∧
      ∀ b, b < a ∨ a + bs.length ≤ b → u.devByte b = s.devByte b := by
  have hbyte : ∀ b, (s.bulkTaken p f).devByte b = s.devByte b := fun b =>
    (putsPort_bulkTaken s p f).reads (State.devByte · b) fun _ _ _ => rfl
  have hseq := rxSeq_bulkTaken s p f
  rw [← stackHeld_bulkTaken s p f] at hopen
  generalize s.bulkTaken p f = t at *
  refine ⟨_, if_neg (by simp [hopen]), ?_, devRead_devWrite t a bs, fun b hb => (devByte_devWrite_outside bs t a hb).trans (hbyte b)⟩
  exact (devWrite_congr t a bs fun v : State => (v.port p).rxSeq).trans hseq

end

end Sys2Proof.Machine
end

section
/-! The statement of 10 about flits and taps. -/

namespace Sys2Proof.Proofs

open Sys2Proof.Machine

/-- Settles O59: what a port sends is the flit of `Emits`, and what it takes leaves a port that is written out (`PutsPort`); each clause reads
it off. -/
theorem flitsAndTaps : Obligations.FlitsAndTaps := by
  refine fun s p f => ⟨?ident, ?training, ?active, ?token, ?kvtoken, ?ring, ?start, ?tapcount, ?timeout, ?replay, ?bulk⟩
  case ident =>
    intro hst hreset
    have hemits := emits_emit s p (mkFlit 0x0F 0 (s.ownIdent p))
    have hnext := flitTransmit_transmits hreset (.inl hst)
    rw [transmit_ident hst] at hnext
    exact ⟨_, _, hnext, hemits.lastTx, rfl, payload_ident, hemits.last, hemits.others⟩
  case training =>
    intro hst hreset
    have hemits := emits_emit s p (mkFlit 0 0 [])
    exact ⟨_, _, flitTransmit_idle hreset hst, hemits.lastTx, rfl, rfl, hemits.last, hemits.others⟩
  case active =>
    intro hst hreset hopen
    refine ⟨?chosen, ?lost, ?corrected, ?residue, ?noEffect, ?idleWrong, ?idle, ?tapSend⟩
    case chosen =>
      intro vc g rest hon hgen hresend hretry hvc hq
      have hsending := sending_sending s p vc g rest
      have hemits := emits_emit (s.sending p vc g rest) p { g with seq := (s.port p).txSeq }
      have hnext := flitTransmit_transmits hreset (.inr hst)
      rw [transmit_chosen hst hopen hon hgen hresend hretry hvc hq] at hnext
      generalize s.sending p vc g rest = t at hsending hemits hnext
      have hhand := hemits.inHand
      simp only [Port.inHand, Prod.mk.injEq] at hhand
      obtain ⟨hsendq, htxSeq, hkept, hcredits⟩ := hhand
      refine ⟨_, _, hnext, hemits.lastTx, rfl, rfl, rfl, hsending.rxSeq, ?_, ?_, htxSeq.trans hsending.txSeq, hkept.trans hsending.retry, ?_,
        hemits.last, hemits.count.trans hsending.count, fun q hq => (hemits.others q hq).trans (hsending.others q hq)⟩
      · rw [← hsending.tag]
        rfl
      · rw [hsendq, hsending.sendq]
      · rw [hcredits, hsending.credits]
    case lost =>
      intro e he
      have hlost : LosesFlit (s.port p) f e := by
        obtain rfl | ⟨c, rfl, hc⟩ | ⟨n, rfl⟩ | ⟨rfl, hlow, hhigh, hfor⟩ := he
        exacts [.badType, .crc hc, .fec n, .late ⟨hlow, hhigh⟩ hfor]
      have hframe := countFec_frame s p e
      have hport : (s.countFec p e).port p = s.port p := (congrArg (State.port · p) hframe :)
      refine ⟨_, flitReceiveError_asks hst hreset hopen f hlost, ?_, ?_, (congrArg (fun v : State => { v with link := s.link }) hframe :), ?_⟩
      · rw [port_modPort_same]
        rfl
      · rw [port_modPort_same, hport]
        rfl
      · rintro n rfl
        exact countFec_uncorrected hst n
    case corrected =>
      exact fun n => ⟨_, flitReceiveError_corrected s p f n, countFec_frame s p _, countFec_corrected hst n⟩
    case residue =>
      refine ⟨_, flitReceiveError_residue hst hreset hopen f, badResidue_again s p f, fun hfirst => ?_⟩
      obtain ⟨hnak, -, hres, -, -⟩ := badResidue_first s p f hfirst
      exact ⟨hnak, hres, badResidue_frame f hfirst⟩
    case noEffect => exact fun e he => flitReceiveError_none hst hreset hopen f he
    case idleWrong =>
      intro htype hvc
      refine ⟨_, idle_wrongChannel hst hreset hopen htype hvc, onlyPort_modPort s p _, ?_⟩
      rw [port_modPort_same]
      exact ⟨rfl, rfl, rfl⟩
    case idle =>
      intro htype hvc
      have hput := putsPort_rxHeader s p f
      exact ⟨_, idle_hears hst hreset hopen htype hvc, hput.frame, (congrArg Port.rxSeq hput.port).trans rfl,
        (congrArg Port.retry hput.port).trans rfl, (congrArg (fun x : Port => tget 0 x.credits f.cvc) hput.port).trans (credits_hearsHeader _ f)⟩
    case tapSend =>
      intro r hr huse hwait hmay hdoor hflow
      have hsends := tapSends_tapEmit s p 2 r (min 3 (s.tapWaiting r).length)
        (mkFlit 1 2 (tokenPayload ((s.tapWaiting r).take (min 3 (s.tapWaiting r).length))))
      exact ⟨_, tapSend_tokens hst hopen hr huse hwait hmay hdoor hflow, hsends.waiting, hsends.sendq, hsends.sent, hsends.count⟩
  case token =>
    refine fun h hvc => ⟨fun r hhops hr => ?_, fun hhops => ?_⟩
    · obtain ⟨u, hnext, htakes⟩ := token_taken h hvc hhops hr
      exact ⟨u, hnext, htakes.rxSeq, htakes.queue, htakes.tiles⟩
    · obtain ⟨u, hnext, hput⟩ := token_held h hvc hhops
      exact ⟨u, hnext, congrArg Port.rxSeq hput.port, (congrArg (fun x : Port => tget [] x.rxbuf 2) hput.port).trans (rxbuf_holds _ 2 f)⟩
  case kvtoken =>
    intro t h hvc hring ht
    obtain ⟨u, hnext, htakes⟩ := kvtoken_noRing h hvc ht hring
    exact ⟨u, hnext, htakes.rxSeq, htakes.queue, htakes.tiles⟩
  case ring =>
    refine fun r t h hvc hring ht => ⟨fun htags => ?_, kvtoken_differs h hvc ht hring⟩
    obtain ⟨u, hnext, htakes⟩ := kvtoken_matches h hvc ht hring htags
    exact ⟨u, hnext, htakes.rxSeq, htakes.queue, htakes.tiles⟩
  case start =>
    intro h hvc hrun
    obtain ⟨u, hnext, hput⟩ := start_kept h hvc hrun
    exact ⟨u, hnext, congrArg Port.rxSeq hput.port,
      (congrArg (fun x : Port => (x.tap (fieldAt f.payload 9 1)).startRec) hput.port).trans (congrArg Tap.startRec (tap_setTap_same _ _ _))⟩
  case tapcount =>
    exact fun r h hvc hr => ⟨tapcount_waits h hvc hr, tapcount_closed h hvc hr⟩
  case timeout =>
    intro run r hrun hwait hdue hr
    exact startTimeout_ends hrun hwait hdue hr
  case replay =>
    intro h hvc hrun hidle _
    exact replay_begins h hvc hrun hidle
  case bulk =>
    intro h hvc hlen hn
    have hbytes := length_bulk hlen hn
    refine ⟨fun hin hfree hloads hheld => ?_, fun hin hfree hloads hopen => ?_, bulk_outside h hvc⟩
    · rw [← hbytes] at hheld
      obtain ⟨u, hsends, hseq, hmem, hwaits⟩ := bulk_waits s p _ f hheld
      rw [hbytes] at hwaits
      exact ⟨u, (bulk_sends h hvc hin hfree hloads).trans (congrArg _ hsends), hseq, hmem, hwaits⟩
    · rw [← hbytes] at hopen
      obtain ⟨u, hsends, hseq, hread, hothers⟩ := bulk_writes s p _ f hopen
      rw [hbytes] at hread hothers
      exact ⟨u, (bulk_sends h hvc hin hfree hloads).trans (congrArg _ hsends), hseq, hread, hothers⟩

end Sys2Proof.Proofs
end
